-- ==== Sys2Proof/Syntax.lean ====
section
/-! DEFINITION. The commands of the die: one constructor per row of spec/opcode_table.json, with its operands.
A row that is an arrival carries what arrives; a row that rests on a fact of the environment (an ECC result, a
sensed value) carries that fact. -/

namespace Sys2Proof

/-- Who makes a register write (R483, R445): a BCT command by channel and SEQ, I3C, a Desk core, or another die. -/
inductive Issuer where
  | bct (ch seq : Nat)
  | i3c
  | desk (core : Nat)
  | die (d : Nat)
  deriving DecidableEq, Repr

/-- An output of a mesh stop (R20): its four neighbours or the edge, and delivery at the stop itself. -/
inductive Face where
  | north | east | south | west | here
  deriving DecidableEq, Repr

/-- What has gone wrong in the rows that an access touches since they were written (Table 06.1): the data bits that have
flipped, counted from the first row; the check bits, 18 for each 128 data bits; and whether the access reaches a wrong
row. -/
structure Upset where
  flips  : List Nat := []
  checks : List Nat := []
  row    : Bool := false
  deriving DecidableEq, Repr

/-- A beat of the patrol scrubber: what its read meets, and whether another source waits for the bank (R156, R164). -/
structure ScrubBeat where
  upset : Upset := {}
  busy  : Bool := false
  deriving DecidableEq, Repr

/-- What a read of a Wardrobe block meets (R197, R200): the changed bytes of the block and its check bytes, with the change;
whether the link corrected an error; and whether the block was read once more. -/
structure BlockUpset where
  errs      : List (Nat × Byte) := []
  linkCe    : Bool := false
  linkRetry : Bool := false
  deriving DecidableEq, Repr

/-- Words of a queue packet that go out together, and what the read of them meets (R214, R231). -/
structure WordRead where
  words : Nat
  upset : Upset := {}
  deriving DecidableEq, Repr

/-- What became of a flit on its way: the symbols that FEC corrected, none where a codeword was uncorrectable; and whether
link-level retry did not recover it (R224, R309). -/
structure FlitFate where
  fec  : Option Nat
  lost : Bool := false
  deriving DecidableEq, Repr

/-- The STATUS of a response (Table 11.9), and whether an abort or a load at the owner is what closed the window (R182). -/
structure MemStatus where
  code  : Nat
  quiet : Bool := false
  deriving DecidableEq, Repr

/-- A TUNNEL packet beside its fields TD, TE and HOP and its records: its header (Table 11.7) and RECORDS (Table 11.9). -/
structure TunnelFrame where
  header : List Byte
  count  : Nat
  deriving DecidableEq, Repr

/-- One access to a scratchpad or a Shelf slice by its source, in one beat (R155 to R157, R171). `wide` is the group of
banks that the beat's wide access occupies, `rivals` the sources that wait for the same bank or port, and `back` the
physical Bench that a Shelf read over the mesh answers. -/
structure Access where
  src    : Nat               -- 0 wide port, 1 vector unit, 2 transfer engine, 3 mesh
  off    : Nat
  len    : Nat
  wdata  : Option (List Byte)
  upset  : Upset := {}
  wide   : Option Nat := none
  rivals : List Nat := []
  back   : Option Nat := none
  deriving DecidableEq, Repr

/-- What goes wrong in one beat of the matrix unit (R123): the rounded sum of element `e` comes out as `w`, or the product
significand of its k-step `k` of the beat comes out as `m`. -/
inductive BeatUpset where
  | sum (e : Nat) (w : Word)
  | prod (e k m : Nat)
  deriving DecidableEq, Repr

/-- A credit for a remote-write window (R178). -/
structure Credit where
  die    : Nat
  tile   : Nat
  window : Nat
  epoch  : Nat
  bytes  : Nat
  deriving DecidableEq, Repr

/-- A write that reaches a scratchpad window's owner (R179, R181). `sender` is none for a management write. -/
structure WinWrite where
  tile   : Nat
  off    : Nat
  data   : List Byte
  epoch  : Nat
  window : Nat
  sender : Option (Nat × Nat)   -- die, logical tile
  tag    : Nat                  -- TAG of the operation that brought it from another die
  deriving DecidableEq, Repr

/-- A board-memory operation on the links (R332, Table 11.9). -/
structure MemOp where
  src    : Nat
  addr   : Nat
  bytes  : Nat
  tag    : Nat
  issuer : Nat
  epoch  : Nat
  data   : List Byte
  deriving DecidableEq, Repr

/-- The producer of a queue packet (R216, R221): a link port with the sending device, a BCT channel, a local Bench. -/
inductive Producer where
  | link (port dev : Nat)
  | bct (ch : Nat)
  | bench (tile : Nat)
  deriving DecidableEq, Repr

/-- What a producer declares at the opening of a packet (R219, Table 08.3). -/
structure OpenReq where
  words  : Nat
  isEnd  : Bool
  step   : Nat
  mb     : Nat
  tokens : Nat
  deriving DecidableEq, Repr

/-- A bucket header (Table 10.2). -/
structure BucketHdr where
  kind      : Nat
  channel   : Nat
  flags     : Nat
  step      : Nat
  attempt   : Nat
  owner     : Nat
  sender    : Nat
  contrib   : Nat
  bucket    : Nat
  e         : Int
  maxexp    : Int
  first     : Nat
  count     : Nat
  nonfinite : Nat
  trunc     : Nat
  checksum  : Nat
  errsum    : Nat
  deriving DecidableEq, Repr

/-- A segment of a slice (R275, R279): its closing header and its elements, each a WS96 or an FP32 pattern. -/
structure Segment where
  hdr   : BucketHdr
  elems : List Nat
  deriving DecidableEq, Repr

/-- A vote message (Table 10.3). -/
structure VoteMsg where
  step    : Nat
  attempt : Nat
  round   : Nat
  kind    : Nat
  flags   : Nat
  outcome : Nat
  count   : Nat
  deriving DecidableEq, Repr

/-- What an IDENT flit carries (Table 11.2). -/
structure Ident where
  coord  : Nat
  dir    : Nat
  pos    : Nat
  cls    : Nat
  serial : Nat
  fec    : Option Nat := some 0
  crc    : Bool := true
  deriving DecidableEq, Repr

/-- The fields of a stream packet (Table 11.9, R330). -/
structure StreamHdr where
  src      : Nat
  tile     : Nat
  entry    : Nat
  srcEntry : Nat
  step     : Nat
  mb       : Nat
  srcTile  : Nat
  deriving DecidableEq, Repr

/-- A sync operation message between dies (Table 12.6). -/
structure SyncMsg where
  op     : Nat
  tag    : Nat
  phys   : Bool
  ctx    : Nat
  vid    : Nat
  count  : Nat
  req    : Nat
  cell   : Nat
  gen    : Nat
  reason : Nat
  flag   : Bool             -- RELEASE: the cell is a FLAG (R355)
  deriving DecidableEq, Repr

/-- The address a datagram came from (R367). -/
structure Peer where
  addr : List Byte
  udp  : Nat
  deriving DecidableEq, Repr

/-- One copy of a BCT command as it reaches BCT: port, UDP payload and sender (R369, R376). -/
structure Copy where
  port    : Nat
  payload : List Byte
  peer    : Peer
  deriving DecidableEq, Repr

/-- An event that raises an error record (R400 to R403): unit ID, record class, REASON, DETAIL as a little-endian
number, and CONTEXT. -/
structure ErrEvent where
  unit   : Nat
  cls    : Nat
  reason : Nat
  detail : Nat
  ctx    : Nat
  deriving DecidableEq, Repr

/-- One step of the die: a row of the table of operations and events. A `tile` is a logical tile, a `p` of a memory
row a physical Bench index, `l` a link, `d` a bundle, `q` a queue, `c` a channel, `iss` the issuer of a write. -/
inductive Instr where
  | registerWrite (iss : Issuer) (off : Nat) (v : Word)
  | meshFlitHop (stop : Nat) (out : Face)
  | rsyncPulse
  | slewStep
  | rclkLost
  | rclkReturn
  | powerWindow
  | lendStart (p : Nat)
  | wakeSlot
  | wakeRampStep (p : Nat)
  | pwrFnEnable (iss : Issuer) (n : Nat)
  | pwrFnDisable (iss : Issuer) (n : Nat)
  | powerTransitionDone (n : Nat)
  | thermalSample (tj : BitVec 16)
  | thermtrip (tj : BitVec 16)
  | vddCoreChange (mv : Nat)
  | railLoss
  | loadGo (iss : Issuer) (staged : Bool)
  | loadVerifyDone
  | loadClaimsOn
  | loadPowerTimeout
  | loadWriteDone (ue : Bool)
  | boundaryToken (tile route : Nat)
  | benchDrained (tile : Nat)
  | boundaryComplete
  | tileClearDone
  | benchFlip (tile : Nat)
  | swapResume
  | boundaryTimeout
  | abort (iss : Issuer)
  | idleApply
  | fenceRequest (iss : Issuer) (ty mask : Nat)
  | stagerBlockTaken (tile src : Nat)
  | productStart (tile : Nat)
  | matrixBeat (tile : Nat) (upset : Option BeatUpset)
  | productDone (tile : Nat)
  | cgTest
  | numCounterClear (tile : Nat)
  | prologueStart (tile : Nat)
  | epilogueStart (tile : Nat)
  | deferredStart (tile : Nat)
  | vNop (tile : Nat)
  | vEndr (tile : Nat)
  | vEndt (tile : Nat)
  | vAdd (tile : Nat)
  | vSub (tile : Nat)
  | vMul (tile : Nat)
  | vFma (tile : Nat)
  | vMax (tile : Nat)
  | vMin (tile : Nat)
  | vAbs (tile : Nat)
  | vNeg (tile : Nat)
  | vCsel (tile : Nat)
  | vRint (tile : Nat)
  | vXln (tile : Nat)
  | vMov (tile : Nat)
  | vDiv (tile : Nat)
  | vRcp (tile : Nat)
  | vSqrt (tile : Nat)
  | vRsqrt (tile : Nat)
  | vExp2 (tile : Nat)
  | vLog2 (tile : Nat)
  | vSigm (tile : Nat)
  | vErf (tile : Nat)
  | vTanh (tile : Nat)
  | vSinpi (tile : Nat)
  | vCospi (tile : Nat)
  | vRsum (tile : Nat)
  | vRmax (tile : Nat)
  | vBcl (tile : Nat)
  | vPos (tile : Nat)
  | vLdk (tile : Nat)
  | vRndu (tile : Nat)
  | vLd (tile : Nat)
  | vLds (tile : Nat)
  | vLda (tile : Nat)
  | vSt (tile : Nat)
  | vStg (tile : Nat)
  | vSta (tile : Nat)
  | vSpl (tile : Nat)
  | vAdda (tile : Nat)
  | scratchpadAccess (p : Nat) (a : Access)
  | shelfAccess (p : Nat) (a : Access)
  | patrolScrub (shelf : Bool) (p off : Nat) (beat : ScrubBeat)
  | reEncodeDone
  | scoreboardStallEnd (tile : Nat)
  | descriptorTrigger (tile : Nat)
  | copy (tile : Nat)
  | openWindow (tile : Nat)
  | closeWindow (tile : Nat)
  | copyDone (tile : Nat)
  | creditArrive (tile : Nat) (cr : Credit)
  | creditWriteSend (tile : Nat)
  | windowWrite (w : WinWrite)
  | wrdPortPllLock (p : Nat)
  | wrdResetRelease (p : Nat)
  | wrdZqStart (p : Nat)
  | wrdTrainDone (p : Nat) (failStep : Option Nat)
  | wrdClearDone (p : Nat)
  | wrdRefresh (p : Nat)
  | wrdMr4Read (p rate : Nat) (hot : Bool)
  | wrdRfm (p bank : Nat)
  | wrdZqRecal (p : Nat) (drifted : Bool)
  | wardrobeRead (addr len : Nat) (errs : List (Nat × Byte)) (ofRun linkCe linkRetry : Bool)
  | wardrobeWrite (addr : Nat) (data : List Byte) (upset : BlockUpset)
  | wrdScrub (p blk : Nat) (upset : BlockUpset)
  | memRead (m : MemOp)
  | memWrite (m : MemOp)
  | memResp (tag : Nat) (status : MemStatus) (data : List Byte)
  | remoteOpTimeout (tag : Nat)
  | queueConfigWrite (iss : Issuer) (q : Nat) (v : Word)
  | queueRingWrite (iss : Issuer) (q : Nat) (v : Word)
  | packetOpen (q : Nat) (prod : Producer) (r : OpenReq)
  | packetCommit (q : Nat) (data : List Byte)
  | ringReturn (q : Nat)
  | ringReturnDone (q : Nat)
  | packetNotice (q : Nat)
  | wordDeliver (q tile : Nat) (read : WordRead)
  | packetTaken (q : Nat)
  | endMarker (q : Nat)
  | queueFlushRequest (iss : Issuer) (mask : Word)
  | queueFlush (q : Nat)
  | sbdScan (bucket : Nat) (ue : Bool)
  | normPartial (child : Option Nat) (sum : Nat)
  | updateChunkDone (ue : Bool)
  | sbdUpdateDone
  | refreshDone
  | rollback (iss : Issuer)
  | sbdRefresh (iss : Issuer)
  | sbdBankTWrite (iss : Issuer) (b t : Nat)
  | lossEmaWrite (iss : Issuer) (valid : Bool)
  | segmentSend (c : Nat)
  | redData (seg : Segment) (port : Nat)
  | bucketNotice (h : BucketHdr)
  | exponentPass (h : BucketHdr)
  | bucketDeadline (bucket : Nat)
  | voteContribute
  | voteUp (child : Nat) (m : VoteMsg)
  | voteOutcome (m : VoteMsg)
  | revote (iss : Issuer) (mismatch : Bool)
  | confirm
  | voteTimeout
  | gatherChunk (h : BucketHdr) (data : List Byte) (ue : Bool)
  | linkLanesLocked (l : Nat)
  | linkEqAdapted (l : Nat)
  | linkFrameLocked (l : Nat)
  | identFlit (l : Nat) (id : Ident)
  | linkTrainTimeout (l : Nat)
  | retrainGapExpire (l : Nat)
  | portRetrain (iss : Issuer) (l : Nat)
  | portFence (iss : Issuer) (l : Nat)
  | portLogicError (l : Nat)
  | dataFlit (l : Nat) (raw : List Byte) (fate : FlitFate)
  | tunnelFlit (l : Nat) (raw : List Byte) (fec : Option Nat)
  | nullFlit (l : Nat) (raw : List Byte) (fec : Option Nat)
  | nakFlit (l : Nat) (raw : List Byte) (fec : Option Nat)
  | flitSend (l ch : Nat)
  | ackTimeout (l : Nat)
  | laneLockLost (l ticks : Nat)
  | partnerSilent (l ticks : Nat)
  | lnkCoordWrite (iss : Issuer) (torus : Bool) (v : Word)
  | lnkRouteWrite (iss : Issuer) (axis : Nat) (v : Word)
  | queueOpen (src q : Nat) (port : Nat) (r : OpenReq)
  | queueGrant (src q : Nat)
  | queueReject (src q reason : Nat)
  | queueOpenRetry (dev q : Nat)
  | queueData (src q : Nat) (data : List Byte)
  | queueAbort (src q : Nat)
  | queueStallTimeout (q : Nat)
  | streamBlock (h : StreamHdr) (data : List Byte)
  | streamToken (h : StreamHdr)
  | streamCredit (src tile entry mb count : Nat)
  | linkStatus (d up : Nat)
  | tunnel (d td te hop : Nat) (records : List Byte) (frame : TunnelFrame)
  | arrive (cell tag count req : Nat)
  | wait (cell tag req : Nat)
  | arriveWait (cell tag req : Nat)
  | clear (cell req : Nat)
  | syncRelease (stop cell : Nat)
  | remoteSyncOp (src : Nat) (m : SyncMsg)
  | syncAnswer (src : Nat) (m : SyncMsg)
  | syncWaitTimeout (req : Nat)
  | synCtxClear (iss : Issuer) (x : Nat)
  | synDbgSelWrite (iss : Issuer) (cell : Nat)
  | synDbgFind (iss : Issuer) (ctx vid : Nat)
  | ethFrame (e : Nat) (frame : List Byte) (fcsGood : Bool)
  | arpNd (e : Nat) (frame : List Byte)
  | ethPortUp (e : Nat)
  | ethPortDown (e : Nat)
  | commandCopy (cp : Copy)
  | mirrorWriteDone (ch seq : Nat)
  | mirrorTimeout
  | bctNop (ch : Nat)
  | chOpen (ch : Nat)
  | chClose (ch : Nat)
  | chCloseFinish (c : Nat)
  | run (ch : Nat)
  | bctAbort (ch : Nat)
  | bctLoad (ch : Nat)
  | bctMemRead (ch : Nat)
  | bctMemWrite (ch : Nat)
  | queuePush (ch : Nat)
  | bctSync (ch : Nat)
  | snapshot (ch : Nat)
  | restoreFull (ch : Nat)
  | restoreSpare (ch : Nat)
  | spareFetchDone (slot : List Byte)
  | restoreRejoin (ch : Nat)
  | quote (ch : Nat)
  | authorize (ch : Nat)
  | eventResend (ch : Nat)
  | ch0Open (iss : Issuer)
  | buddyWrite (iss : Issuer) (v : Word)
  | remirrorDone
  | takeoverGo (iss : Issuer)
  | takeoverFetchDone (table log : List Byte) (head tail : Nat)
  | takeoverRestoreDone
  | errorEvent (ev : ErrEvent)
  | latchForward
  | errorRecordRemove
  | rasLogSelWrite (iss : Issuer) (k : Nat)
  | replayVerdict (iss : Issuer) (verdict firstRun : Nat)
  | selftestGo (iss : Issuer)
  | selftestPeriodExpire
  | selftestRun
  | selftestDone (failed : List Nat)
  | cowWrite (granule : Nat) (addr : Nat) (data : List Byte)
  | granuleCopy (ue : Bool)
  | chestDrain
  | fwPush (off : Nat) (data : List Byte)
  | fwStart
  | fwVerifyDone
  | i3cRead (addr len : Nat)
  | i3cWrite (addr : Nat) (data : List Byte)
  | i3cPrivateRead
  | enec (ev : Nat)
  | disec (ev : Nat)
  | entdaa (addr : Nat)
  | rstdaa
  | setnewda (addr : Nat)
  | setmwl (n : Nat)
  | setmrl (n : Nat)
  | getmwl
  | getmrl
  | getpid
  | getbcr
  | getdcr
  | getstatus
  | rstact (action : Nat)
  | fwpushCcc (off : Nat) (data : List Byte)
  | fwstartCcc
  | coldResetRelease (slot : Nat)
  | coldResetAssert
  | warmResetPin (lowNs : Nat)
  | glbResetWarm (iss : Issuer)
  | warmResetQuiesced
  | warmRecoveryDone (failedPorts : List Nat)
  | authGo (iss : Issuer)
  | authPendingExpire
  | quoteGo (iss : Issuer)
  | quoteDone
  | mgtRoleWrite (iss : Issuer) (role : Nat)
  | telemCapture (iss : Issuer)
  | synOpWrite (iss : Issuer) (slot : Nat) (v : Word)
  | bctReservedOpcode (ch : Nat)
  deriving DecidableEq, Repr

end Sys2Proof
end

