-- ==== Sys2Proof/Decode.lean ====
section
/-! DEFINITION. The command that a word spells by the bits of the table of operations and events. -/

namespace Sys2Proof

/-- No row of the table gives bits: commands reach the die as frames, register writes and events, each decoded by the
row that takes it, so no word spells a command. -/
def decodeTableWord (_nbits _w : Nat) : Option Instr := none

end Sys2Proof
end

