-- ==== Sys2Proof/Config.lean ====
section
/-! DEFINITION. What the manual leaves open and what it takes from named standards, as constants without a body. -/

namespace Sys2Proof.Config

/-- The SM3 digest (R66, R437). The manual names the standard and gives no algorithm (log 5). -/
opaque sm3 : List Byte → Vector Byte 32

/-- SM2 verification of a signature (r, s) over a digest by a public key, each 64 bytes (R66; log 5). -/
opaque sm2Verify : List Byte → List Byte → List Byte → Bool

/-- The signature of a digest by IDENTITY_KEY with the nonce drawn for it (R437, R448; log 5). -/
opaque sm2Sign : List Byte → Nat → Vector Byte 64

/-- The SM3 hash of Urpel's root key, fixed in the boot ROM (R438; log 5). -/
opaque rootHash : Vector Byte 32

/-- The n-th free value the model draws (log 1). Nothing can be proved of its value. -/
opaque freeNat : Nat → Nat

/-- A value that the manual leaves open in a result of the fabric, by case and operands: the same in every run (R29; log 1). The
case is an opcode of the vector unit, 0x100 for an element that a prologue leaves unwritten, or 0x200 for a copy onto its
own source. -/
opaque openResult : Nat → List Nat → Nat

/-- Depth in flits of a mesh stop's buffer, which the manual leaves open (R24; log 8). -/
opaque meshDepth : Nat

/-- The mesh stop of the fabric's home cell, which the manual does not place (R77; log 60). -/
opaque homeStop : Nat

/-- The 16 bytes of one parameter in a staging area, by the drained element and the partials that wait (R278; log 30). -/
opaque stageSlot : Nat → List Nat → BitVec 128

/-- The bank that the mapping of Wardrobe port p gives a device byte address, which is the port's own choice (R195; log 66). -/
opaque wrdBank : Nat → Nat → Nat

/-- The RFM threshold in the mode registers of Wardrobe port p's devices, where they require RFM (R192; log 66). -/
opaque rfmThreshold : Nat → Option Nat

/-- The bits that re-encoding finds wrong, by the number of the draw: memory, region and bit of the region (R160; log 65). -/
opaque wrongBits : Nat → List (Bool × Nat × Nat)

/-- The full-rate draw of Bench group g in a window, in 0.25 W units, as the power manager estimates it (R52; log 1). -/
opaque groupDraw : Nat → Nat → Nat

end Sys2Proof.Config
end

