-- ==== Sys2Proof/Machine/RegMap.lean ====
section
/-! DEFINITION. The register map: for every register of the manual its offset from the register base 0x7F00_0000_0000
(R14, Table 00.8), its fields, their access types (Table 00.6) and their reset values, as the chapter that owns the
block lists them. A BEN register is numbered here by the PHYSICAL Bench p that holds it (R16, R125). -/

namespace Sys2Proof.Machine

/-- Access types (Table 00.6). -/
inductive Acc where
  | rw | ro | w1c | w1s | wo | sh | da
  deriving DecidableEq, Repr

/-- One field of a register: bits [hi:lo], access type and reset value. -/
structure FieldSpec where
  hi  : Nat
  lo  : Nat
  acc : Acc
  rst : Nat
  deriving DecidableEq, Repr

/-- One register, or an array of registers: first offset, (count, stride) of each index, fields. -/
structure RegSpec where
  base   : Nat
  dims   : List (Nat × Nat)
  fields : List FieldSpec
  deriving DecidableEq, Repr

/-- A field by its register's offset and its bits. -/
structure Fld where
  off : Nat
  hi  : Nat
  lo  : Nat
  deriving DecidableEq, Repr

/-- PWR_RT_COUNT, offset from the register base (spec/02_timing_and_power.md). -/
def PWR_RT_COUNT.reg : Nat := 0x10000
def PWR_RT_COUNT.COUNT : Fld := ⟨PWR_RT_COUNT.reg, 63, 0⟩
/-- PWR_RT_LOAD, offset from the register base (spec/02_timing_and_power.md). -/
def PWR_RT_LOAD.reg : Nat := 0x10008
def PWR_RT_LOAD.LOAD : Fld := ⟨PWR_RT_LOAD.reg, 63, 0⟩
/-- PWR_RT_CTRL, offset from the register base (spec/02_timing_and_power.md). -/
def PWR_RT_CTRL.reg : Nat := 0x10010
def PWR_RT_CTRL.DOMAIN : Fld := ⟨PWR_RT_CTRL.reg, 31, 16⟩
def PWR_RT_CTRL.CHECK_LOG2 : Fld := ⟨PWR_RT_CTRL.reg, 13, 8⟩
def PWR_RT_CTRL.ARM : Fld := ⟨PWR_RT_CTRL.reg, 0, 0⟩
/-- PWR_RT_STATUS, offset from the register base (spec/02_timing_and_power.md). -/
def PWR_RT_STATUS.reg : Nat := 0x10018
def PWR_RT_STATUS.OFFSET : Fld := ⟨PWR_RT_STATUS.reg, 47, 32⟩
def PWR_RT_STATUS.LOCK : Fld := ⟨PWR_RT_STATUS.reg, 5, 5⟩
def PWR_RT_STATUS.RCLK_LOST : Fld := ⟨PWR_RT_STATUS.reg, 4, 4⟩
def PWR_RT_STATUS.LOAD_REFUSED : Fld := ⟨PWR_RT_STATUS.reg, 3, 3⟩
def PWR_RT_STATUS.DRIFT : Fld := ⟨PWR_RT_STATUS.reg, 2, 2⟩
def PWR_RT_STATUS.HOLDOVER : Fld := ⟨PWR_RT_STATUS.reg, 1, 1⟩
def PWR_RT_STATUS.VALID : Fld := ⟨PWR_RT_STATUS.reg, 0, 0⟩
/-- PWR_RT_CAPTURE, offset from the register base (spec/02_timing_and_power.md). -/
def PWR_RT_CAPTURE.reg : Nat := 0x10020
def PWR_RT_CAPTURE.CAPTURE : Fld := ⟨PWR_RT_CAPTURE.reg, 63, 0⟩
/-- PWR_BEAT_RATE, offset from the register base (spec/02_timing_and_power.md). -/
def PWR_BEAT_RATE.reg : Nat := 0x10028
def PWR_BEAT_RATE.SHELF_BEATS : Fld := ⟨PWR_BEAT_RATE.reg, 63, 32⟩
def PWR_BEAT_RATE.TILE_BEATS : Fld := ⟨PWR_BEAT_RATE.reg, 31, 0⟩
/-- PWR_SENSE, offset from the register base (spec/02_timing_and_power.md). -/
def PWR_SENSE.reg : Nat := 0x10030
def PWR_SENSE.VDD_SHELF_MV : Fld := ⟨PWR_SENSE.reg, 47, 32⟩
def PWR_SENSE.VDD_CORE_MV : Fld := ⟨PWR_SENSE.reg, 31, 16⟩
def PWR_SENSE.TJ_MAX : Fld := ⟨PWR_SENSE.reg, 15, 0⟩
/-- PWR_BUDGET, offset from the register base (spec/02_timing_and_power.md). -/
def PWR_BUDGET.reg : Nat := 0x10038
def PWR_BUDGET.BUDGET : Fld := ⟨PWR_BUDGET.reg, 15, 0⟩
/-- PWR_POWER, offset from the register base (spec/02_timing_and_power.md). -/
def PWR_POWER.reg : Nat := 0x10040
def PWR_POWER.EFFECTIVE : Fld := ⟨PWR_POWER.reg, 47, 32⟩
def PWR_POWER.LENT : Fld := ⟨PWR_POWER.reg, 31, 16⟩
def PWR_POWER.ESTIMATE : Fld := ⟨PWR_POWER.reg, 15, 0⟩
/-- PWR_THERM, offset from the register base (spec/02_timing_and_power.md). -/
def PWR_THERM.reg : Nat := 0x10048
def PWR_THERM.ALERT_T : Fld := ⟨PWR_THERM.reg, 31, 16⟩
def PWR_THERM.THROTTLE_T : Fld := ⟨PWR_THERM.reg, 15, 0⟩
/-- PWR_EVENT, offset from the register base (spec/02_timing_and_power.md). -/
def PWR_EVENT.reg : Nat := 0x10050
def PWR_EVENT.BUDGET_LIMITED : Fld := ⟨PWR_EVENT.reg, 2, 2⟩
def PWR_EVENT.ALERT : Fld := ⟨PWR_EVENT.reg, 1, 1⟩
def PWR_EVENT.THROTTLED : Fld := ⟨PWR_EVENT.reg, 0, 0⟩
/-- PWR_LEND_CTRL, offset from the register base (spec/02_timing_and_power.md). -/
def PWR_LEND_CTRL.reg : Nat := 0x10058
def PWR_LEND_CTRL.WAKE_GAP : Fld := ⟨PWR_LEND_CTRL.reg, 47, 32⟩
def PWR_LEND_CTRL.THRESHOLD : Fld := ⟨PWR_LEND_CTRL.reg, 31, 16⟩
def PWR_LEND_CTRL.LEND_EN : Fld := ⟨PWR_LEND_CTRL.reg, 0, 0⟩
/-- PWR_GROUP_PACE, offset from the register base (spec/02_timing_and_power.md). -/
def PWR_GROUP_PACE.reg (g : Nat) : Nat := 0x10400 + g * 0x8
def PWR_GROUP_PACE.PACE_CEIL (g : Nat) : Fld := ⟨PWR_GROUP_PACE.reg g, 8, 0⟩
/-- PWR_FN_CTRL, offset from the register base (spec/02_timing_and_power.md). -/
def PWR_FN_CTRL.reg (n : Nat) : Nat := 0x10800 + n * 0x8
def PWR_FN_CTRL.CLAIMED (n : Nat) : Fld := ⟨PWR_FN_CTRL.reg n, 11, 11⟩
def PWR_FN_CTRL.PENDING (n : Nat) : Fld := ⟨PWR_FN_CTRL.reg n, 10, 10⟩
def PWR_FN_CTRL.STATUS (n : Nat) : Fld := ⟨PWR_FN_CTRL.reg n, 9, 8⟩
def PWR_FN_CTRL.EN (n : Nat) : Fld := ⟨PWR_FN_CTRL.reg n, 0, 0⟩
/-- FAB_CTRL, offset from the register base (spec/03_fabric_and_drawers.md). -/
def FAB_CTRL.reg : Nat := 0x20000
def FAB_CTRL.ABORT : Fld := ⟨FAB_CTRL.reg, 0, 0⟩
/-- FAB_STATUS, offset from the register base (spec/03_fabric_and_drawers.md). -/
def FAB_STATUS.reg : Nat := 0x20008
def FAB_STATUS.UNFIT_STAGED : Fld := ⟨FAB_STATUS.reg, 12, 12⟩
def FAB_STATUS.UNFIT_RESIDENT : Fld := ⟨FAB_STATUS.reg, 11, 11⟩
def FAB_STATUS.STAGED_VALID : Fld := ⟨FAB_STATUS.reg, 10, 10⟩
def FAB_STATUS.IDLE : Fld := ⟨FAB_STATUS.reg, 9, 9⟩
def FAB_STATUS.BOUNDARY : Fld := ⟨FAB_STATUS.reg, 8, 8⟩
def FAB_STATUS.SWAP_PENDING : Fld := ⟨FAB_STATUS.reg, 7, 7⟩
def FAB_STATUS.SH_PENDING : Fld := ⟨FAB_STATUS.reg, 6, 6⟩
def FAB_STATUS.NEXT_DRAWER : Fld := ⟨FAB_STATUS.reg, 5, 4⟩
def FAB_STATUS.ACTIVE_DRAWER : Fld := ⟨FAB_STATUS.reg, 1, 0⟩
/-- FAB_BOUNDARY_COUNT, offset from the register base (spec/03_fabric_and_drawers.md). -/
def FAB_BOUNDARY_COUNT.reg : Nat := 0x20010
def FAB_BOUNDARY_COUNT.COUNT : Fld := ⟨FAB_BOUNDARY_COUNT.reg, 63, 0⟩
/-- FAB_SWAP_STATS, offset from the register base (spec/03_fabric_and_drawers.md). -/
def FAB_SWAP_STATS.reg : Nat := 0x20018
def FAB_SWAP_STATS.MAX_TICKS : Fld := ⟨FAB_SWAP_STATS.reg, 63, 32⟩
def FAB_SWAP_STATS.LAST_TICKS : Fld := ⟨FAB_SWAP_STATS.reg, 31, 0⟩
/-- FAB_SWAP_COUNT, offset from the register base (spec/03_fabric_and_drawers.md). -/
def FAB_SWAP_COUNT.reg : Nat := 0x20020
def FAB_SWAP_COUNT.COUNT : Fld := ⟨FAB_SWAP_COUNT.reg, 63, 0⟩
/-- FAB_BOUNDARY_TIMEOUT, offset from the register base (spec/03_fabric_and_drawers.md). -/
def FAB_BOUNDARY_TIMEOUT.reg : Nat := 0x20028
def FAB_BOUNDARY_TIMEOUT.TICKS : Fld := ⟨FAB_BOUNDARY_TIMEOUT.reg, 31, 0⟩
/-- FAB_RESIDENT_ID, offset from the register base (spec/03_fabric_and_drawers.md). -/
def FAB_RESIDENT_ID.reg : Nat := 0x20030
def FAB_RESIDENT_ID.IMAGE_ID : Fld := ⟨FAB_RESIDENT_ID.reg, 63, 0⟩
/-- FAB_STAGED_ID, offset from the register base (spec/03_fabric_and_drawers.md). -/
def FAB_STAGED_ID.reg : Nat := 0x20038
def FAB_STAGED_ID.IMAGE_ID : Fld := ⟨FAB_STAGED_ID.reg, 63, 0⟩
/-- FAB_DRAWER, offset from the register base (spec/03_fabric_and_drawers.md). -/
def FAB_DRAWER.reg (d : Nat) : Nat := 0x20040 + d * 0x8
def FAB_DRAWER.KIND (d : Nat) : Fld := ⟨FAB_DRAWER.reg d, 6, 4⟩
def FAB_DRAWER.OWNER (d : Nat) : Fld := ⟨FAB_DRAWER.reg d, 1, 1⟩
def FAB_DRAWER.VALID (d : Nat) : Fld := ⟨FAB_DRAWER.reg d, 0, 0⟩
/-- FAB_LOAD_ADDR, offset from the register base (spec/03_fabric_and_drawers.md). -/
def FAB_LOAD_ADDR.reg : Nat := 0x20060
def FAB_LOAD_ADDR.ADDR : Fld := ⟨FAB_LOAD_ADDR.reg, 47, 0⟩
/-- FAB_LOAD_CTRL, offset from the register base (spec/03_fabric_and_drawers.md). -/
def FAB_LOAD_CTRL.reg : Nat := 0x20068
def FAB_LOAD_CTRL.MODE : Fld := ⟨FAB_LOAD_CTRL.reg, 8, 8⟩
def FAB_LOAD_CTRL.GO : Fld := ⟨FAB_LOAD_CTRL.reg, 0, 0⟩
/-- FAB_LOAD_STATUS, offset from the register base (spec/03_fabric_and_drawers.md). -/
def FAB_LOAD_STATUS.reg : Nat := 0x20070
def FAB_LOAD_STATUS.DETAIL : Fld := ⟨FAB_LOAD_STATUS.reg, 63, 32⟩
def FAB_LOAD_STATUS.REASON : Fld := ⟨FAB_LOAD_STATUS.reg, 15, 8⟩
def FAB_LOAD_STATUS.STATE : Fld := ⟨FAB_LOAD_STATUS.reg, 2, 0⟩
/-- FAB_LOAD_NEED, offset from the register base (spec/03_fabric_and_drawers.md). -/
def FAB_LOAD_NEED.reg : Nat := 0x20078
def FAB_LOAD_NEED.AMOUNT : Fld := ⟨FAB_LOAD_NEED.reg, 63, 0⟩
/-- FAB_LOAD_HAVE, offset from the register base (spec/03_fabric_and_drawers.md). -/
def FAB_LOAD_HAVE.reg : Nat := 0x20080
def FAB_LOAD_HAVE.AMOUNT : Fld := ⟨FAB_LOAD_HAVE.reg, 63, 0⟩
/-- FAB_SHELF_LIMIT, offset from the register base (spec/03_fabric_and_drawers.md). -/
def FAB_SHELF_LIMIT.reg : Nat := 0x20088
def FAB_SHELF_LIMIT.BYTES : Fld := ⟨FAB_SHELF_LIMIT.reg, 63, 0⟩
/-- FAB_WRD_LIMIT, offset from the register base (spec/03_fabric_and_drawers.md). -/
def FAB_WRD_LIMIT.reg : Nat := 0x20090
def FAB_WRD_LIMIT.LIMIT : Fld := ⟨FAB_WRD_LIMIT.reg, 47, 0⟩
/-- FAB_AVAIL_CNT, offset from the register base (spec/03_fabric_and_drawers.md). -/
def FAB_AVAIL_CNT.reg : Nat := 0x20098
def FAB_AVAIL_CNT.CONTEXTS : Fld := ⟨FAB_AVAIL_CNT.reg, 60, 56⟩
def FAB_AVAIL_CNT.RED_CHANNELS : Fld := ⟨FAB_AVAIL_CNT.reg, 52, 48⟩
def FAB_AVAIL_CNT.SYNC_CELLS : Fld := ⟨FAB_AVAIL_CNT.reg, 44, 32⟩
def FAB_AVAIL_CNT.QSTORE_UNITS : Fld := ⟨FAB_AVAIL_CNT.reg, 23, 16⟩
def FAB_AVAIL_CNT.QUEUES : Fld := ⟨FAB_AVAIL_CNT.reg, 6, 0⟩
/-- FAB_AVAIL_LINKS, offset from the register base (spec/03_fabric_and_drawers.md). -/
def FAB_AVAIL_LINKS.reg : Nat := 0x200a0
def FAB_AVAIL_LINKS.IN_SERVICE : Fld := ⟨FAB_AVAIL_LINKS.reg, 47, 0⟩
/-- TMAP_ROW_COL, offset from the register base (spec/03_fabric_and_drawers.md). -/
def TMAP_ROW_COL.reg (ty k : Nat) : Nat := 0x30000 + ty * 0x40 + k * 0x8
def TMAP_ROW_COL.VALID (ty k : Nat) (b : Nat) : Fld := ⟨TMAP_ROW_COL.reg ty k, 8 * b + 7, 8 * b + 7⟩
def TMAP_ROW_COL.COL (ty k : Nat) (b : Nat) : Fld := ⟨TMAP_ROW_COL.reg ty k, 8 * b + 5, 8 * b + 0⟩
/-- TMAP_ROW_STATE, offset from the register base (spec/03_fabric_and_drawers.md). -/
def TMAP_ROW_STATE.reg (ty : Nat) : Nat := 0x30020 + ty * 0x40
def TMAP_ROW_STATE.PENDING (ty : Nat) : Fld := ⟨TMAP_ROW_STATE.reg ty, 48, 48⟩
def TMAP_ROW_STATE.WIDTH (ty : Nat) : Fld := ⟨TMAP_ROW_STATE.reg ty, 45, 40⟩
def TMAP_ROW_STATE.FENCE (ty : Nat) : Fld := ⟨TMAP_ROW_STATE.reg ty, 32, 0⟩
/-- TMAP_FENCE_REQ, offset from the register base (spec/03_fabric_and_drawers.md). -/
def TMAP_FENCE_REQ.reg (ty : Nat) : Nat := 0x30028 + ty * 0x40
def TMAP_FENCE_REQ.REQ (ty : Nat) : Fld := ⟨TMAP_FENCE_REQ.reg ty, 32, 0⟩
/-- TMAP_FENCE_FORCE, offset from the register base (spec/03_fabric_and_drawers.md). -/
def TMAP_FENCE_FORCE.reg (ty : Nat) : Nat := 0x30030 + ty * 0x40
def TMAP_FENCE_FORCE.FORCE (ty : Nat) : Fld := ⟨TMAP_FENCE_FORCE.reg ty, 32, 0⟩
/-- TMAP_EVENT, offset from the register base (spec/03_fabric_and_drawers.md). -/
def TMAP_EVENT.reg : Nat := 0x31000
def TMAP_EVENT.UNFIT : Fld := ⟨TMAP_EVENT.reg, 2, 2⟩
def TMAP_EVENT.LOST_TILE : Fld := ⟨TMAP_EVENT.reg, 1, 1⟩
def TMAP_EVENT.MAP_CHANGED : Fld := ⟨TMAP_EVENT.reg, 0, 0⟩
/-- TMAP_GEN, offset from the register base (spec/03_fabric_and_drawers.md). -/
def TMAP_GEN.reg : Nat := 0x31008
def TMAP_GEN.GEN : Fld := ⟨TMAP_GEN.reg, 63, 0⟩
/-- NUM_CTRL, offset from the register base (spec/04_bench_matrix_and_numerics.md). -/
def NUM_CTRL.reg : Nat := 0x40000
def NUM_CTRL.RESIDUE_EN : Fld := ⟨NUM_CTRL.reg, 0, 0⟩
/-- NUM_CG_SEED, offset from the register base (spec/04_bench_matrix_and_numerics.md). -/
def NUM_CG_SEED.reg : Nat := 0x40008
def NUM_CG_SEED.SEED : Fld := ⟨NUM_CG_SEED.reg, 63, 0⟩
/-- NUM_CG_TEST_KEY, offset from the register base (spec/04_bench_matrix_and_numerics.md). -/
def NUM_CG_TEST_KEY.reg (h : Nat) : Nat := 0x40010 + h * 0x8
def NUM_CG_TEST_KEY.KEY_HI (h : Nat) : Fld := ⟨NUM_CG_TEST_KEY.reg h, 63, 32⟩
def NUM_CG_TEST_KEY.KEY_LO (h : Nat) : Fld := ⟨NUM_CG_TEST_KEY.reg h, 31, 0⟩
/-- NUM_CG_TEST_CTR, offset from the register base (spec/04_bench_matrix_and_numerics.md). -/
def NUM_CG_TEST_CTR.reg (h : Nat) : Nat := 0x40020 + h * 0x8
def NUM_CG_TEST_CTR.CTR_HI (h : Nat) : Fld := ⟨NUM_CG_TEST_CTR.reg h, 63, 32⟩
def NUM_CG_TEST_CTR.CTR_LO (h : Nat) : Fld := ⟨NUM_CG_TEST_CTR.reg h, 31, 0⟩
/-- NUM_CG_TEST_GO, offset from the register base (spec/04_bench_matrix_and_numerics.md). -/
def NUM_CG_TEST_GO.reg : Nat := 0x40030
def NUM_CG_TEST_GO.GO : Fld := ⟨NUM_CG_TEST_GO.reg, 0, 0⟩
/-- NUM_CG_TEST_OUT, offset from the register base (spec/04_bench_matrix_and_numerics.md). -/
def NUM_CG_TEST_OUT.reg (h : Nat) : Nat := 0x40038 + h * 0x8
def NUM_CG_TEST_OUT.OUT_HI (h : Nat) : Fld := ⟨NUM_CG_TEST_OUT.reg h, 63, 32⟩
def NUM_CG_TEST_OUT.OUT_LO (h : Nat) : Fld := ⟨NUM_CG_TEST_OUT.reg h, 31, 0⟩
/-- NUM_STATUS, offset from the register base (spec/04_bench_matrix_and_numerics.md). -/
def NUM_STATUS.reg : Nat := 0x40048
def NUM_STATUS.STEP : Fld := ⟨NUM_STATUS.reg, 63, 32⟩
def NUM_STATUS.ANOMALY : Fld := ⟨NUM_STATUS.reg, 8, 8⟩
def NUM_STATUS.RESIDUE : Fld := ⟨NUM_STATUS.reg, 6, 6⟩
def NUM_STATUS.UFL : Fld := ⟨NUM_STATUS.reg, 5, 5⟩
def NUM_STATUS.NAN_PROP : Fld := ⟨NUM_STATUS.reg, 4, 4⟩
def NUM_STATUS.NAN_GEN : Fld := ⟨NUM_STATUS.reg, 3, 3⟩
def NUM_STATUS.OVF_STORE : Fld := ⟨NUM_STATUS.reg, 2, 2⟩
def NUM_STATUS.OVF_WORK : Fld := ⟨NUM_STATUS.reg, 1, 1⟩
def NUM_STATUS.OVF_ACC : Fld := ⟨NUM_STATUS.reg, 0, 0⟩
/-- NUM_STATUS_PREV, offset from the register base (spec/04_bench_matrix_and_numerics.md). -/
def NUM_STATUS_PREV.reg : Nat := 0x40050
def NUM_STATUS_PREV.STEP : Fld := ⟨NUM_STATUS_PREV.reg, 63, 32⟩
def NUM_STATUS_PREV.ANOMALY : Fld := ⟨NUM_STATUS_PREV.reg, 8, 8⟩
def NUM_STATUS_PREV.RESIDUE : Fld := ⟨NUM_STATUS_PREV.reg, 6, 6⟩
def NUM_STATUS_PREV.UFL : Fld := ⟨NUM_STATUS_PREV.reg, 5, 5⟩
def NUM_STATUS_PREV.NAN_PROP : Fld := ⟨NUM_STATUS_PREV.reg, 4, 4⟩
def NUM_STATUS_PREV.NAN_GEN : Fld := ⟨NUM_STATUS_PREV.reg, 3, 3⟩
def NUM_STATUS_PREV.OVF_STORE : Fld := ⟨NUM_STATUS_PREV.reg, 2, 2⟩
def NUM_STATUS_PREV.OVF_WORK : Fld := ⟨NUM_STATUS_PREV.reg, 1, 1⟩
def NUM_STATUS_PREV.OVF_ACC : Fld := ⟨NUM_STATUS_PREV.reg, 0, 0⟩
/-- NUM_STATUS_GEN, offset from the register base (spec/04_bench_matrix_and_numerics.md). -/
def NUM_STATUS_GEN.reg : Nat := 0x40058
def NUM_STATUS_GEN.STEP : Fld := ⟨NUM_STATUS_GEN.reg, 63, 32⟩
def NUM_STATUS_GEN.ANOMALY : Fld := ⟨NUM_STATUS_GEN.reg, 8, 8⟩
def NUM_STATUS_GEN.RESIDUE : Fld := ⟨NUM_STATUS_GEN.reg, 6, 6⟩
def NUM_STATUS_GEN.UFL : Fld := ⟨NUM_STATUS_GEN.reg, 5, 5⟩
def NUM_STATUS_GEN.NAN_PROP : Fld := ⟨NUM_STATUS_GEN.reg, 4, 4⟩
def NUM_STATUS_GEN.NAN_GEN : Fld := ⟨NUM_STATUS_GEN.reg, 3, 3⟩
def NUM_STATUS_GEN.OVF_STORE : Fld := ⟨NUM_STATUS_GEN.reg, 2, 2⟩
def NUM_STATUS_GEN.OVF_WORK : Fld := ⟨NUM_STATUS_GEN.reg, 1, 1⟩
def NUM_STATUS_GEN.OVF_ACC : Fld := ⟨NUM_STATUS_GEN.reg, 0, 0⟩
/-- NUM_ANOMALY_MASK, offset from the register base (spec/04_bench_matrix_and_numerics.md). -/
def NUM_ANOMALY_MASK.reg : Nat := 0x40060
def NUM_ANOMALY_MASK.MASK : Fld := ⟨NUM_ANOMALY_MASK.reg, 5, 0⟩
/-- NUM_RES_TOTAL, offset from the register base (spec/04_bench_matrix_and_numerics.md). -/
def NUM_RES_TOTAL.reg : Nat := 0x40068
def NUM_RES_TOTAL.COUNT : Fld := ⟨NUM_RES_TOTAL.reg, 47, 0⟩
/-- BEN_MAT_STATUS, offset from the register base (spec/04_bench_matrix_and_numerics.md). -/
def BEN_MAT_STATUS.reg (p : Nat) : Nat := 0x1000000 + p * 0x1000 + 0x0
def BEN_MAT_STATUS.BANK_B (p : Nat) : Fld := ⟨BEN_MAT_STATUS.reg p, 11, 10⟩
def BEN_MAT_STATUS.BANK_A (p : Nat) : Fld := ⟨BEN_MAT_STATUS.reg p, 9, 8⟩
def BEN_MAT_STATUS.BUSY (p : Nat) : Fld := ⟨BEN_MAT_STATUS.reg p, 0, 0⟩
/-- BEN_MAT_BEATS, offset from the register base (spec/04_bench_matrix_and_numerics.md). -/
def BEN_MAT_BEATS.reg (p : Nat) : Nat := 0x1000000 + p * 0x1000 + 0x8
def BEN_MAT_BEATS.BEATS (p : Nat) : Fld := ⟨BEN_MAT_BEATS.reg p, 47, 0⟩
/-- BEN_NUM_OVF, offset from the register base (spec/04_bench_matrix_and_numerics.md). -/
def BEN_NUM_OVF.reg (p : Nat) : Nat := 0x1000000 + p * 0x1000 + 0x20
def BEN_NUM_OVF.COUNT (p : Nat) : Fld := ⟨BEN_NUM_OVF.reg p, 47, 0⟩
/-- BEN_NUM_NAN_GEN, offset from the register base (spec/04_bench_matrix_and_numerics.md). -/
def BEN_NUM_NAN_GEN.reg (p : Nat) : Nat := 0x1000000 + p * 0x1000 + 0x28
def BEN_NUM_NAN_GEN.COUNT (p : Nat) : Fld := ⟨BEN_NUM_NAN_GEN.reg p, 47, 0⟩
/-- BEN_NUM_NAN_PROP, offset from the register base (spec/04_bench_matrix_and_numerics.md). -/
def BEN_NUM_NAN_PROP.reg (p : Nat) : Nat := 0x1000000 + p * 0x1000 + 0x30
def BEN_NUM_NAN_PROP.COUNT (p : Nat) : Fld := ⟨BEN_NUM_NAN_PROP.reg p, 47, 0⟩
/-- BEN_NUM_UFL, offset from the register base (spec/04_bench_matrix_and_numerics.md). -/
def BEN_NUM_UFL.reg (p : Nat) : Nat := 0x1000000 + p * 0x1000 + 0x38
def BEN_NUM_UFL.COUNT (p : Nat) : Fld := ⟨BEN_NUM_UFL.reg p, 47, 0⟩
/-- BEN_NUM_STICKY, offset from the register base (spec/04_bench_matrix_and_numerics.md). -/
def BEN_NUM_STICKY.reg (p : Nat) : Nat := 0x1000000 + p * 0x1000 + 0x40
def BEN_NUM_STICKY.FLAGS (p : Nat) : Fld := ⟨BEN_NUM_STICKY.reg p, 6, 0⟩
/-- BEN_NUM_CTRL, offset from the register base (spec/04_bench_matrix_and_numerics.md). -/
def BEN_NUM_CTRL.reg (p : Nat) : Nat := 0x1000000 + p * 0x1000 + 0x48
def BEN_NUM_CTRL.CLEAR (p : Nat) : Fld := ⟨BEN_NUM_CTRL.reg p, 0, 0⟩
/-- BEN_RES_COUNT, offset from the register base (spec/04_bench_matrix_and_numerics.md). -/
def BEN_RES_COUNT.reg (p : Nat) : Nat := 0x1000000 + p * 0x1000 + 0x50
def BEN_RES_COUNT.COUNT (p : Nat) : Fld := ⟨BEN_RES_COUNT.reg p, 47, 0⟩
/-- BEN_RES_LAST, offset from the register base (spec/04_bench_matrix_and_numerics.md). -/
def BEN_RES_LAST.reg (p : Nat) : Nat := 0x1000000 + p * 0x1000 + 0x58
def BEN_RES_LAST.STAMP (p : Nat) : Fld := ⟨BEN_RES_LAST.reg p, 63, 0⟩
/-- BEN_VEC_STATUS, offset from the register base (spec/05_prologue_epilogue_fusion.md). -/
def BEN_VEC_STATUS.reg (p : Nat) : Nat := 0x1000000 + p * 0x1000 + 0x100
def BEN_VEC_STATUS.ADDR_FAULT (p : Nat) : Fld := ⟨BEN_VEC_STATUS.reg p, 20, 20⟩
def BEN_VEC_STATUS.KIND (p : Nat) : Fld := ⟨BEN_VEC_STATUS.reg p, 17, 16⟩
def BEN_VEC_STATUS.ROW (p : Nat) : Fld := ⟨BEN_VEC_STATUS.reg p, 15, 10⟩
def BEN_VEC_STATUS.PC (p : Nat) : Fld := ⟨BEN_VEC_STATUS.reg p, 9, 0⟩
/-- BEN_VEC_BEATS, offset from the register base (spec/05_prologue_epilogue_fusion.md). -/
def BEN_VEC_BEATS.reg (p : Nat) : Nat := 0x1000000 + p * 0x1000 + 0x108
def BEN_VEC_BEATS.BEATS (p : Nat) : Fld := ⟨BEN_VEC_BEATS.reg p, 47, 0⟩
/-- BEN_VEC_FAULT, offset from the register base (spec/05_prologue_epilogue_fusion.md). -/
def BEN_VEC_FAULT.reg (p : Nat) : Nat := 0x1000000 + p * 0x1000 + 0x110
def BEN_VEC_FAULT.SPACE (p : Nat) : Fld := ⟨BEN_VEC_FAULT.reg p, 63, 62⟩
def BEN_VEC_FAULT.PC (p : Nat) : Fld := ⟨BEN_VEC_FAULT.reg p, 57, 48⟩
def BEN_VEC_FAULT.ADDRESS (p : Nat) : Fld := ⟨BEN_VEC_FAULT.reg p, 47, 0⟩
/-- MEM_CTRL, offset from the register base (spec/06_scratchpad_and_shelf.md). -/
def MEM_CTRL.reg : Nat := 0x50000
def MEM_CTRL.SCRUB_PERIOD : Fld := ⟨MEM_CTRL.reg, 31, 16⟩
def MEM_CTRL.SCRUB_EN : Fld := ⟨MEM_CTRL.reg, 0, 0⟩
/-- MEM_ERR_SCRATCH, offset from the register base (spec/06_scratchpad_and_shelf.md). -/
def MEM_ERR_SCRATCH.reg : Nat := 0x50008
def MEM_ERR_SCRATCH.UE : Fld := ⟨MEM_ERR_SCRATCH.reg, 63, 32⟩
def MEM_ERR_SCRATCH.CE : Fld := ⟨MEM_ERR_SCRATCH.reg, 31, 0⟩
/-- MEM_ERR_SHELF, offset from the register base (spec/06_scratchpad_and_shelf.md). -/
def MEM_ERR_SHELF.reg : Nat := 0x50010
def MEM_ERR_SHELF.UE : Fld := ⟨MEM_ERR_SHELF.reg, 63, 32⟩
def MEM_ERR_SHELF.CE : Fld := ⟨MEM_ERR_SHELF.reg, 31, 0⟩
/-- MEM_EVENT, offset from the register base (spec/06_scratchpad_and_shelf.md). -/
def MEM_EVENT.reg : Nat := 0x50018
def MEM_EVENT.CLASS_APPLIED : Fld := ⟨MEM_EVENT.reg, 2, 2⟩
def MEM_EVENT.SCRUB_UE : Fld := ⟨MEM_EVENT.reg, 1, 1⟩
def MEM_EVENT.SLICE_MOVED : Fld := ⟨MEM_EVENT.reg, 0, 0⟩
/-- MEM_SHELF_WCLASS, offset from the register base (spec/06_scratchpad_and_shelf.md). -/
def MEM_SHELF_WCLASS.reg (m : Nat) : Nat := 0x50100 + m * 0x8
def MEM_SHELF_WCLASS.EN (m : Nat) : Fld := ⟨MEM_SHELF_WCLASS.reg m, 63, 63⟩
def MEM_SHELF_WCLASS.PAGES (m : Nat) : Fld := ⟨MEM_SHELF_WCLASS.reg m, 52, 32⟩
def MEM_SHELF_WCLASS.BASE_PAGE (m : Nat) : Fld := ⟨MEM_SHELF_WCLASS.reg m, 20, 0⟩
/-- MEM_SLICE_HOST, offset from the register base (spec/06_scratchpad_and_shelf.md). -/
def MEM_SLICE_HOST.reg (k : Nat) : Nat := 0x52000 + k * 0x8
def MEM_SLICE_HOST.VALID (k : Nat) : Fld := ⟨MEM_SLICE_HOST.reg k, 15, 15⟩
def MEM_SLICE_HOST.ROW (k : Nat) : Fld := ⟨MEM_SLICE_HOST.reg k, 12, 8⟩
def MEM_SLICE_HOST.COL (k : Nat) : Fld := ⟨MEM_SLICE_HOST.reg k, 5, 0⟩
/-- BEN_MEM_CLASS, offset from the register base (spec/06_scratchpad_and_shelf.md). -/
def BEN_MEM_CLASS.reg (p k : Nat) : Nat := 0x1000000 + p * 0x1000 + 0x200 + k * 0x8
def BEN_MEM_CLASS.WEIGHT (p k : Nat) : Fld := ⟨BEN_MEM_CLASS.reg p k, 63, 0⟩
/-- BEN_SP_CE, offset from the register base (spec/06_scratchpad_and_shelf.md). -/
def BEN_SP_CE.reg (p : Nat) : Nat := 0x1000000 + p * 0x1000 + 0x218
def BEN_SP_CE.COUNT (p : Nat) : Fld := ⟨BEN_SP_CE.reg p, 47, 0⟩
/-- BEN_SP_CE2, offset from the register base (spec/06_scratchpad_and_shelf.md). -/
def BEN_SP_CE2.reg (p : Nat) : Nat := 0x1000000 + p * 0x1000 + 0x220
def BEN_SP_CE2.COUNT (p : Nat) : Fld := ⟨BEN_SP_CE2.reg p, 47, 0⟩
/-- BEN_SP_UE, offset from the register base (spec/06_scratchpad_and_shelf.md). -/
def BEN_SP_UE.reg (p : Nat) : Nat := 0x1000000 + p * 0x1000 + 0x228
def BEN_SP_UE.COUNT (p : Nat) : Fld := ⟨BEN_SP_UE.reg p, 47, 0⟩
/-- BEN_SH_CE, offset from the register base (spec/06_scratchpad_and_shelf.md). -/
def BEN_SH_CE.reg (p : Nat) : Nat := 0x1000000 + p * 0x1000 + 0x230
def BEN_SH_CE.COUNT (p : Nat) : Fld := ⟨BEN_SH_CE.reg p, 47, 0⟩
/-- BEN_SH_CE2, offset from the register base (spec/06_scratchpad_and_shelf.md). -/
def BEN_SH_CE2.reg (p : Nat) : Nat := 0x1000000 + p * 0x1000 + 0x238
def BEN_SH_CE2.COUNT (p : Nat) : Fld := ⟨BEN_SH_CE2.reg p, 47, 0⟩
/-- BEN_SH_UE, offset from the register base (spec/06_scratchpad_and_shelf.md). -/
def BEN_SH_UE.reg (p : Nat) : Nat := 0x1000000 + p * 0x1000 + 0x240
def BEN_SH_UE.COUNT (p : Nat) : Fld := ⟨BEN_SH_UE.reg p, 47, 0⟩
/-- BEN_MEM_ERR_LAST, offset from the register base (spec/06_scratchpad_and_shelf.md). -/
def BEN_MEM_ERR_LAST.reg (p : Nat) : Nat := 0x1000000 + p * 0x1000 + 0x248
def BEN_MEM_ERR_LAST.SHELF (p : Nat) : Fld := ⟨BEN_MEM_ERR_LAST.reg p, 63, 63⟩
def BEN_MEM_ERR_LAST.UE (p : Nat) : Fld := ⟨BEN_MEM_ERR_LAST.reg p, 62, 62⟩
def BEN_MEM_ERR_LAST.ADDRESS (p : Nat) : Fld := ⟨BEN_MEM_ERR_LAST.reg p, 47, 0⟩
/-- BEN_SB_STATUS, offset from the register base (spec/06_scratchpad_and_shelf.md). -/
def BEN_SB_STATUS.reg (p : Nat) : Nat := 0x1000000 + p * 0x1000 + 0x250
def BEN_SB_STATUS.STALLS (p : Nat) : Fld := ⟨BEN_SB_STATUS.reg p, 47, 0⟩
/-- BEN_DMA_STATUS, offset from the register base (spec/06_scratchpad_and_shelf.md). -/
def BEN_DMA_STATUS.reg (p : Nat) : Nat := 0x1000000 + p * 0x1000 + 0x258
def BEN_DMA_STATUS.LAST_NACK (p : Nat) : Fld := ⟨BEN_DMA_STATUS.reg p, 22, 20⟩
def BEN_DMA_STATUS.CREDIT_LOST (p : Nat) : Fld := ⟨BEN_DMA_STATUS.reg p, 17, 17⟩
def BEN_DMA_STATUS.NACK (p : Nat) : Fld := ⟨BEN_DMA_STATUS.reg p, 16, 16⟩
def BEN_DMA_STATUS.DESC (p : Nat) : Fld := ⟨BEN_DMA_STATUS.reg p, 13, 8⟩
def BEN_DMA_STATUS.STATE (p : Nat) : Fld := ⟨BEN_DMA_STATUS.reg p, 1, 0⟩
/-- BEN_WIN_CLOSE, offset from the register base (spec/06_scratchpad_and_shelf.md). -/
def BEN_WIN_CLOSE.reg (p : Nat) : Nat := 0x1000000 + p * 0x1000 + 0x260
def BEN_WIN_CLOSE.CLOSE (p : Nat) : Fld := ⟨BEN_WIN_CLOSE.reg p, 7, 0⟩
/-- BEN_WIN_RANGE, offset from the register base (spec/06_scratchpad_and_shelf.md). -/
def BEN_WIN_RANGE.reg (p w : Nat) : Nat := 0x1000000 + p * 0x1000 + 0x300 + w * 0x10
def BEN_WIN_RANGE.BYTES (p w : Nat) : Fld := ⟨BEN_WIN_RANGE.reg p w, 51, 32⟩
def BEN_WIN_RANGE.OFFSET (p w : Nat) : Fld := ⟨BEN_WIN_RANGE.reg p w, 19, 0⟩
/-- BEN_WIN_STATE, offset from the register base (spec/06_scratchpad_and_shelf.md). -/
def BEN_WIN_STATE.reg (p w : Nat) : Nat := 0x1000000 + p * 0x1000 + 0x308 + w * 0x10
def BEN_WIN_STATE.EPOCH (p w : Nat) : Fld := ⟨BEN_WIN_STATE.reg p w, 63, 32⟩
def BEN_WIN_STATE.OPEN (p w : Nat) : Fld := ⟨BEN_WIN_STATE.reg p w, 0, 0⟩
/-- BEN_CREDIT_KEY, offset from the register base (spec/06_scratchpad_and_shelf.md). -/
def BEN_CREDIT_KEY.reg (p c : Nat) : Nat := 0x1000000 + p * 0x1000 + 0x380 + c * 0x10
def BEN_CREDIT_KEY.VALID (p c : Nat) : Fld := ⟨BEN_CREDIT_KEY.reg p c, 63, 63⟩
def BEN_CREDIT_KEY.DIE (p c : Nat) : Fld := ⟨BEN_CREDIT_KEY.reg p c, 19, 16⟩
def BEN_CREDIT_KEY.WINDOW (p c : Nat) : Fld := ⟨BEN_CREDIT_KEY.reg p c, 15, 13⟩
def BEN_CREDIT_KEY.TILE (p c : Nat) : Fld := ⟨BEN_CREDIT_KEY.reg p c, 9, 0⟩
/-- BEN_CREDIT_STATE, offset from the register base (spec/06_scratchpad_and_shelf.md). -/
def BEN_CREDIT_STATE.reg (p c : Nat) : Nat := 0x1000000 + p * 0x1000 + 0x388 + c * 0x10
def BEN_CREDIT_STATE.EPOCH (p c : Nat) : Fld := ⟨BEN_CREDIT_STATE.reg p c, 63, 32⟩
def BEN_CREDIT_STATE.BYTES (p c : Nat) : Fld := ⟨BEN_CREDIT_STATE.reg p c, 20, 0⟩
/-- WRD_CTRL, offset from the register base (spec/07_wardrobe_and_address_space.md). -/
def WRD_CTRL.reg : Nat := 0x60000
def WRD_CTRL.SCRUB_PERIOD : Fld := ⟨WRD_CTRL.reg, 63, 32⟩
def WRD_CTRL.SCRUB_EN : Fld := ⟨WRD_CTRL.reg, 8, 8⟩
def WRD_CTRL.RATE : Fld := ⟨WRD_CTRL.reg, 2, 0⟩
/-- WRD_STATUS, offset from the register base (spec/07_wardrobe_and_address_space.md). -/
def WRD_STATUS.reg : Nat := 0x60008
def WRD_STATUS.IN_SERVICE : Fld := ⟨WRD_STATUS.reg, 32, 32⟩
def WRD_STATUS.READY : Fld := ⟨WRD_STATUS.reg, 31, 0⟩
/-- WRD_EVENT, offset from the register base (spec/07_wardrobe_and_address_space.md). -/
def WRD_EVENT.reg : Nat := 0x60010
def WRD_EVENT.TEMP_LIMIT : Fld := ⟨WRD_EVENT.reg, 4, 4⟩
def WRD_EVENT.REMOTE_TIMEOUT : Fld := ⟨WRD_EVENT.reg, 3, 3⟩
def WRD_EVENT.REMOTE_ERROR : Fld := ⟨WRD_EVENT.reg, 2, 2⟩
def WRD_EVENT.SCRUB_UE : Fld := ⟨WRD_EVENT.reg, 1, 1⟩
def WRD_EVENT.TRAIN_FAIL : Fld := ⟨WRD_EVENT.reg, 0, 0⟩
/-- WRD_BOARD, offset from the register base (spec/07_wardrobe_and_address_space.md). -/
def WRD_BOARD.reg : Nat := 0x60018
def WRD_BOARD.VALID : Fld := ⟨WRD_BOARD.reg, 4, 4⟩
def WRD_BOARD.DIE : Fld := ⟨WRD_BOARD.reg, 3, 0⟩
/-- WRD_REMOTE_TIMEOUT, offset from the register base (spec/07_wardrobe_and_address_space.md). -/
def WRD_REMOTE_TIMEOUT.reg : Nat := 0x60020
def WRD_REMOTE_TIMEOUT.TICKS : Fld := ⟨WRD_REMOTE_TIMEOUT.reg, 31, 0⟩
/-- WRD_ERR_TOTAL, offset from the register base (spec/07_wardrobe_and_address_space.md). -/
def WRD_ERR_TOTAL.reg : Nat := 0x60028
def WRD_ERR_TOTAL.UE : Fld := ⟨WRD_ERR_TOTAL.reg, 63, 32⟩
def WRD_ERR_TOTAL.CE : Fld := ⟨WRD_ERR_TOTAL.reg, 31, 0⟩
/-- WRD_DIE_COORD, offset from the register base (spec/07_wardrobe_and_address_space.md). -/
def WRD_DIE_COORD.reg (d : Nat) : Nat := 0x60100 + d * 0x8
def WRD_DIE_COORD.VALID (d : Nat) : Fld := ⟨WRD_DIE_COORD.reg d, 63, 63⟩
def WRD_DIE_COORD.Z (d : Nat) : Fld := ⟨WRD_DIE_COORD.reg d, 14, 10⟩
def WRD_DIE_COORD.Y (d : Nat) : Fld := ⟨WRD_DIE_COORD.reg d, 9, 5⟩
def WRD_DIE_COORD.X (d : Nat) : Fld := ⟨WRD_DIE_COORD.reg d, 4, 0⟩
/-- WRD_PORT_STATUS, offset from the register base (spec/07_wardrobe_and_address_space.md). -/
def WRD_PORT_STATUS.reg (p : Nat) : Nat := 0x60200 + p * 0x8
def WRD_PORT_STATUS.FAIL_STEP (p : Nat) : Fld := ⟨WRD_PORT_STATUS.reg p, 47, 40⟩
def WRD_PORT_STATUS.TRIES (p : Nat) : Fld := ⟨WRD_PORT_STATUS.reg p, 35, 32⟩
def WRD_PORT_STATUS.RATE (p : Nat) : Fld := ⟨WRD_PORT_STATUS.reg p, 10, 8⟩
def WRD_PORT_STATUS.STATE (p : Nat) : Fld := ⟨WRD_PORT_STATUS.reg p, 2, 0⟩
/-- WRD_PORT_ERR, offset from the register base (spec/07_wardrobe_and_address_space.md). -/
def WRD_PORT_ERR.reg (p : Nat) : Nat := 0x60400 + p * 0x8
def WRD_PORT_ERR.LINK_RETRY (p : Nat) : Fld := ⟨WRD_PORT_ERR.reg p, 63, 48⟩
def WRD_PORT_ERR.LINK_CE (p : Nat) : Fld := ⟨WRD_PORT_ERR.reg p, 47, 32⟩
def WRD_PORT_ERR.UE (p : Nat) : Fld := ⟨WRD_PORT_ERR.reg p, 31, 16⟩
def WRD_PORT_ERR.CE (p : Nat) : Fld := ⟨WRD_PORT_ERR.reg p, 15, 0⟩
/-- WRD_PORT_ERR_LAST, offset from the register base (spec/07_wardrobe_and_address_space.md). -/
def WRD_PORT_ERR_LAST.reg (p : Nat) : Nat := 0x60600 + p * 0x8
def WRD_PORT_ERR_LAST.UE (p : Nat) : Fld := ⟨WRD_PORT_ERR_LAST.reg p, 63, 63⟩
def WRD_PORT_ERR_LAST.SCRUB (p : Nat) : Fld := ⟨WRD_PORT_ERR_LAST.reg p, 62, 62⟩
def WRD_PORT_ERR_LAST.ADDRESS (p : Nat) : Fld := ⟨WRD_PORT_ERR_LAST.reg p, 47, 0⟩
/-- WRD_PORT_REFRESH, offset from the register base (spec/07_wardrobe_and_address_space.md). -/
def WRD_PORT_REFRESH.reg (p : Nat) : Nat := 0x60800 + p * 0x8
def WRD_PORT_REFRESH.RFM_COUNT (p : Nat) : Fld := ⟨WRD_PORT_REFRESH.reg p, 63, 32⟩
def WRD_PORT_REFRESH.MR4_RATE (p : Nat) : Fld := ⟨WRD_PORT_REFRESH.reg p, 4, 0⟩
/-- QUE_FLUSH, offset from the register base (spec/08_stage_queues.md). -/
def QUE_FLUSH.reg : Nat := 0x70000
def QUE_FLUSH.REQ : Fld := ⟨QUE_FLUSH.reg, 63, 0⟩
/-- QUE_EVENT, offset from the register base (spec/08_stage_queues.md). -/
def QUE_EVENT.reg : Nat := 0x70008
def QUE_EVENT.HEAD_MISMATCH : Fld := ⟨QUE_EVENT.reg, 3, 3⟩
def QUE_EVENT.REJECTED : Fld := ⟨QUE_EVENT.reg, 2, 2⟩
def QUE_EVENT.UE : Fld := ⟨QUE_EVENT.reg, 1, 1⟩
def QUE_EVENT.CFG_REFUSED : Fld := ⟨QUE_EVENT.reg, 0, 0⟩
/-- QUE_ERR_TOTAL, offset from the register base (spec/08_stage_queues.md). -/
def QUE_ERR_TOTAL.reg : Nat := 0x70010
def QUE_ERR_TOTAL.UE : Fld := ⟨QUE_ERR_TOTAL.reg, 63, 32⟩
def QUE_ERR_TOTAL.CE : Fld := ⟨QUE_ERR_TOTAL.reg, 31, 0⟩
/-- QUE_UNIT_MAP, offset from the register base (spec/08_stage_queues.md). -/
def QUE_UNIT_MAP.reg (h : Nat) : Nat := 0x70020 + h * 0x8
def QUE_UNIT_MAP.USED (h : Nat) : Fld := ⟨QUE_UNIT_MAP.reg h, 63, 0⟩
/-- QUE_Q_CFG, offset from the register base (spec/08_stage_queues.md). -/
def QUE_Q_CFG.reg (q : Nat) : Nat := 0x71000 + q * 0x40
def QUE_Q_CFG.EN (q : Nat) : Fld := ⟨QUE_Q_CFG.reg q, 63, 63⟩
def QUE_Q_CFG.SOURCE (q : Nat) : Fld := ⟨QUE_Q_CFG.reg q, 57, 56⟩
def QUE_Q_CFG.UNITS (q : Nat) : Fld := ⟨QUE_Q_CFG.reg q, 15, 8⟩
def QUE_Q_CFG.BASE_UNIT (q : Nat) : Fld := ⟨QUE_Q_CFG.reg q, 6, 0⟩
/-- QUE_Q_RING, offset from the register base (spec/08_stage_queues.md). -/
def QUE_Q_RING.reg (q : Nat) : Nat := 0x71008 + q * 0x40
def QUE_Q_RING.UNITS (q : Nat) : Fld := ⟨QUE_Q_RING.reg q, 63, 48⟩
def QUE_Q_RING.BASE (q : Nat) : Fld := ⟨QUE_Q_RING.reg q, 47, 16⟩
/-- QUE_Q_PTR, offset from the register base (spec/08_stage_queues.md). -/
def QUE_Q_PTR.reg (q : Nat) : Nat := 0x71010 + q * 0x40
def QUE_Q_PTR.WR (q : Nat) : Fld := ⟨QUE_Q_PTR.reg q, 49, 32⟩
def QUE_Q_PTR.RD (q : Nat) : Fld := ⟨QUE_Q_PTR.reg q, 17, 0⟩
/-- QUE_Q_PTR2, offset from the register base (spec/08_stage_queues.md). -/
def QUE_Q_PTR2.reg (q : Nat) : Nat := 0x71018 + q * 0x40
def QUE_Q_PTR2.OP (q : Nat) : Fld := ⟨QUE_Q_PTR2.reg q, 49, 32⟩
def QUE_Q_PTR2.DL (q : Nat) : Fld := ⟨QUE_Q_PTR2.reg q, 17, 0⟩
/-- QUE_Q_RING_PTR, offset from the register base (spec/08_stage_queues.md). -/
def QUE_Q_RING_PTR.reg (q : Nat) : Nat := 0x71020 + q * 0x40
def QUE_Q_RING_PTR.RING_WR (q : Nat) : Fld := ⟨QUE_Q_RING_PTR.reg q, 58, 32⟩
def QUE_Q_RING_PTR.RING_RD (q : Nat) : Fld := ⟨QUE_Q_RING_PTR.reg q, 26, 0⟩
/-- QUE_Q_STATUS, offset from the register base (spec/08_stage_queues.md). -/
def QUE_Q_STATUS.reg (q : Nat) : Nat := 0x71028 + q * 0x40
def QUE_Q_STATUS.RING_PACKETS (q : Nat) : Fld := ⟨QUE_Q_STATUS.reg q, 58, 32⟩
def QUE_Q_STATUS.ON_DIE_PACKETS (q : Nat) : Fld := ⟨QUE_Q_STATUS.reg q, 31, 14⟩
def QUE_Q_STATUS.CONSUMERS (q : Nat) : Fld := ⟨QUE_Q_STATUS.reg q, 13, 8⟩
def QUE_Q_STATUS.FLUSH_PENDING (q : Nat) : Fld := ⟨QUE_Q_STATUS.reg q, 6, 6⟩
def QUE_Q_STATUS.HEAD_MISMATCH (q : Nat) : Fld := ⟨QUE_Q_STATUS.reg q, 5, 5⟩
def QUE_Q_STATUS.SPILL (q : Nat) : Fld := ⟨QUE_Q_STATUS.reg q, 4, 4⟩
def QUE_Q_STATUS.OPEN_RING (q : Nat) : Fld := ⟨QUE_Q_STATUS.reg q, 3, 3⟩
def QUE_Q_STATUS.OPEN (q : Nat) : Fld := ⟨QUE_Q_STATUS.reg q, 2, 2⟩
def QUE_Q_STATUS.PRODUCER_WAIT (q : Nat) : Fld := ⟨QUE_Q_STATUS.reg q, 1, 1⟩
def QUE_Q_STATUS.CONSUMER_WAIT (q : Nat) : Fld := ⟨QUE_Q_STATUS.reg q, 0, 0⟩
/-- QUE_Q_SEQ, offset from the register base (spec/08_stage_queues.md). -/
def QUE_Q_SEQ.reg (q : Nat) : Nat := 0x71030 + q * 0x40
def QUE_Q_SEQ.NEXT_DELIVER (q : Nat) : Fld := ⟨QUE_Q_SEQ.reg q, 63, 32⟩
def QUE_Q_SEQ.NEXT_COMMIT (q : Nat) : Fld := ⟨QUE_Q_SEQ.reg q, 31, 0⟩
/-- QUE_Q_ERR, offset from the register base (spec/08_stage_queues.md). -/
def QUE_Q_ERR.reg (q : Nat) : Nat := 0x71038 + q * 0x40
def QUE_Q_ERR.REWOUND (q : Nat) : Fld := ⟨QUE_Q_ERR.reg q, 63, 48⟩
def QUE_Q_ERR.REJECTED (q : Nat) : Fld := ⟨QUE_Q_ERR.reg q, 47, 32⟩
def QUE_Q_ERR.UE (q : Nat) : Fld := ⟨QUE_Q_ERR.reg q, 31, 16⟩
def QUE_Q_ERR.CE (q : Nat) : Fld := ⟨QUE_Q_ERR.reg q, 15, 0⟩
/-- BEN_QUE_LAST, offset from the register base (spec/08_stage_queues.md). -/
def BEN_QUE_LAST.reg (p : Nat) : Nat := 0x1000000 + p * 0x1000 + 0x400
def BEN_QUE_LAST.SEQ (p : Nat) : Fld := ⟨BEN_QUE_LAST.reg p, 63, 32⟩
def BEN_QUE_LAST.BINDING (p : Nat) : Fld := ⟨BEN_QUE_LAST.reg p, 21, 16⟩
def BEN_QUE_LAST.SPILLED (p : Nat) : Fld := ⟨BEN_QUE_LAST.reg p, 12, 12⟩
def BEN_QUE_LAST.END (p : Nat) : Fld := ⟨BEN_QUE_LAST.reg p, 11, 11⟩
def BEN_QUE_LAST.WORDS (p : Nat) : Fld := ⟨BEN_QUE_LAST.reg p, 10, 0⟩
/-- BEN_QUE_DISCARD, offset from the register base (spec/08_stage_queues.md). -/
def BEN_QUE_DISCARD.reg (p : Nat) : Nat := 0x1000000 + p * 0x1000 + 0x408
def BEN_QUE_DISCARD.OVERRUN (p : Nat) : Fld := ⟨BEN_QUE_DISCARD.reg p, 32, 32⟩
def BEN_QUE_DISCARD.WORDS (p : Nat) : Fld := ⟨BEN_QUE_DISCARD.reg p, 31, 0⟩
/-- SBD_CTRL, offset from the register base (spec/09_training_passes.md). -/
def SBD_CTRL.reg : Nat := 0x80000
def SBD_CTRL.ROLLBACK : Fld := ⟨SBD_CTRL.reg, 9, 9⟩
def SBD_CTRL.REFRESH : Fld := ⟨SBD_CTRL.reg, 8, 8⟩
def SBD_CTRL.SAT : Fld := ⟨SBD_CTRL.reg, 0, 0⟩
/-- SBD_STATUS, offset from the register base (spec/09_training_passes.md). -/
def SBD_STATUS.reg : Nat := 0x80008
def SBD_STATUS.STEP : Fld := ⟨SBD_STATUS.reg, 63, 32⟩
def SBD_STATUS.STATE : Fld := ⟨SBD_STATUS.reg, 2, 0⟩
/-- SBD_EVENT, offset from the register base (spec/09_training_passes.md). -/
def SBD_EVENT.reg : Nat := 0x80010
def SBD_EVENT.REFUSED : Fld := ⟨SBD_EVENT.reg, 7, 7⟩
def SBD_EVENT.UPDATE_FAILED : Fld := ⟨SBD_EVENT.reg, 6, 6⟩
def SBD_EVENT.CONFIG_ERR : Fld := ⟨SBD_EVENT.reg, 5, 5⟩
def SBD_EVENT.NONFINITE_OUT : Fld := ⟨SBD_EVENT.reg, 4, 4⟩
def SBD_EVENT.NORM_OVERFLOW : Fld := ⟨SBD_EVENT.reg, 3, 3⟩
def SBD_EVENT.GRAD_HIGH : Fld := ⟨SBD_EVENT.reg, 2, 2⟩
def SBD_EVENT.LOSS_SPIKE : Fld := ⟨SBD_EVENT.reg, 1, 1⟩
def SBD_EVENT.SKIPPED : Fld := ⟨SBD_EVENT.reg, 0, 0⟩
/-- SBD_BANK, offset from the register base (spec/09_training_passes.md). -/
def SBD_BANK.reg : Nat := 0x80018
def SBD_BANK.ROLLED : Fld := ⟨SBD_BANK.reg, 1, 1⟩
def SBD_BANK.ACTIVE : Fld := ⟨SBD_BANK.reg, 0, 0⟩
/-- SBD_BANK_T, offset from the register base (spec/09_training_passes.md). -/
def SBD_BANK_T.reg (b : Nat) : Nat := 0x80020 + b * 0x8
def SBD_BANK_T.T (b : Nat) : Fld := ⟨SBD_BANK_T.reg b, 31, 0⟩
/-- SBD_WBANK, offset from the register base (spec/09_training_passes.md). -/
def SBD_WBANK.reg (b : Nat) : Nat := 0x80030 + b * 0x8
def SBD_WBANK.ADDR (b : Nat) : Fld := ⟨SBD_WBANK.reg b, 47, 0⟩
/-- SBD_MBANK, offset from the register base (spec/09_training_passes.md). -/
def SBD_MBANK.reg (b : Nat) : Nat := 0x80040 + b * 0x8
def SBD_MBANK.ADDR (b : Nat) : Fld := ⟨SBD_MBANK.reg b, 47, 0⟩
/-- SBD_VBANK, offset from the register base (spec/09_training_passes.md). -/
def SBD_VBANK.reg (b : Nat) : Nat := 0x80050 + b * 0x8
def SBD_VBANK.ADDR (b : Nat) : Fld := ⟨SBD_VBANK.reg b, 47, 0⟩
/-- SBD_GRAD_BASE, offset from the register base (spec/09_training_passes.md). -/
def SBD_GRAD_BASE.reg : Nat := 0x80060
def SBD_GRAD_BASE.ADDR : Fld := ⟨SBD_GRAD_BASE.reg, 47, 0⟩
/-- SBD_PARAMS, offset from the register base (spec/09_training_passes.md). -/
def SBD_PARAMS.reg : Nat := 0x80068
def SBD_PARAMS.VALUE : Fld := ⟨SBD_PARAMS.reg, 39, 0⟩
/-- SBD_SHARD_FIRST, offset from the register base (spec/09_training_passes.md). -/
def SBD_SHARD_FIRST.reg : Nat := 0x80070
def SBD_SHARD_FIRST.VALUE : Fld := ⟨SBD_SHARD_FIRST.reg, 39, 0⟩
/-- SBD_SHARD_COUNT, offset from the register base (spec/09_training_passes.md). -/
def SBD_SHARD_COUNT.reg : Nat := 0x80078
def SBD_SHARD_COUNT.VALUE : Fld := ⟨SBD_SHARD_COUNT.reg, 39, 0⟩
/-- SBD_RNG_ID, offset from the register base (spec/09_training_passes.md). -/
def SBD_RNG_ID.reg : Nat := 0x80080
def SBD_RNG_ID.ID : Fld := ⟨SBD_RNG_ID.reg, 31, 0⟩
/-- SBD_CLIP, offset from the register base (spec/09_training_passes.md). -/
def SBD_CLIP.reg : Nat := 0x80088
def SBD_CLIP.EN : Fld := ⟨SBD_CLIP.reg, 63, 63⟩
def SBD_CLIP.NORM_CHANNEL : Fld := ⟨SBD_CLIP.reg, 35, 32⟩
def SBD_CLIP.MAX_NORM : Fld := ⟨SBD_CLIP.reg, 31, 0⟩
/-- SBD_NORM, offset from the register base (spec/09_training_passes.md). -/
def SBD_NORM.reg : Nat := 0x80090
def SBD_NORM.CLIP : Fld := ⟨SBD_NORM.reg, 63, 32⟩
def SBD_NORM.NORM : Fld := ⟨SBD_NORM.reg, 31, 0⟩
/-- SBD_REFRESH, offset from the register base (spec/09_training_passes.md). -/
def SBD_REFRESH.reg : Nat := 0x80098
def SBD_REFRESH.ENTRIES : Fld := ⟨SBD_REFRESH.reg, 59, 48⟩
def SBD_REFRESH.ADDR : Fld := ⟨SBD_REFRESH.reg, 47, 0⟩
/-- SBD_LOSS_WIN, offset from the register base (spec/09_training_passes.md). -/
def SBD_LOSS_WIN.reg : Nat := 0x800a0
def SBD_LOSS_WIN.EN : Fld := ⟨SBD_LOSS_WIN.reg, 63, 63⟩
def SBD_LOSS_WIN.COUNT : Fld := ⟨SBD_LOSS_WIN.reg, 58, 48⟩
def SBD_LOSS_WIN.TILE : Fld := ⟨SBD_LOSS_WIN.reg, 41, 32⟩
def SBD_LOSS_WIN.OFFSET : Fld := ⟨SBD_LOSS_WIN.reg, 19, 0⟩
/-- SBD_LOSS, offset from the register base (spec/09_training_passes.md). -/
def SBD_LOSS.reg : Nat := 0x800a8
def SBD_LOSS.STEP : Fld := ⟨SBD_LOSS.reg, 63, 32⟩
def SBD_LOSS.SUM : Fld := ⟨SBD_LOSS.reg, 31, 0⟩
/-- SBD_LOSS_PREV, offset from the register base (spec/09_training_passes.md). -/
def SBD_LOSS_PREV.reg : Nat := 0x800b8
def SBD_LOSS_PREV.STEP : Fld := ⟨SBD_LOSS_PREV.reg, 63, 32⟩
def SBD_LOSS_PREV.SUM : Fld := ⟨SBD_LOSS_PREV.reg, 31, 0⟩
/-- SBD_LOSS_COUNT, offset from the register base (spec/09_training_passes.md). -/
def SBD_LOSS_COUNT.reg : Nat := 0x800b0
def SBD_LOSS_COUNT.VALUES : Fld := ⟨SBD_LOSS_COUNT.reg, 31, 0⟩
/-- SBD_LOSS_EMA, offset from the register base (spec/09_training_passes.md). -/
def SBD_LOSS_EMA.reg : Nat := 0x800c0
def SBD_LOSS_EMA.VALID : Fld := ⟨SBD_LOSS_EMA.reg, 32, 32⟩
def SBD_LOSS_EMA.EMA : Fld := ⟨SBD_LOSS_EMA.reg, 31, 0⟩
/-- SBD_LOSS_LIMIT, offset from the register base (spec/09_training_passes.md). -/
def SBD_LOSS_LIMIT.reg : Nat := 0x800c8
def SBD_LOSS_LIMIT.RATIO : Fld := ⟨SBD_LOSS_LIMIT.reg, 63, 32⟩
def SBD_LOSS_LIMIT.LIMIT : Fld := ⟨SBD_LOSS_LIMIT.reg, 31, 0⟩
/-- SBD_LOSS_CTRL, offset from the register base (spec/09_training_passes.md). -/
def SBD_LOSS_CTRL.reg : Nat := 0x800d0
def SBD_LOSS_CTRL.HIST_SKIP : Fld := ⟨SBD_LOSS_CTRL.reg, 33, 33⟩
def SBD_LOSS_CTRL.SPIKE_SKIP : Fld := ⟨SBD_LOSS_CTRL.reg, 32, 32⟩
def SBD_LOSS_CTRL.ALPHA : Fld := ⟨SBD_LOSS_CTRL.reg, 31, 0⟩
/-- SBD_HIST_LIMIT, offset from the register base (spec/09_training_passes.md). -/
def SBD_HIST_LIMIT.reg : Nat := 0x800d8
def SBD_HIST_LIMIT.FROM_BIN : Fld := ⟨SBD_HIST_LIMIT.reg, 36, 32⟩
def SBD_HIST_LIMIT.LIMIT : Fld := ⟨SBD_HIST_LIMIT.reg, 31, 0⟩
/-- SBD_UPDATE_STATS, offset from the register base (spec/09_training_passes.md). -/
def SBD_UPDATE_STATS.reg : Nat := 0x800e0
def SBD_UPDATE_STATS.COMMITS : Fld := ⟨SBD_UPDATE_STATS.reg, 63, 32⟩
def SBD_UPDATE_STATS.SKIPS : Fld := ⟨SBD_UPDATE_STATS.reg, 31, 16⟩
def SBD_UPDATE_STATS.NONFINITE_LAST : Fld := ⟨SBD_UPDATE_STATS.reg, 15, 0⟩
/-- SBD_SEG, offset from the register base (spec/09_training_passes.md). -/
def SBD_SEG.reg (s : Nat) : Nat := 0x80200 + s * 0x8
def SBD_SEG.VALID (s : Nat) : Fld := ⟨SBD_SEG.reg s, 63, 63⟩
def SBD_SEG.HSET (s : Nat) : Fld := ⟨SBD_SEG.reg s, 57, 56⟩
def SBD_SEG.START (s : Nat) : Fld := ⟨SBD_SEG.reg s, 39, 0⟩
/-- SBD_HSET_CTRL, offset from the register base (spec/09_training_passes.md). -/
def SBD_HSET_CTRL.reg (h : Nat) : Nat := 0x80400 + h * 0x20
def SBD_HSET_CTRL.OPT (h : Nat) : Fld := ⟨SBD_HSET_CTRL.reg h, 2, 0⟩
/-- SBD_HSET_LR, offset from the register base (spec/09_training_passes.md). -/
def SBD_HSET_LR.reg (h : Nat) : Nat := 0x80408 + h * 0x20
def SBD_HSET_LR.WD (h : Nat) : Fld := ⟨SBD_HSET_LR.reg h, 63, 32⟩
def SBD_HSET_LR.LR (h : Nat) : Fld := ⟨SBD_HSET_LR.reg h, 31, 0⟩
/-- SBD_HSET_BETA, offset from the register base (spec/09_training_passes.md). -/
def SBD_HSET_BETA.reg (h : Nat) : Nat := 0x80410 + h * 0x20
def SBD_HSET_BETA.BETA2 (h : Nat) : Fld := ⟨SBD_HSET_BETA.reg h, 63, 32⟩
def SBD_HSET_BETA.BETA1 (h : Nat) : Fld := ⟨SBD_HSET_BETA.reg h, 31, 0⟩
/-- SBD_HSET_EPS, offset from the register base (spec/09_training_passes.md). -/
def SBD_HSET_EPS.reg (h : Nat) : Nat := 0x80418 + h * 0x20
def SBD_HSET_EPS.GSCALE (h : Nat) : Fld := ⟨SBD_HSET_EPS.reg h, 63, 32⟩
def SBD_HSET_EPS.EPS (h : Nat) : Fld := ⟨SBD_HSET_EPS.reg h, 31, 0⟩
/-- SBD_GRAD_HIST, offset from the register base (spec/09_training_passes.md). -/
def SBD_GRAD_HIST.reg (k : Nat) : Nat := 0x80600 + k * 0x8
def SBD_GRAD_HIST.ODD (k : Nat) : Fld := ⟨SBD_GRAD_HIST.reg k, 63, 32⟩
def SBD_GRAD_HIST.EVEN (k : Nat) : Fld := ⟨SBD_GRAD_HIST.reg k, 31, 0⟩
/-- RED_GROUP, offset from the register base (spec/10_gradient_reduction.md). -/
def RED_GROUP.reg : Nat := 0x90000
def RED_GROUP.MODE : Fld := ⟨RED_GROUP.reg, 63, 62⟩
def RED_GROUP.PER_BOARD : Fld := ⟨RED_GROUP.reg, 52, 48⟩
def RED_GROUP.SIZE : Fld := ⟨RED_GROUP.reg, 44, 32⟩
def RED_GROUP.RANK : Fld := ⟨RED_GROUP.reg, 11, 0⟩
/-- RED_RING, offset from the register base (spec/10_gradient_reduction.md). -/
def RED_RING.reg : Nat := 0x90008
def RED_RING.PREV : Fld := ⟨RED_RING.reg, 46, 32⟩
def RED_RING.NEXT : Fld := ⟨RED_RING.reg, 14, 0⟩
/-- RED_BOARD_RING, offset from the register base (spec/10_gradient_reduction.md). -/
def RED_BOARD_RING.reg : Nat := 0x90010
def RED_BOARD_RING.PREV : Fld := ⟨RED_BOARD_RING.reg, 46, 32⟩
def RED_BOARD_RING.NEXT : Fld := ⟨RED_BOARD_RING.reg, 14, 0⟩
/-- RED_BOARD_PEER, offset from the register base (spec/10_gradient_reduction.md). -/
def RED_BOARD_PEER.reg : Nat := 0x90018
def RED_BOARD_PEER.DIE (b : Nat) : Fld := ⟨RED_BOARD_PEER.reg, 4 * b + 3, 4 * b + 0⟩
/-- RED_JOB, offset from the register base (spec/10_gradient_reduction.md). -/
def RED_JOB.reg : Nat := 0x90020
def RED_JOB.NZ : Fld := ⟨RED_JOB.reg, 53, 48⟩
def RED_JOB.NY : Fld := ⟨RED_JOB.reg, 45, 40⟩
def RED_JOB.NX : Fld := ⟨RED_JOB.reg, 37, 32⟩
def RED_JOB.ORIGIN : Fld := ⟨RED_JOB.reg, 14, 0⟩
/-- RED_BUCKET_TABLE, offset from the register base (spec/10_gradient_reduction.md). -/
def RED_BUCKET_TABLE.reg : Nat := 0x90028
def RED_BUCKET_TABLE.ENTRIES : Fld := ⟨RED_BUCKET_TABLE.reg, 60, 48⟩
def RED_BUCKET_TABLE.ADDR : Fld := ⟨RED_BUCKET_TABLE.reg, 47, 0⟩
/-- RED_STATUS, offset from the register base (spec/10_gradient_reduction.md). -/
def RED_STATUS.reg : Nat := 0x90030
def RED_STATUS.STEP : Fld := ⟨RED_STATUS.reg, 63, 32⟩
def RED_STATUS.ATTEMPT : Fld := ⟨RED_STATUS.reg, 31, 16⟩
def RED_STATUS.CONFIG_OK : Fld := ⟨RED_STATUS.reg, 8, 8⟩
def RED_STATUS.ACTIVE : Fld := ⟨RED_STATUS.reg, 0, 0⟩
/-- RED_EVENT, offset from the register base (spec/10_gradient_reduction.md). -/
def RED_EVENT.reg : Nat := 0x90038
def RED_EVENT.DRAIN_ERR : Fld := ⟨RED_EVENT.reg, 10, 10⟩
def RED_EVENT.SEQUENCE : Fld := ⟨RED_EVENT.reg, 9, 9⟩
def RED_EVENT.VOTE_TIMEOUT : Fld := ⟨RED_EVENT.reg, 8, 8⟩
def RED_EVENT.GATHER_BAD : Fld := ⟨RED_EVENT.reg, 7, 7⟩
def RED_EVENT.ADDER_LOST : Fld := ⟨RED_EVENT.reg, 6, 6⟩
def RED_EVENT.LATE : Fld := ⟨RED_EVENT.reg, 5, 5⟩
def RED_EVENT.NONFINITE : Fld := ⟨RED_EVENT.reg, 4, 4⟩
def RED_EVENT.WINDOW : Fld := ⟨RED_EVENT.reg, 3, 3⟩
def RED_EVENT.CHECKSUM : Fld := ⟨RED_EVENT.reg, 2, 2⟩
def RED_EVENT.INCOMPLETE : Fld := ⟨RED_EVENT.reg, 1, 1⟩
def RED_EVENT.CONFIG_ERR : Fld := ⟨RED_EVENT.reg, 0, 0⟩
/-- RED_VOTE_CTRL, offset from the register base (spec/10_gradient_reduction.md). -/
def RED_VOTE_CTRL.reg : Nat := 0x90040
def RED_VOTE_CTRL.TIMEOUT : Fld := ⟨RED_VOTE_CTRL.reg, 63, 32⟩
def RED_VOTE_CTRL.MISMATCH : Fld := ⟨RED_VOTE_CTRL.reg, 1, 1⟩
def RED_VOTE_CTRL.REVOTE : Fld := ⟨RED_VOTE_CTRL.reg, 0, 0⟩
/-- RED_VOTE_STATUS, offset from the register base (spec/10_gradient_reduction.md). -/
def RED_VOTE_STATUS.reg : Nat := 0x90048
def RED_VOTE_STATUS.STEP : Fld := ⟨RED_VOTE_STATUS.reg, 63, 32⟩
def RED_VOTE_STATUS.ATTEMPT : Fld := ⟨RED_VOTE_STATUS.reg, 31, 16⟩
def RED_VOTE_STATUS.ROUND : Fld := ⟨RED_VOTE_STATUS.reg, 15, 8⟩
def RED_VOTE_STATUS.OUTCOME : Fld := ⟨RED_VOTE_STATUS.reg, 7, 5⟩
def RED_VOTE_STATUS.STATE : Fld := ⟨RED_VOTE_STATUS.reg, 4, 3⟩
/-- RED_TOTALS, offset from the register base (spec/10_gradient_reduction.md). -/
def RED_TOTALS.reg : Nat := 0x90050
def RED_TOTALS.TRUNC : Fld := ⟨RED_TOTALS.reg, 63, 32⟩
def RED_TOTALS.NONFINITE : Fld := ⟨RED_TOTALS.reg, 31, 0⟩
/-- RED_VOTE_FLAGS, offset from the register base (spec/10_gradient_reduction.md). -/
def RED_VOTE_FLAGS.reg : Nat := 0x90058
def RED_VOTE_FLAGS.GLOBAL : Fld := ⟨RED_VOTE_FLAGS.reg, 12, 8⟩
def RED_VOTE_FLAGS.LOCAL : Fld := ⟨RED_VOTE_FLAGS.reg, 4, 0⟩
/-- RED_NORM_SUM, offset from the register base (spec/10_gradient_reduction.md). -/
def RED_NORM_SUM.reg (k : Nat) : Nat := 0x90080 + k * 0x8
def RED_NORM_SUM.WORD (k : Nat) : Fld := ⟨RED_NORM_SUM.reg k, 63, 0⟩
/-- RED_CH_STATUS, offset from the register base (spec/10_gradient_reduction.md). -/
def RED_CH_STATUS.reg (c : Nat) : Nat := 0x90100 + c * 0x8
def RED_CH_STATUS.HEAD (c : Nat) : Fld := ⟨RED_CH_STATUS.reg c, 60, 48⟩
def RED_CH_STATUS.HELD (c : Nat) : Fld := ⟨RED_CH_STATUS.reg c, 44, 32⟩
def RED_CH_STATUS.STATE (c : Nat) : Fld := ⟨RED_CH_STATUS.reg c, 1, 0⟩
/-- RED_CH_STATS, offset from the register base (spec/10_gradient_reduction.md). -/
def RED_CH_STATS.reg (c : Nat) : Nat := 0x90180 + c * 0x8
def RED_CH_STATS.INCOMPLETE (c : Nat) : Fld := ⟨RED_CH_STATS.reg c, 63, 48⟩
def RED_CH_STATS.SUSPECT (c : Nat) : Fld := ⟨RED_CH_STATS.reg c, 47, 40⟩
def RED_CH_STATS.LATE (c : Nat) : Fld := ⟨RED_CH_STATS.reg c, 39, 32⟩
def RED_CH_STATS.CLOSED (c : Nat) : Fld := ⟨RED_CH_STATS.reg c, 31, 0⟩
/-- LNK_COORD, offset from the register base (spec/11_links_and_torus.md). -/
def LNK_COORD.reg : Nat := 0xa0000
def LNK_COORD.VALID : Fld := ⟨LNK_COORD.reg, 16, 16⟩
def LNK_COORD.Z : Fld := ⟨LNK_COORD.reg, 14, 10⟩
def LNK_COORD.Y : Fld := ⟨LNK_COORD.reg, 9, 5⟩
def LNK_COORD.X : Fld := ⟨LNK_COORD.reg, 4, 0⟩
/-- LNK_TORUS, offset from the register base (spec/11_links_and_torus.md). -/
def LNK_TORUS.reg : Nat := 0xa0008
def LNK_TORUS.DZ : Fld := ⟨LNK_TORUS.reg, 17, 12⟩
def LNK_TORUS.DY : Fld := ⟨LNK_TORUS.reg, 11, 6⟩
def LNK_TORUS.DX : Fld := ⟨LNK_TORUS.reg, 5, 0⟩
/-- LNK_PKG, offset from the register base (spec/11_links_and_torus.md). -/
def LNK_PKG.reg : Nat := 0xa0010
def LNK_PKG.QUAD : Fld := ⟨LNK_PKG.reg, 2, 2⟩
def LNK_PKG.PY : Fld := ⟨LNK_PKG.reg, 1, 1⟩
def LNK_PKG.PX : Fld := ⟨LNK_PKG.reg, 0, 0⟩
/-- LNK_EVENT, offset from the register base (spec/11_links_and_torus.md). -/
def LNK_EVENT.reg : Nat := 0xa0018
def LNK_EVENT.UNROUTABLE : Fld := ⟨LNK_EVENT.reg, 9, 9⟩
def LNK_EVENT.STREAM_MISMATCH : Fld := ⟨LNK_EVENT.reg, 8, 8⟩
def LNK_EVENT.QUEUE_STALL : Fld := ⟨LNK_EVENT.reg, 7, 7⟩
def LNK_EVENT.QUEUE_REJECTED : Fld := ⟨LNK_EVENT.reg, 6, 6⟩
def LNK_EVENT.NO_TUNNEL : Fld := ⟨LNK_EVENT.reg, 5, 5⟩
def LNK_EVENT.TUNNEL : Fld := ⟨LNK_EVENT.reg, 4, 4⟩
def LNK_EVENT.PARTNER_CHANGED : Fld := ⟨LNK_EVENT.reg, 3, 3⟩
def LNK_EVENT.MISMATCH : Fld := ⟨LNK_EVENT.reg, 2, 2⟩
def LNK_EVENT.TRAIN_FAIL : Fld := ⟨LNK_EVENT.reg, 1, 1⟩
def LNK_EVENT.LINK_DOWN : Fld := ⟨LNK_EVENT.reg, 0, 0⟩
/-- LNK_RETRY_CTRL, offset from the register base (spec/11_links_and_torus.md). -/
def LNK_RETRY_CTRL.reg : Nat := 0xa0020
def LNK_RETRY_CTRL.RETRAIN_GAP : Fld := ⟨LNK_RETRY_CTRL.reg, 63, 32⟩
def LNK_RETRY_CTRL.ACK_TIMEOUT : Fld := ⟨LNK_RETRY_CTRL.reg, 31, 8⟩
def LNK_RETRY_CTRL.LIMIT : Fld := ⟨LNK_RETRY_CTRL.reg, 7, 0⟩
/-- LNK_STALL, offset from the register base (spec/11_links_and_torus.md). -/
def LNK_STALL.reg : Nat := 0xa0028
def LNK_STALL.TICKS : Fld := ⟨LNK_STALL.reg, 31, 0⟩
/-- LNK_ROUTE, offset from the register base (spec/11_links_and_torus.md). -/
def LNK_ROUTE.reg (a : Nat) : Nat := 0xa0040 + a * 0x8
def LNK_ROUTE.DIR (a : Nat) (b : Nat) : Fld := ⟨LNK_ROUTE.reg a, 2 * b + 1, 2 * b + 0⟩
/-- LNK_BUNDLE_CFG, offset from the register base (spec/11_links_and_torus.md). -/
def LNK_BUNDLE_CFG.reg (d : Nat) : Nat := 0xa0100 + d * 0x8
def LNK_BUNDLE_CFG.CLASS (d : Nat) : Fld := ⟨LNK_BUNDLE_CFG.reg d, 1, 0⟩
/-- LNK_BUNDLE_STATUS, offset from the register base (spec/11_links_and_torus.md). -/
def LNK_BUNDLE_STATUS.reg (d : Nat) : Nat := 0xa0140 + d * 0x8
def LNK_BUNDLE_STATUS.PARTNER (d : Nat) : Fld := ⟨LNK_BUNDLE_STATUS.reg d, 46, 32⟩
def LNK_BUNDLE_STATUS.TUNNEL_SIDE (d : Nat) : Fld := ⟨LNK_BUNDLE_STATUS.reg d, 26, 24⟩
def LNK_BUNDLE_STATUS.TUNNEL (d : Nat) : Fld := ⟨LNK_BUNDLE_STATUS.reg d, 17, 16⟩
def LNK_BUNDLE_STATUS.UP (d : Nat) : Fld := ⟨LNK_BUNDLE_STATUS.reg d, 7, 0⟩
/-- LNK_PARTNER_SERIAL, offset from the register base (spec/11_links_and_torus.md). -/
def LNK_PARTNER_SERIAL.reg (d : Nat) : Nat := 0xa0180 + d * 0x8
def LNK_PARTNER_SERIAL.SERIAL (d : Nat) : Fld := ⟨LNK_PARTNER_SERIAL.reg d, 63, 0⟩
/-- LNK_PORT_STATUS, offset from the register base (spec/11_links_and_torus.md). -/
def LNK_PORT_STATUS.reg (l : Nat) : Nat := 0xa0400 + l * 0x8
def LNK_PORT_STATUS.TRIES (l : Nat) : Fld := ⟨LNK_PORT_STATUS.reg l, 11, 8⟩
def LNK_PORT_STATUS.STATE (l : Nat) : Fld := ⟨LNK_PORT_STATUS.reg l, 3, 0⟩
/-- LNK_PORT_ERR, offset from the register base (spec/11_links_and_torus.md). -/
def LNK_PORT_ERR.reg (l : Nat) : Nat := 0xa0600 + l * 0x8
def LNK_PORT_ERR.DOWNS (l : Nat) : Fld := ⟨LNK_PORT_ERR.reg l, 63, 48⟩
def LNK_PORT_ERR.REPLAYS (l : Nat) : Fld := ⟨LNK_PORT_ERR.reg l, 47, 32⟩
def LNK_PORT_ERR.DUPLICATES (l : Nat) : Fld := ⟨LNK_PORT_ERR.reg l, 31, 16⟩
def LNK_PORT_ERR.CRC (l : Nat) : Fld := ⟨LNK_PORT_ERR.reg l, 15, 0⟩
/-- LNK_PORT_FEC, offset from the register base (spec/11_links_and_torus.md). -/
def LNK_PORT_FEC.reg (l : Nat) : Nat := 0xa0800 + l * 0x8
def LNK_PORT_FEC.UNCORRECTABLE (l : Nat) : Fld := ⟨LNK_PORT_FEC.reg l, 63, 48⟩
def LNK_PORT_FEC.CORRECTED (l : Nat) : Fld := ⟨LNK_PORT_FEC.reg l, 47, 0⟩
/-- LNK_PORT_CTRL, offset from the register base (spec/11_links_and_torus.md). -/
def LNK_PORT_CTRL.reg (l : Nat) : Nat := 0xa0a00 + l * 0x8
def LNK_PORT_CTRL.FENCE (l : Nat) : Fld := ⟨LNK_PORT_CTRL.reg l, 1, 1⟩
def LNK_PORT_CTRL.RETRAIN (l : Nat) : Fld := ⟨LNK_PORT_CTRL.reg l, 0, 0⟩
/-- SYN_TIMEOUT, offset from the register base (spec/12_synchronisation.md). -/
def SYN_TIMEOUT.reg : Nat := 0xb0000
def SYN_TIMEOUT.TICKS : Fld := ⟨SYN_TIMEOUT.reg, 31, 0⟩
/-- SYN_EVENT, offset from the register base (spec/12_synchronisation.md). -/
def SYN_EVENT.reg : Nat := 0xb0008
def SYN_EVENT.REFUSED : Fld := ⟨SYN_EVENT.reg, 5, 5⟩
def SYN_EVENT.OP_FULL : Fld := ⟨SYN_EVENT.reg, 4, 4⟩
def SYN_EVENT.UNKNOWN : Fld := ⟨SYN_EVENT.reg, 3, 3⟩
def SYN_EVENT.GEN_ERROR : Fld := ⟨SYN_EVENT.reg, 2, 2⟩
def SYN_EVENT.UNDERFLOW : Fld := ⟨SYN_EVENT.reg, 1, 1⟩
def SYN_EVENT.TIMEOUT : Fld := ⟨SYN_EVENT.reg, 0, 0⟩
/-- SYN_ERR_COUNT, offset from the register base (spec/12_synchronisation.md). -/
def SYN_ERR_COUNT.reg : Nat := 0xb0010
def SYN_ERR_COUNT.TIMEOUTS : Fld := ⟨SYN_ERR_COUNT.reg, 63, 48⟩
def SYN_ERR_COUNT.GEN_ERRORS : Fld := ⟨SYN_ERR_COUNT.reg, 47, 32⟩
def SYN_ERR_COUNT.UNDERFLOWS : Fld := ⟨SYN_ERR_COUNT.reg, 31, 16⟩
def SYN_ERR_COUNT.UNKNOWN : Fld := ⟨SYN_ERR_COUNT.reg, 15, 0⟩
/-- SYN_IMAGE_CTX, offset from the register base (spec/12_synchronisation.md). -/
def SYN_IMAGE_CTX.reg (i : Nat) : Nat := 0xb0018 + i * 0x8
def SYN_IMAGE_CTX.CTX (i : Nat) (b : Nat) : Fld := ⟨SYN_IMAGE_CTX.reg i, 4 * b + 3, 4 * b + 0⟩
/-- SYN_OP, offset from the register base (spec/12_synchronisation.md). -/
def SYN_OP.reg (s : Nat) : Nat := 0xb0040 + s * 0x10
def SYN_OP.VID (s : Nat) : Fld := ⟨SYN_OP.reg s, 63, 48⟩
def SYN_OP.DIE (s : Nat) : Fld := ⟨SYN_OP.reg s, 43, 40⟩
def SYN_OP.CTX (s : Nat) : Fld := ⟨SYN_OP.reg s, 39, 36⟩
def SYN_OP.REMOTE (s : Nat) : Fld := ⟨SYN_OP.reg s, 35, 35⟩
def SYN_OP.PHYS (s : Nat) : Fld := ⟨SYN_OP.reg s, 34, 34⟩
def SYN_OP.TAG (s : Nat) : Fld := ⟨SYN_OP.reg s, 33, 32⟩
def SYN_OP.OP (s : Nat) : Fld := ⟨SYN_OP.reg s, 2, 0⟩
/-- SYN_OP_STATUS, offset from the register base (spec/12_synchronisation.md). -/
def SYN_OP_STATUS.reg (s : Nat) : Nat := 0xb0048 + s * 0x10
def SYN_OP_STATUS.COMPLETED (s : Nat) : Fld := ⟨SYN_OP_STATUS.reg s, 63, 48⟩
def SYN_OP_STATUS.DEPTH (s : Nat) : Fld := ⟨SYN_OP_STATUS.reg s, 20, 16⟩
def SYN_OP_STATUS.HEAD (s : Nat) : Fld := ⟨SYN_OP_STATUS.reg s, 9, 8⟩
def SYN_OP_STATUS.RESULT (s : Nat) : Fld := ⟨SYN_OP_STATUS.reg s, 2, 0⟩
/-- SYN_CTX_STATE, offset from the register base (spec/12_synchronisation.md). -/
def SYN_CTX_STATE.reg (x : Nat) : Nat := 0xb0100 + x * 0x8
def SYN_CTX_STATE.CELLS (x : Nat) : Fld := ⟨SYN_CTX_STATE.reg x, 44, 32⟩
def SYN_CTX_STATE.OWNER (x : Nat) : Fld := ⟨SYN_CTX_STATE.reg x, 9, 8⟩
def SYN_CTX_STATE.GRANTED (x : Nat) : Fld := ⟨SYN_CTX_STATE.reg x, 4, 4⟩
def SYN_CTX_STATE.CLEAR (x : Nat) : Fld := ⟨SYN_CTX_STATE.reg x, 0, 0⟩
/-- SYN_DBG_SEL, offset from the register base (spec/12_synchronisation.md). -/
def SYN_DBG_SEL.reg : Nat := 0xb0200
def SYN_DBG_SEL.MISS : Fld := ⟨SYN_DBG_SEL.reg, 63, 63⟩
def SYN_DBG_SEL.CELL : Fld := ⟨SYN_DBG_SEL.reg, 11, 0⟩
/-- SYN_DBG_KEY, offset from the register base (spec/12_synchronisation.md). -/
def SYN_DBG_KEY.reg : Nat := 0xb0208
def SYN_DBG_KEY.VALID : Fld := ⟨SYN_DBG_KEY.reg, 63, 63⟩
def SYN_DBG_KEY.MODE : Fld := ⟨SYN_DBG_KEY.reg, 48, 48⟩
def SYN_DBG_KEY.N : Fld := ⟨SYN_DBG_KEY.reg, 44, 32⟩
def SYN_DBG_KEY.CTX : Fld := ⟨SYN_DBG_KEY.reg, 19, 16⟩
def SYN_DBG_KEY.VID : Fld := ⟨SYN_DBG_KEY.reg, 15, 0⟩
/-- SYN_DBG_STATE, offset from the register base (spec/12_synchronisation.md). -/
def SYN_DBG_STATE.reg : Nat := 0xb0210
def SYN_DBG_STATE.GEN : Fld := ⟨SYN_DBG_STATE.reg, 63, 48⟩
def SYN_DBG_STATE.WAITERS : Fld := ⟨SYN_DBG_STATE.reg, 44, 32⟩
def SYN_DBG_STATE.NEXT : Fld := ⟨SYN_DBG_STATE.reg, 28, 16⟩
def SYN_DBG_STATE.COUNT : Fld := ⟨SYN_DBG_STATE.reg, 12, 0⟩
/-- SYN_DBG_LAST, offset from the register base (spec/12_synchronisation.md). -/
def SYN_DBG_LAST.reg : Nat := 0xb0218
def SYN_DBG_LAST.SET_LOST : Fld := ⟨SYN_DBG_LAST.reg, 63, 48⟩
def SYN_DBG_LAST.REMOTE : Fld := ⟨SYN_DBG_LAST.reg, 47, 32⟩
def SYN_DBG_LAST.LAST : Fld := ⟨SYN_DBG_LAST.reg, 15, 0⟩
/-- SYN_DBG_FIND, offset from the register base (spec/12_synchronisation.md). -/
def SYN_DBG_FIND.reg : Nat := 0xb0220
def SYN_DBG_FIND.CTX : Fld := ⟨SYN_DBG_FIND.reg, 19, 16⟩
def SYN_DBG_FIND.VID : Fld := ⟨SYN_DBG_FIND.reg, 15, 0⟩
/-- HST_CTRL, offset from the register base (spec/13_host_channels.md). -/
def HST_CTRL.reg : Nat := 0xc0000
def HST_CTRL.MAX_FRAME : Fld := ⟨HST_CTRL.reg, 31, 16⟩
def HST_CTRL.UDP_PORT : Fld := ⟨HST_CTRL.reg, 15, 0⟩
/-- HST_STATUS, offset from the register base (spec/13_host_channels.md). -/
def HST_STATUS.reg : Nat := 0xc0008
def HST_STATUS.JOURNAL_FREE : Fld := ⟨HST_STATUS.reg, 63, 48⟩
def HST_STATUS.OPEN : Fld := ⟨HST_STATUS.reg, 42, 32⟩
def HST_STATUS.MIRROR : Fld := ⟨HST_STATUS.reg, 3, 2⟩
def HST_STATUS.NET_B : Fld := ⟨HST_STATUS.reg, 1, 1⟩
def HST_STATUS.NET_A : Fld := ⟨HST_STATUS.reg, 0, 0⟩
/-- HST_EVENT, offset from the register base (spec/13_host_channels.md). -/
def HST_EVENT.reg : Nat := 0xc0010
def HST_EVENT.TAKEOVER_DONE : Fld := ⟨HST_EVENT.reg, 7, 7⟩
def HST_EVENT.MIRROR_LOST : Fld := ⟨HST_EVENT.reg, 6, 6⟩
def HST_EVENT.JOURNAL_FULL : Fld := ⟨HST_EVENT.reg, 5, 5⟩
def HST_EVENT.EVENT_LOST : Fld := ⟨HST_EVENT.reg, 4, 4⟩
def HST_EVENT.NET_B_DOWN : Fld := ⟨HST_EVENT.reg, 3, 3⟩
def HST_EVENT.NET_A_DOWN : Fld := ⟨HST_EVENT.reg, 2, 2⟩
def HST_EVENT.FILTERED : Fld := ⟨HST_EVENT.reg, 1, 1⟩
def HST_EVENT.MALFORMED : Fld := ⟨HST_EVENT.reg, 0, 0⟩
/-- HST_BUDDY, offset from the register base (spec/13_host_channels.md). -/
def HST_BUDDY.reg : Nat := 0xc0018
def HST_BUDDY.VALID : Fld := ⟨HST_BUDDY.reg, 63, 63⟩
def HST_BUDDY.COORD : Fld := ⟨HST_BUDDY.reg, 14, 0⟩
/-- HST_MIRROR_CTRL, offset from the register base (spec/13_host_channels.md). -/
def HST_MIRROR_CTRL.reg : Nat := 0xc0020
def HST_MIRROR_CTRL.TIMEOUT : Fld := ⟨HST_MIRROR_CTRL.reg, 31, 0⟩
/-- HST_JOURNAL, offset from the register base (spec/13_host_channels.md). -/
def HST_JOURNAL.reg : Nat := 0xc0028
def HST_JOURNAL.TAIL : Fld := ⟨HST_JOURNAL.reg, 63, 32⟩
def HST_JOURNAL.HEAD : Fld := ⟨HST_JOURNAL.reg, 31, 0⟩
/-- HST_TAKEOVER, offset from the register base (spec/13_host_channels.md). -/
def HST_TAKEOVER.reg : Nat := 0xc0030
def HST_TAKEOVER.STATE : Fld := ⟨HST_TAKEOVER.reg, 2, 1⟩
def HST_TAKEOVER.GO : Fld := ⟨HST_TAKEOVER.reg, 0, 0⟩
/-- HST_EVENT_CTRL, offset from the register base (spec/13_host_channels.md). -/
def HST_EVENT_CTRL.reg : Nat := 0xc0038
def HST_EVENT_CTRL.RESEND : Fld := ⟨HST_EVENT_CTRL.reg, 63, 32⟩
def HST_EVENT_CTRL.RECORDS : Fld := ⟨HST_EVENT_CTRL.reg, 0, 0⟩
/-- HST_DROPS, offset from the register base (spec/13_host_channels.md). -/
def HST_DROPS.reg : Nat := 0xc0040
def HST_DROPS.FILTERED : Fld := ⟨HST_DROPS.reg, 63, 48⟩
def HST_DROPS.MALFORMED : Fld := ⟨HST_DROPS.reg, 47, 32⟩
def HST_DROPS.WINDOW : Fld := ⟨HST_DROPS.reg, 31, 16⟩
def HST_DROPS.BUSY : Fld := ⟨HST_DROPS.reg, 15, 0⟩
/-- HST_CH0_CFG, offset from the register base (spec/13_host_channels.md). -/
def HST_CH0_CFG.reg : Nat := 0xc0048
def HST_CH0_CFG.SESSION : Fld := ⟨HST_CH0_CFG.reg, 63, 32⟩
def HST_CH0_CFG.HOST_UDP : Fld := ⟨HST_CH0_CFG.reg, 31, 16⟩
def HST_CH0_CFG.EVENTS : Fld := ⟨HST_CH0_CFG.reg, 2, 2⟩
def HST_CH0_CFG.IPV6 : Fld := ⟨HST_CH0_CFG.reg, 1, 1⟩
def HST_CH0_CFG.OPEN : Fld := ⟨HST_CH0_CFG.reg, 0, 0⟩
/-- HST_CH0_ADDR, offset from the register base (spec/13_host_channels.md). -/
def HST_CH0_ADDR.reg (i : Nat) : Nat := 0xc0050 + i * 0x8
def HST_CH0_ADDR.BYTES (i : Nat) : Fld := ⟨HST_CH0_ADDR.reg i, 63, 0⟩
/-- HST_PORT_CFG, offset from the register base (spec/13_host_channels.md). -/
def HST_PORT_CFG.reg (e : Nat) : Nat := 0xc0100 + e * 0x8
def HST_PORT_CFG.VLAN_EN (e : Nat) : Fld := ⟨HST_PORT_CFG.reg e, 31, 31⟩
def HST_PORT_CFG.PCP (e : Nat) : Fld := ⟨HST_PORT_CFG.reg e, 30, 28⟩
def HST_PORT_CFG.VID (e : Nat) : Fld := ⟨HST_PORT_CFG.reg e, 27, 16⟩
def HST_PORT_CFG.MODE (e : Nat) : Fld := ⟨HST_PORT_CFG.reg e, 0, 0⟩
/-- HST_PORT_MAC, offset from the register base (spec/13_host_channels.md). -/
def HST_PORT_MAC.reg (e : Nat) : Nat := 0xc0140 + e * 0x8
def HST_PORT_MAC.MAC (e : Nat) : Fld := ⟨HST_PORT_MAC.reg e, 47, 0⟩
/-- HST_PORT_IPV4, offset from the register base (spec/13_host_channels.md). -/
def HST_PORT_IPV4.reg (e : Nat) : Nat := 0xc0180 + e * 0x8
def HST_PORT_IPV4.V6_EN (e : Nat) : Fld := ⟨HST_PORT_IPV4.reg e, 33, 33⟩
def HST_PORT_IPV4.V4_EN (e : Nat) : Fld := ⟨HST_PORT_IPV4.reg e, 32, 32⟩
def HST_PORT_IPV4.ADDRESS (e : Nat) : Fld := ⟨HST_PORT_IPV4.reg e, 31, 0⟩
/-- HST_PORT_IPV6, offset from the register base (spec/13_host_channels.md). -/
def HST_PORT_IPV6.reg (e h : Nat) : Nat := 0xc0200 + e * 0x10 + h * 0x8
def HST_PORT_IPV6.BYTES (e h : Nat) : Fld := ⟨HST_PORT_IPV6.reg e h, 63, 0⟩
/-- HST_PORT_STATUS, offset from the register base (spec/13_host_channels.md). -/
def HST_PORT_STATUS.reg (e : Nat) : Nat := 0xc0280 + e * 0x8
def HST_PORT_STATUS.DOWNS (e : Nat) : Fld := ⟨HST_PORT_STATUS.reg e, 47, 32⟩
def HST_PORT_STATUS.STATE (e : Nat) : Fld := ⟨HST_PORT_STATUS.reg e, 1, 0⟩
/-- HST_PORT_STATS, offset from the register base (spec/13_host_channels.md). -/
def HST_PORT_STATS.reg (e : Nat) : Nat := 0xc02c0 + e * 0x8
def HST_PORT_STATS.RX_BCT (e : Nat) : Fld := ⟨HST_PORT_STATS.reg e, 63, 32⟩
def HST_PORT_STATS.RX_DROPPED (e : Nat) : Fld := ⟨HST_PORT_STATS.reg e, 31, 0⟩
/-- HST_FILTER_CTL, offset from the register base (spec/13_host_channels.md). -/
def HST_FILTER_CTL.reg (k : Nat) : Nat := 0xc0400 + k * 0x8
def HST_FILTER_CTL.EN (k : Nat) : Fld := ⟨HST_FILTER_CTL.reg k, 63, 63⟩
def HST_FILTER_CTL.V6 (k : Nat) : Fld := ⟨HST_FILTER_CTL.reg k, 62, 62⟩
def HST_FILTER_CTL.NET (k : Nat) : Fld := ⟨HST_FILTER_CTL.reg k, 61, 60⟩
def HST_FILTER_CTL.PREFIX_LEN (k : Nat) : Fld := ⟨HST_FILTER_CTL.reg k, 7, 0⟩
/-- HST_FILTER_ADDR, offset from the register base (spec/13_host_channels.md). -/
def HST_FILTER_ADDR.reg (k h : Nat) : Nat := 0xc0480 + k * 0x10 + h * 0x8
def HST_FILTER_ADDR.BYTES (k h : Nat) : Fld := ⟨HST_FILTER_ADDR.reg k h, 63, 0⟩
/-- RAS_CTRL, offset from the register base (spec/14_faults_and_checkpoints.md). -/
def RAS_CTRL.reg : Nat := 0xd0000
def RAS_CTRL.SELFTEST_PERIOD : Fld := ⟨RAS_CTRL.reg, 47, 32⟩
def RAS_CTRL.REPLAY : Fld := ⟨RAS_CTRL.reg, 1, 1⟩
def RAS_CTRL.CAPTURE : Fld := ⟨RAS_CTRL.reg, 0, 0⟩
/-- RAS_STATUS, offset from the register base (spec/14_faults_and_checkpoints.md). -/
def RAS_STATUS.reg : Nat := 0xd0008
def RAS_STATUS.ERRQ_DEPTH : Fld := ⟨RAS_STATUS.reg, 40, 32⟩
def RAS_STATUS.SUSPECT_COUNT : Fld := ⟨RAS_STATUS.reg, 22, 16⟩
def RAS_STATUS.REPLACE : Fld := ⟨RAS_STATUS.reg, 2, 2⟩
def RAS_STATUS.STORM : Fld := ⟨RAS_STATUS.reg, 1, 1⟩
def RAS_STATUS.SELFTEST_BUSY : Fld := ⟨RAS_STATUS.reg, 0, 0⟩
/-- RAS_EVENT, offset from the register base (spec/14_faults_and_checkpoints.md). -/
def RAS_EVENT.reg : Nat := 0xd0010
def RAS_EVENT.CAPTURE_FULL : Fld := ⟨RAS_EVENT.reg, 7, 7⟩
def RAS_EVENT.NONREPRO : Fld := ⟨RAS_EVENT.reg, 6, 6⟩
def RAS_EVENT.BANK_UE : Fld := ⟨RAS_EVENT.reg, 5, 5⟩
def RAS_EVENT.REPLACE : Fld := ⟨RAS_EVENT.reg, 4, 4⟩
def RAS_EVENT.REPLAY_MISMATCH : Fld := ⟨RAS_EVENT.reg, 3, 3⟩
def RAS_EVENT.SELFTEST_FAIL : Fld := ⟨RAS_EVENT.reg, 2, 2⟩
def RAS_EVENT.SUSPECT_OVERFLOW : Fld := ⟨RAS_EVENT.reg, 1, 1⟩
def RAS_EVENT.STORM : Fld := ⟨RAS_EVENT.reg, 0, 0⟩
/-- RAS_REPLAY_VERDICT, offset from the register base (spec/14_faults_and_checkpoints.md). -/
def RAS_REPLAY_VERDICT.reg : Nat := 0xd0018
def RAS_REPLAY_VERDICT.FIRST_RUN : Fld := ⟨RAS_REPLAY_VERDICT.reg, 31, 16⟩
def RAS_REPLAY_VERDICT.VERDICT : Fld := ⟨RAS_REPLAY_VERDICT.reg, 1, 0⟩
/-- RAS_CAPTURE, offset from the register base (spec/14_faults_and_checkpoints.md). -/
def RAS_CAPTURE.reg : Nat := 0xd0020
def RAS_CAPTURE.MIB : Fld := ⟨RAS_CAPTURE.reg, 63, 48⟩
def RAS_CAPTURE.BASE : Fld := ⟨RAS_CAPTURE.reg, 47, 0⟩
/-- RAS_CAPTURE_USED, offset from the register base (spec/14_faults_and_checkpoints.md). -/
def RAS_CAPTURE_USED.reg : Nat := 0xd0028
def RAS_CAPTURE_USED.RUNS : Fld := ⟨RAS_CAPTURE_USED.reg, 63, 48⟩
def RAS_CAPTURE_USED.BYTES : Fld := ⟨RAS_CAPTURE_USED.reg, 47, 0⟩
/-- RAS_DIGEST_TABLE, offset from the register base (spec/14_faults_and_checkpoints.md). -/
def RAS_DIGEST_TABLE.reg : Nat := 0xd0030
def RAS_DIGEST_TABLE.ADDR : Fld := ⟨RAS_DIGEST_TABLE.reg, 47, 0⟩
/-- RAS_SELFTEST, offset from the register base (spec/14_faults_and_checkpoints.md). -/
def RAS_SELFTEST.reg : Nat := 0xd0038
def RAS_SELFTEST.LAST_FAIL : Fld := ⟨RAS_SELFTEST.reg, 42, 32⟩
def RAS_SELFTEST.GO : Fld := ⟨RAS_SELFTEST.reg, 0, 0⟩
/-- RAS_LOG_PTR, offset from the register base (spec/14_faults_and_checkpoints.md). -/
def RAS_LOG_PTR.reg : Nat := 0xd0040
def RAS_LOG_PTR.NEXT : Fld := ⟨RAS_LOG_PTR.reg, 63, 0⟩
/-- RAS_LOG_SEL, offset from the register base (spec/14_faults_and_checkpoints.md). -/
def RAS_LOG_SEL.reg : Nat := 0xd0048
def RAS_LOG_SEL.MISS : Fld := ⟨RAS_LOG_SEL.reg, 63, 63⟩
def RAS_LOG_SEL.RECORD : Fld := ⟨RAS_LOG_SEL.reg, 47, 0⟩
/-- RAS_LOG_REC, offset from the register base (spec/14_faults_and_checkpoints.md). -/
def RAS_LOG_REC.reg (k : Nat) : Nat := 0xd0080 + k * 0x8
def RAS_LOG_REC.BYTES (k : Nat) : Fld := ⟨RAS_LOG_REC.reg k, 63, 0⟩
/-- RAS_EVENT_TOTAL, offset from the register base (spec/14_faults_and_checkpoints.md). -/
def RAS_EVENT_TOTAL.reg (c : Nat) : Nat := 0xd0100 + c * 0x8
def RAS_EVENT_TOTAL.COUNT (c : Nat) : Fld := ⟨RAS_EVENT_TOTAL.reg c, 47, 0⟩
/-- RAS_STORM_COUNT, offset from the register base (spec/14_faults_and_checkpoints.md). -/
def RAS_STORM_COUNT.reg (c : Nat) : Nat := 0xd0180 + c * 0x8
def RAS_STORM_COUNT.COUNT (c : Nat) : Fld := ⟨RAS_STORM_COUNT.reg c, 47, 0⟩
/-- RAS_SUSPECT, offset from the register base (spec/14_faults_and_checkpoints.md). -/
def RAS_SUSPECT.reg (k : Nat) : Nat := 0xd0400 + k * 0x8
def RAS_SUSPECT.UNIT (k : Nat) : Fld := ⟨RAS_SUSPECT.reg k, 63, 48⟩
def RAS_SUSPECT.RUN (k : Nat) : Fld := ⟨RAS_SUSPECT.reg k, 47, 32⟩
def RAS_SUSPECT.SEQ (k : Nat) : Fld := ⟨RAS_SUSPECT.reg k, 31, 0⟩
/-- CKP_CTRL, offset from the register base (spec/14_faults_and_checkpoints.md). -/
def CKP_CTRL.reg : Nat := 0xe0000
def CKP_CTRL.HOST_PCT : Fld := ⟨CKP_CTRL.reg, 55, 48⟩
def CKP_CTRL.COPY_PCT : Fld := ⟨CKP_CTRL.reg, 39, 32⟩
def CKP_CTRL.EVERY_STEP : Fld := ⟨CKP_CTRL.reg, 0, 0⟩
/-- CKP_STATUS, offset from the register base (spec/14_faults_and_checkpoints.md). -/
def CKP_STATUS.reg : Nat := 0xe0008
def CKP_STATUS.SNAP_ID : Fld := ⟨CKP_STATUS.reg, 63, 32⟩
def CKP_STATUS.SLOT : Fld := ⟨CKP_STATUS.reg, 5, 5⟩
def CKP_STATUS.PHASE : Fld := ⟨CKP_STATUS.reg, 2, 0⟩
/-- CKP_EVENT, offset from the register base (spec/14_faults_and_checkpoints.md). -/
def CKP_EVENT.reg : Nat := 0xe0010
def CKP_EVENT.DEGRADED : Fld := ⟨CKP_EVENT.reg, 5, 5⟩
def CKP_EVENT.RESTORED : Fld := ⟨CKP_EVENT.reg, 4, 4⟩
def CKP_EVENT.REFUSED : Fld := ⟨CKP_EVENT.reg, 3, 3⟩
def CKP_EVENT.ABANDONED : Fld := ⟨CKP_EVENT.reg, 2, 2⟩
def CKP_EVENT.BUDDY_SEALED : Fld := ⟨CKP_EVENT.reg, 1, 1⟩
def CKP_EVENT.SEALED : Fld := ⟨CKP_EVENT.reg, 0, 0⟩
/-- CKP_REGIONS, offset from the register base (spec/14_faults_and_checkpoints.md). -/
def CKP_REGIONS.reg : Nat := 0xe0018
def CKP_REGIONS.ENTRIES : Fld := ⟨CKP_REGIONS.reg, 54, 48⟩
def CKP_REGIONS.ADDR : Fld := ⟨CKP_REGIONS.reg, 47, 0⟩
/-- CKP_COW, offset from the register base (spec/14_faults_and_checkpoints.md). -/
def CKP_COW.reg : Nat := 0xe0020
def CKP_COW.STALLS : Fld := ⟨CKP_COW.reg, 63, 32⟩
def CKP_COW.PENDING : Fld := ⟨CKP_COW.reg, 31, 0⟩
/-- CKP_GEN, offset from the register base (spec/14_faults_and_checkpoints.md). -/
def CKP_GEN.reg (g : Nat) : Nat := 0xe0040 + g * 0x10
def CKP_GEN.SEALED (g : Nat) : Fld := ⟨CKP_GEN.reg g, 63, 63⟩
def CKP_GEN.DEGRADED (g : Nat) : Fld := ⟨CKP_GEN.reg g, 62, 62⟩
def CKP_GEN.SOURCE (g : Nat) : Fld := ⟨CKP_GEN.reg g, 46, 32⟩
def CKP_GEN.SNAP_ID (g : Nat) : Fld := ⟨CKP_GEN.reg g, 31, 0⟩
/-- CKP_GEN_CUT, offset from the register base (spec/14_faults_and_checkpoints.md). -/
def CKP_GEN_CUT.reg (g : Nat) : Nat := 0xe0048 + g * 0x10
def CKP_GEN_CUT.STEP (g : Nat) : Fld := ⟨CKP_GEN_CUT.reg g, 63, 32⟩
def CKP_GEN_CUT.T (g : Nat) : Fld := ⟨CKP_GEN_CUT.reg g, 31, 0⟩
/-- GLB_ID, offset from the register base (spec/15_boot_security_management.md). -/
def GLB_ID.reg : Nat := 0x0
def GLB_ID.VENDOR : Fld := ⟨GLB_ID.reg, 63, 48⟩
def GLB_ID.PART : Fld := ⟨GLB_ID.reg, 47, 32⟩
def GLB_ID.REV : Fld := ⟨GLB_ID.reg, 31, 24⟩
def GLB_ID.PKG_DIE : Fld := ⟨GLB_ID.reg, 17, 16⟩
def GLB_ID.ROM_VERSION : Fld := ⟨GLB_ID.reg, 15, 0⟩
/-- GLB_SERIAL, offset from the register base (spec/15_boot_security_management.md). -/
def GLB_SERIAL.reg : Nat := 0x8
def GLB_SERIAL.SERIAL : Fld := ⟨GLB_SERIAL.reg, 63, 0⟩
/-- GLB_BOOT, offset from the register base (spec/15_boot_security_management.md). -/
def GLB_BOOT.reg : Nat := 0x10
def GLB_BOOT.FW_VERSION : Fld := ⟨GLB_BOOT.reg, 39, 32⟩
def GLB_BOOT.CODE : Fld := ⟨GLB_BOOT.reg, 15, 8⟩
def GLB_BOOT.STAGE : Fld := ⟨GLB_BOOT.reg, 1, 0⟩
/-- GLB_RESET, offset from the register base (spec/15_boot_security_management.md). -/
def GLB_RESET.reg : Nat := 0x18
def GLB_RESET.WARM : Fld := ⟨GLB_RESET.reg, 0, 0⟩
/-- GLB_CAUSE, offset from the register base (spec/15_boot_security_management.md). -/
def GLB_CAUSE.reg : Nat := 0x20
def GLB_CAUSE.WARM_COUNT : Fld := ⟨GLB_CAUSE.reg, 47, 32⟩
def GLB_CAUSE.WARM_REG : Fld := ⟨GLB_CAUSE.reg, 1, 1⟩
def GLB_CAUSE.WARM_PIN : Fld := ⟨GLB_CAUSE.reg, 0, 0⟩
/-- SEC_STATE, offset from the register base (spec/15_boot_security_management.md). -/
def SEC_STATE.reg : Nat := 0xf0000
def SEC_STATE.MIN_VERSION : Fld := ⟨SEC_STATE.reg, 23, 16⟩
def SEC_STATE.OPERATOR_ENTRY : Fld := ⟨SEC_STATE.reg, 15, 8⟩
def SEC_STATE.OWNER_ENTRY : Fld := ⟨SEC_STATE.reg, 7, 0⟩
/-- SEC_KEY_STATE, offset from the register base (spec/15_boot_security_management.md). -/
def SEC_KEY_STATE.reg : Nat := 0xf0008
def SEC_KEY_STATE.REVOKED : Fld := ⟨SEC_KEY_STATE.reg, 15, 8⟩
def SEC_KEY_STATE.PROGRAMMED : Fld := ⟨SEC_KEY_STATE.reg, 7, 0⟩
/-- SEC_DEBUG, offset from the register base (spec/15_boot_security_management.md). -/
def SEC_DEBUG.reg : Nat := 0xf0010
def SEC_DEBUG.SEEN : Fld := ⟨SEC_DEBUG.reg, 63, 63⟩
def SEC_DEBUG.DESK_DEBUG : Fld := ⟨SEC_DEBUG.reg, 1, 1⟩
def SEC_DEBUG.TAP_EN : Fld := ⟨SEC_DEBUG.reg, 0, 0⟩
/-- SEC_AUTH_SEQ, offset from the register base (spec/15_boot_security_management.md). -/
def SEC_AUTH_SEQ.reg : Nat := 0xf0018
def SEC_AUTH_SEQ.SEQ : Fld := ⟨SEC_AUTH_SEQ.reg, 63, 0⟩
/-- SEC_AUTH_STATUS, offset from the register base (spec/15_boot_security_management.md). -/
def SEC_AUTH_STATUS.reg : Nat := 0xf0020
def SEC_AUTH_STATUS.RESULT : Fld := ⟨SEC_AUTH_STATUS.reg, 15, 8⟩
def SEC_AUTH_STATUS.PENDING : Fld := ⟨SEC_AUTH_STATUS.reg, 1, 0⟩
/-- SEC_AUTH_CTRL, offset from the register base (spec/15_boot_security_management.md). -/
def SEC_AUTH_CTRL.reg : Nat := 0xf0028
def SEC_AUTH_CTRL.GO : Fld := ⟨SEC_AUTH_CTRL.reg, 63, 63⟩
def SEC_AUTH_CTRL.SETUP_ADDR : Fld := ⟨SEC_AUTH_CTRL.reg, 47, 0⟩
/-- SEC_QUOTE_CTRL, offset from the register base (spec/15_boot_security_management.md). -/
def SEC_QUOTE_CTRL.reg : Nat := 0xf0030
def SEC_QUOTE_CTRL.DONE : Fld := ⟨SEC_QUOTE_CTRL.reg, 1, 1⟩
def SEC_QUOTE_CTRL.GO : Fld := ⟨SEC_QUOTE_CTRL.reg, 0, 0⟩
/-- SEC_CERT_LEN, offset from the register base (spec/15_boot_security_management.md). -/
def SEC_CERT_LEN.reg : Nat := 0xf0038
def SEC_CERT_LEN.BYTES : Fld := ⟨SEC_CERT_LEN.reg, 11, 0⟩
/-- SEC_KEYSLOT_USE, offset from the register base (spec/15_boot_security_management.md). -/
def SEC_KEYSLOT_USE.reg (s : Nat) : Nat := 0xf0600 + s * 0x8
def SEC_KEYSLOT_USE.IMAGE (s : Nat) : Fld := ⟨SEC_KEYSLOT_USE.reg s, 0, 0⟩
/-- MGT_ROLE, offset from the register base (spec/15_boot_security_management.md). -/
def MGT_ROLE.reg : Nat := 0x100000
def MGT_ROLE.ROLE : Fld := ⟨MGT_ROLE.reg, 1, 0⟩
/-- MGT_I3C, offset from the register base (spec/15_boot_security_management.md). -/
def MGT_I3C.reg : Nat := 0x100008
def MGT_I3C.PID : Fld := ⟨MGT_I3C.reg, 63, 16⟩
def MGT_I3C.DYN_ADDR : Fld := ⟨MGT_I3C.reg, 7, 1⟩
def MGT_I3C.ASSIGNED : Fld := ⟨MGT_I3C.reg, 0, 0⟩
/-- MGT_ALERT, offset from the register base (spec/15_boot_security_management.md). -/
def MGT_ALERT.reg : Nat := 0x100010
def MGT_ALERT.RCLK : Fld := ⟨MGT_ALERT.reg, 7, 7⟩
def MGT_ALERT.AUTH : Fld := ⟨MGT_ALERT.reg, 6, 6⟩
def MGT_ALERT.NET : Fld := ⟨MGT_ALERT.reg, 5, 5⟩
def MGT_ALERT.BOOT : Fld := ⟨MGT_ALERT.reg, 4, 4⟩
def MGT_ALERT.RECORD : Fld := ⟨MGT_ALERT.reg, 3, 3⟩
def MGT_ALERT.REPLACE : Fld := ⟨MGT_ALERT.reg, 2, 2⟩
def MGT_ALERT.THROTTLED : Fld := ⟨MGT_ALERT.reg, 1, 1⟩
def MGT_ALERT.THERMAL : Fld := ⟨MGT_ALERT.reg, 0, 0⟩
/-- MGT_ALERT_EN, offset from the register base (spec/15_boot_security_management.md). -/
def MGT_ALERT_EN.reg : Nat := 0x100018
def MGT_ALERT_EN.MIN_CLASS : Fld := ⟨MGT_ALERT_EN.reg, 10, 8⟩
def MGT_ALERT_EN.EN : Fld := ⟨MGT_ALERT_EN.reg, 7, 0⟩
/-- MGT_TELEM_GO, offset from the register base (spec/15_boot_security_management.md). -/
def MGT_TELEM_GO.reg : Nat := 0x100020
def MGT_TELEM_GO.GO : Fld := ⟨MGT_TELEM_GO.reg, 0, 0⟩
/-- MGT_TELEM, offset from the register base (spec/15_boot_security_management.md). -/
def MGT_TELEM.reg (k : Nat) : Nat := 0x100040 + k * 0x8
def MGT_TELEM.VALUE (k : Nat) : Fld := ⟨MGT_TELEM.reg k, 63, 0⟩
/-- SEC_BOOT_NONCE, offset from the register base (spec/15_boot_security_management.md). -/
def SEC_BOOT_NONCE.reg (h : Nat) : Nat := 0xf0040 + h * 0x8
def SEC_BOOT_NONCE.BYTES (h : Nat) : Fld := ⟨SEC_BOOT_NONCE.reg h, 63, 0⟩
/-- SEC_QUOTE_NONCE, offset from the register base (spec/15_boot_security_management.md). -/
def SEC_QUOTE_NONCE.reg (h : Nat) : Nat := 0xf0060 + h * 0x8
def SEC_QUOTE_NONCE.BYTES (h : Nat) : Fld := ⟨SEC_QUOTE_NONCE.reg h, 63, 0⟩
/-- SEC_KEY_HASH, offset from the register base (spec/15_boot_security_management.md). -/
def SEC_KEY_HASH.reg (f e h : Nat) : Nat := 0xf0100 + f * 0x80 + e * 0x20 + h * 0x8
def SEC_KEY_HASH.BYTES (f e h : Nat) : Fld := ⟨SEC_KEY_HASH.reg f e h, 63, 0⟩
/-- SEC_AUTH_MSG, offset from the register base (spec/15_boot_security_management.md). -/
def SEC_AUTH_MSG.reg (k : Nat) : Nat := 0xf0200 + k * 0x8
def SEC_AUTH_MSG.BYTES (k : Nat) : Fld := ⟨SEC_AUTH_MSG.reg k, 63, 0⟩
/-- SEC_MEAS, offset from the register base (spec/15_boot_security_management.md). -/
def SEC_MEAS.reg (m h : Nat) : Nat := 0xf0300 + m * 0x20 + h * 0x8
def SEC_MEAS.BYTES (m h : Nat) : Fld := ⟨SEC_MEAS.reg m h, 63, 0⟩
/-- SEC_KEYSLOT_HASH, offset from the register base (spec/15_boot_security_management.md). -/
def SEC_KEYSLOT_HASH.reg (s h : Nat) : Nat := 0xf0400 + s * 0x20 + h * 0x8
def SEC_KEYSLOT_HASH.BYTES (s h : Nat) : Fld := ⟨SEC_KEYSLOT_HASH.reg s h, 63, 0⟩
/-- SEC_QUOTE_OUT, offset from the register base (spec/15_boot_security_management.md). -/
def SEC_QUOTE_OUT.reg (k : Nat) : Nat := 0xf0700 + k * 0x8
def SEC_QUOTE_OUT.BYTES (k : Nat) : Fld := ⟨SEC_QUOTE_OUT.reg k, 63, 0⟩
/-- SEC_CERT, offset from the register base (spec/15_boot_security_management.md). -/
def SEC_CERT.reg (k : Nat) : Nat := 0xf0800 + k * 0x8
def SEC_CERT.BYTES (k : Nat) : Fld := ⟨SEC_CERT.reg k, 63, 0⟩

/-- The registers of block GLB. -/
def regTabGLB : List RegSpec := [
  ⟨0x0, [], [⟨63, 48, .ro, 0x5550⟩, ⟨47, 32, .ro, 0xf201⟩, ⟨31, 24, .ro, 0x0⟩, ⟨17, 16, .ro, 0x0⟩, ⟨15, 0, .ro, 0x0⟩]⟩,
  ⟨0x8, [], [⟨63, 0, .ro, 0x0⟩]⟩,
  ⟨0x10, [], [⟨39, 32, .ro, 0x0⟩, ⟨15, 8, .ro, 0x0⟩, ⟨1, 0, .ro, 0x0⟩]⟩,
  ⟨0x18, [], [⟨0, 0, .wo, 0x0⟩]⟩,
  ⟨0x20, [], [⟨47, 32, .ro, 0x0⟩, ⟨1, 1, .w1c, 0x0⟩, ⟨0, 0, .w1c, 0x0⟩]⟩]

/-- The registers of block PWR. -/
def regTabPWR : List RegSpec := [
  ⟨0x10000, [], [⟨63, 0, .ro, 0x0⟩]⟩,
  ⟨0x10008, [], [⟨63, 0, .rw, 0x0⟩]⟩,
  ⟨0x10010, [], [⟨31, 16, .rw, 0xffff⟩, ⟨13, 8, .rw, 0x18⟩, ⟨0, 0, .w1s, 0x0⟩]⟩,
  ⟨0x10018, [], [⟨47, 32, .ro, 0x0⟩, ⟨5, 5, .ro, 0x0⟩, ⟨4, 4, .w1c, 0x0⟩, ⟨3, 3, .w1c, 0x0⟩, ⟨2, 2, .w1c, 0x0⟩, ⟨1, 1, .ro, 0x0⟩, ⟨0, 0, .ro, 0x0⟩]⟩,
  ⟨0x10020, [], [⟨63, 0, .ro, 0x0⟩]⟩,
  ⟨0x10028, [], [⟨63, 32, .ro, 0x0⟩, ⟨31, 0, .ro, 0x0⟩]⟩,
  ⟨0x10030, [], [⟨47, 32, .ro, 0x0⟩, ⟨31, 16, .ro, 0x0⟩, ⟨15, 0, .ro, 0x0⟩]⟩,
  ⟨0x10038, [], [⟨15, 0, .rw, 0xc30⟩]⟩,
  ⟨0x10040, [], [⟨47, 32, .ro, 0x0⟩, ⟨31, 16, .ro, 0x0⟩, ⟨15, 0, .ro, 0x0⟩]⟩,
  ⟨0x10048, [], [⟨31, 16, .rw, 0x640⟩, ⟨15, 0, .rw, 0x5f0⟩]⟩,
  ⟨0x10050, [], [⟨2, 2, .w1c, 0x0⟩, ⟨1, 1, .w1c, 0x0⟩, ⟨0, 0, .w1c, 0x0⟩]⟩,
  ⟨0x10058, [], [⟨47, 32, .rw, 0x14⟩, ⟨31, 16, .rw, 0x320⟩, ⟨0, 0, .rw, 0x1⟩]⟩,
  ⟨0x10400, [(32, 0x8)], [⟨8, 0, .ro, 0x100⟩]⟩,
  ⟨0x10800, [(256, 0x8)], [⟨11, 11, .ro, 0x0⟩, ⟨10, 10, .ro, 0x0⟩, ⟨9, 8, .ro, 0x0⟩, ⟨0, 0, .rw, 0x0⟩]⟩]

/-- The registers of block FAB. -/
def regTabFAB : List RegSpec := [
  ⟨0x20000, [], [⟨0, 0, .w1s, 0x0⟩]⟩,
  ⟨0x20008, [], [⟨12, 12, .ro, 0x0⟩, ⟨11, 11, .ro, 0x0⟩, ⟨10, 10, .ro, 0x0⟩, ⟨9, 9, .ro, 0x1⟩, ⟨8, 8, .ro, 0x0⟩, ⟨7, 7, .ro, 0x0⟩, ⟨6, 6, .ro, 0x0⟩, ⟨5, 4, .ro, 0x0⟩, ⟨1, 0, .ro, 0x0⟩]⟩,
  ⟨0x20010, [], [⟨63, 0, .ro, 0x0⟩]⟩,
  ⟨0x20018, [], [⟨63, 32, .ro, 0x0⟩, ⟨31, 0, .ro, 0x0⟩]⟩,
  ⟨0x20020, [], [⟨63, 0, .ro, 0x0⟩]⟩,
  ⟨0x20028, [], [⟨31, 0, .rw, 0x1000000⟩]⟩,
  ⟨0x20030, [], [⟨63, 0, .ro, 0x0⟩]⟩,
  ⟨0x20038, [], [⟨63, 0, .ro, 0x0⟩]⟩,
  ⟨0x20040, [(4, 0x8)], [⟨6, 4, .ro, 0x0⟩, ⟨1, 1, .ro, 0x0⟩, ⟨0, 0, .ro, 0x0⟩]⟩,
  ⟨0x20060, [], [⟨47, 0, .rw, 0x0⟩]⟩,
  ⟨0x20068, [], [⟨8, 8, .rw, 0x0⟩, ⟨0, 0, .w1s, 0x0⟩]⟩,
  ⟨0x20070, [], [⟨63, 32, .ro, 0x0⟩, ⟨15, 8, .ro, 0x0⟩, ⟨2, 0, .ro, 0x0⟩]⟩,
  ⟨0x20078, [], [⟨63, 0, .ro, 0x0⟩]⟩,
  ⟨0x20080, [], [⟨63, 0, .ro, 0x0⟩]⟩,
  ⟨0x20088, [], [⟨63, 0, .ro, 0x180000000⟩]⟩,
  ⟨0x20090, [], [⟨47, 0, .ro, 0x0⟩]⟩,
  ⟨0x20098, [], [⟨60, 56, .ro, 0x0⟩, ⟨52, 48, .ro, 0x10⟩, ⟨44, 32, .ro, 0x1000⟩, ⟨23, 16, .ro, 0x80⟩, ⟨6, 0, .ro, 0x40⟩]⟩,
  ⟨0x200a0, [], [⟨47, 0, .ro, 0x0⟩]⟩]

/-- The registers of block TMAP. -/
def regTabTMAP : List RegSpec := [
  ⟨0x30000, [(32, 0x40), (4, 0x8)], [⟨7, 7, .ro, 0x1⟩, ⟨15, 15, .ro, 0x1⟩, ⟨23, 23, .ro, 0x1⟩, ⟨31, 31, .ro, 0x1⟩, ⟨39, 39, .ro, 0x1⟩, ⟨47, 47, .ro, 0x1⟩, ⟨55, 55, .ro, 0x1⟩, ⟨63, 63, .ro, 0x1⟩, ⟨5, 0, .ro, 0x0⟩, ⟨13, 8, .ro, 0x0⟩, ⟨21, 16, .ro, 0x0⟩, ⟨29, 24, .ro, 0x0⟩, ⟨37, 32, .ro, 0x0⟩, ⟨45, 40, .ro, 0x0⟩, ⟨53, 48, .ro, 0x0⟩, ⟨61, 56, .ro, 0x0⟩]⟩,
  ⟨0x30020, [(32, 0x40)], [⟨48, 48, .ro, 0x0⟩, ⟨45, 40, .ro, 0x20⟩, ⟨32, 0, .ro, 0x0⟩]⟩,
  ⟨0x30028, [(32, 0x40)], [⟨32, 0, .w1s, 0x0⟩]⟩,
  ⟨0x30030, [(32, 0x40)], [⟨32, 0, .da, 0x0⟩]⟩,
  ⟨0x31000, [], [⟨2, 2, .w1c, 0x0⟩, ⟨1, 1, .w1c, 0x0⟩, ⟨0, 0, .w1c, 0x0⟩]⟩,
  ⟨0x31008, [], [⟨63, 0, .ro, 0x0⟩]⟩]

/-- The registers of block NUM. -/
def regTabNUM : List RegSpec := [
  ⟨0x40000, [], [⟨0, 0, .sh, 0x1⟩]⟩,
  ⟨0x40008, [], [⟨63, 0, .sh, 0x0⟩]⟩,
  ⟨0x40010, [(2, 0x8)], [⟨63, 32, .rw, 0x0⟩, ⟨31, 0, .rw, 0x0⟩]⟩,
  ⟨0x40020, [(2, 0x8)], [⟨63, 32, .rw, 0x0⟩, ⟨31, 0, .rw, 0x0⟩]⟩,
  ⟨0x40030, [], [⟨0, 0, .wo, 0x0⟩]⟩,
  ⟨0x40038, [(2, 0x8)], [⟨63, 32, .ro, 0x0⟩, ⟨31, 0, .ro, 0x0⟩]⟩,
  ⟨0x40048, [], [⟨63, 32, .ro, 0x0⟩, ⟨8, 8, .ro, 0x0⟩, ⟨6, 6, .ro, 0x0⟩, ⟨5, 5, .ro, 0x0⟩, ⟨4, 4, .ro, 0x0⟩, ⟨3, 3, .ro, 0x0⟩, ⟨2, 2, .ro, 0x0⟩, ⟨1, 1, .ro, 0x0⟩, ⟨0, 0, .ro, 0x0⟩]⟩,
  ⟨0x40050, [], [⟨63, 32, .ro, 0x0⟩, ⟨8, 8, .ro, 0x0⟩, ⟨6, 6, .ro, 0x0⟩, ⟨5, 5, .ro, 0x0⟩, ⟨4, 4, .ro, 0x0⟩, ⟨3, 3, .ro, 0x0⟩, ⟨2, 2, .ro, 0x0⟩, ⟨1, 1, .ro, 0x0⟩, ⟨0, 0, .ro, 0x0⟩]⟩,
  ⟨0x40058, [], [⟨63, 32, .ro, 0x0⟩, ⟨8, 8, .ro, 0x0⟩, ⟨6, 6, .w1c, 0x0⟩, ⟨5, 5, .w1c, 0x0⟩, ⟨4, 4, .w1c, 0x0⟩, ⟨3, 3, .w1c, 0x0⟩, ⟨2, 2, .w1c, 0x0⟩, ⟨1, 1, .w1c, 0x0⟩, ⟨0, 0, .w1c, 0x0⟩]⟩,
  ⟨0x40060, [], [⟨5, 0, .sh, 0x0⟩]⟩,
  ⟨0x40068, [], [⟨47, 0, .ro, 0x0⟩]⟩]

/-- The registers of block MEM. -/
def regTabMEM : List RegSpec := [
  ⟨0x50000, [], [⟨31, 16, .rw, 0x258⟩, ⟨0, 0, .rw, 0x1⟩]⟩,
  ⟨0x50008, [], [⟨63, 32, .ro, 0x0⟩, ⟨31, 0, .ro, 0x0⟩]⟩,
  ⟨0x50010, [], [⟨63, 32, .ro, 0x0⟩, ⟨31, 0, .ro, 0x0⟩]⟩,
  ⟨0x50018, [], [⟨2, 2, .w1c, 0x0⟩, ⟨1, 1, .w1c, 0x0⟩, ⟨0, 0, .w1c, 0x0⟩]⟩,
  ⟨0x50100, [(16, 0x8)], [⟨63, 63, .sh, 0x0⟩, ⟨52, 32, .sh, 0x0⟩, ⟨20, 0, .sh, 0x0⟩]⟩,
  ⟨0x52000, [(1024, 0x8)], [⟨15, 15, .ro, 0x1⟩, ⟨12, 8, .ro, 0x0⟩, ⟨5, 0, .ro, 0x0⟩]⟩]

/-- The registers of block WRD. -/
def regTabWRD : List RegSpec := [
  ⟨0x60000, [], [⟨63, 32, .rw, 0xa8c0⟩, ⟨8, 8, .rw, 0x1⟩, ⟨2, 0, .rw, 0x4⟩]⟩,
  ⟨0x60008, [], [⟨32, 32, .ro, 0x0⟩, ⟨31, 0, .ro, 0x0⟩]⟩,
  ⟨0x60010, [], [⟨4, 4, .w1c, 0x0⟩, ⟨3, 3, .w1c, 0x0⟩, ⟨2, 2, .w1c, 0x0⟩, ⟨1, 1, .w1c, 0x0⟩, ⟨0, 0, .w1c, 0x0⟩]⟩,
  ⟨0x60018, [], [⟨4, 4, .ro, 0x0⟩, ⟨3, 0, .sh, 0x0⟩]⟩,
  ⟨0x60020, [], [⟨31, 0, .rw, 0x400000⟩]⟩,
  ⟨0x60028, [], [⟨63, 32, .ro, 0x0⟩, ⟨31, 0, .ro, 0x0⟩]⟩,
  ⟨0x60100, [(16, 0x8)], [⟨63, 63, .sh, 0x0⟩, ⟨14, 10, .sh, 0x0⟩, ⟨9, 5, .sh, 0x0⟩, ⟨4, 0, .sh, 0x0⟩]⟩,
  ⟨0x60200, [(32, 0x8)], [⟨47, 40, .ro, 0x0⟩, ⟨35, 32, .ro, 0x0⟩, ⟨10, 8, .ro, 0x0⟩, ⟨2, 0, .ro, 0x1⟩]⟩,
  ⟨0x60400, [(32, 0x8)], [⟨63, 48, .ro, 0x0⟩, ⟨47, 32, .ro, 0x0⟩, ⟨31, 16, .ro, 0x0⟩, ⟨15, 0, .ro, 0x0⟩]⟩,
  ⟨0x60600, [(32, 0x8)], [⟨63, 63, .ro, 0x0⟩, ⟨62, 62, .ro, 0x0⟩, ⟨47, 0, .ro, 0x0⟩]⟩,
  ⟨0x60800, [(32, 0x8)], [⟨63, 32, .ro, 0x0⟩, ⟨4, 0, .ro, 0x0⟩]⟩]

/-- The registers of block QUE. -/
def regTabQUE : List RegSpec := [
  ⟨0x70000, [], [⟨63, 0, .w1s, 0x0⟩]⟩,
  ⟨0x70008, [], [⟨3, 3, .w1c, 0x0⟩, ⟨2, 2, .w1c, 0x0⟩, ⟨1, 1, .w1c, 0x0⟩, ⟨0, 0, .w1c, 0x0⟩]⟩,
  ⟨0x70010, [], [⟨63, 32, .ro, 0x0⟩, ⟨31, 0, .ro, 0x0⟩]⟩,
  ⟨0x70020, [(2, 0x8)], [⟨63, 0, .ro, 0x0⟩]⟩,
  ⟨0x71000, [(64, 0x40)], [⟨63, 63, .rw, 0x0⟩, ⟨57, 56, .rw, 0x0⟩, ⟨15, 8, .rw, 0x0⟩, ⟨6, 0, .rw, 0x0⟩]⟩,
  ⟨0x71008, [(64, 0x40)], [⟨63, 48, .rw, 0x0⟩, ⟨47, 16, .rw, 0x0⟩]⟩,
  ⟨0x71010, [(64, 0x40)], [⟨49, 32, .ro, 0x0⟩, ⟨17, 0, .ro, 0x0⟩]⟩,
  ⟨0x71018, [(64, 0x40)], [⟨49, 32, .ro, 0x0⟩, ⟨17, 0, .ro, 0x0⟩]⟩,
  ⟨0x71020, [(64, 0x40)], [⟨58, 32, .ro, 0x0⟩, ⟨26, 0, .ro, 0x0⟩]⟩,
  ⟨0x71028, [(64, 0x40)], [⟨58, 32, .ro, 0x0⟩, ⟨31, 14, .ro, 0x0⟩, ⟨13, 8, .ro, 0x0⟩, ⟨6, 6, .ro, 0x0⟩, ⟨5, 5, .ro, 0x0⟩, ⟨4, 4, .ro, 0x0⟩, ⟨3, 3, .ro, 0x0⟩, ⟨2, 2, .ro, 0x0⟩, ⟨1, 1, .ro, 0x0⟩, ⟨0, 0, .ro, 0x0⟩]⟩,
  ⟨0x71030, [(64, 0x40)], [⟨63, 32, .ro, 0x0⟩, ⟨31, 0, .ro, 0x0⟩]⟩,
  ⟨0x71038, [(64, 0x40)], [⟨63, 48, .ro, 0x0⟩, ⟨47, 32, .ro, 0x0⟩, ⟨31, 16, .ro, 0x0⟩, ⟨15, 0, .ro, 0x0⟩]⟩]

/-- The registers of block SBD. -/
def regTabSBD : List RegSpec := [
  ⟨0x80000, [], [⟨9, 9, .wo, 0x0⟩, ⟨8, 8, .wo, 0x0⟩, ⟨0, 0, .sh, 0x1⟩]⟩,
  ⟨0x80008, [], [⟨63, 32, .ro, 0x0⟩, ⟨2, 0, .ro, 0x0⟩]⟩,
  ⟨0x80010, [], [⟨7, 7, .w1c, 0x0⟩, ⟨6, 6, .w1c, 0x0⟩, ⟨5, 5, .w1c, 0x0⟩, ⟨4, 4, .w1c, 0x0⟩, ⟨3, 3, .w1c, 0x0⟩, ⟨2, 2, .w1c, 0x0⟩, ⟨1, 1, .w1c, 0x0⟩, ⟨0, 0, .w1c, 0x0⟩]⟩,
  ⟨0x80018, [], [⟨1, 1, .ro, 0x0⟩, ⟨0, 0, .ro, 0x0⟩]⟩,
  ⟨0x80020, [(2, 0x8)], [⟨31, 0, .rw, 0x0⟩]⟩,
  ⟨0x80030, [(2, 0x8)], [⟨47, 0, .sh, 0x0⟩]⟩,
  ⟨0x80040, [(2, 0x8)], [⟨47, 0, .sh, 0x0⟩]⟩,
  ⟨0x80050, [(2, 0x8)], [⟨47, 0, .sh, 0x0⟩]⟩,
  ⟨0x80060, [], [⟨47, 0, .sh, 0x0⟩]⟩,
  ⟨0x80068, [], [⟨39, 0, .sh, 0x0⟩]⟩,
  ⟨0x80070, [], [⟨39, 0, .sh, 0x0⟩]⟩,
  ⟨0x80078, [], [⟨39, 0, .sh, 0x0⟩]⟩,
  ⟨0x80080, [], [⟨31, 0, .sh, 0x0⟩]⟩,
  ⟨0x80088, [], [⟨63, 63, .sh, 0x0⟩, ⟨35, 32, .sh, 0x0⟩, ⟨31, 0, .sh, 0x3f800000⟩]⟩,
  ⟨0x80090, [], [⟨63, 32, .ro, 0x3f800000⟩, ⟨31, 0, .ro, 0x0⟩]⟩,
  ⟨0x80098, [], [⟨59, 48, .sh, 0x0⟩, ⟨47, 0, .sh, 0x0⟩]⟩,
  ⟨0x800a0, [], [⟨63, 63, .sh, 0x0⟩, ⟨58, 48, .sh, 0x0⟩, ⟨41, 32, .sh, 0x0⟩, ⟨19, 0, .sh, 0x0⟩]⟩,
  ⟨0x800a8, [], [⟨63, 32, .ro, 0x0⟩, ⟨31, 0, .ro, 0x0⟩]⟩,
  ⟨0x800b8, [], [⟨63, 32, .ro, 0x0⟩, ⟨31, 0, .ro, 0x0⟩]⟩,
  ⟨0x800b0, [], [⟨31, 0, .ro, 0x0⟩]⟩,
  ⟨0x800c0, [], [⟨32, 32, .rw, 0x0⟩, ⟨31, 0, .ro, 0x0⟩]⟩,
  ⟨0x800c8, [], [⟨63, 32, .sh, 0x7f800000⟩, ⟨31, 0, .sh, 0x7f800000⟩]⟩,
  ⟨0x800d0, [], [⟨33, 33, .sh, 0x0⟩, ⟨32, 32, .sh, 0x0⟩, ⟨31, 0, .sh, 0x3c23d70a⟩]⟩,
  ⟨0x800d8, [], [⟨36, 32, .sh, 0x1f⟩, ⟨31, 0, .sh, 0xffffffff⟩]⟩,
  ⟨0x800e0, [], [⟨63, 32, .ro, 0x0⟩, ⟨31, 16, .ro, 0x0⟩, ⟨15, 0, .ro, 0x0⟩]⟩,
  ⟨0x80200, [(64, 0x8)], [⟨63, 63, .sh, 0x0⟩, ⟨57, 56, .sh, 0x0⟩, ⟨39, 0, .sh, 0x0⟩]⟩,
  ⟨0x80400, [(4, 0x20)], [⟨2, 0, .sh, 0x2⟩]⟩,
  ⟨0x80408, [(4, 0x20)], [⟨63, 32, .sh, 0x0⟩, ⟨31, 0, .sh, 0x0⟩]⟩,
  ⟨0x80410, [(4, 0x20)], [⟨63, 32, .sh, 0x3f7fbe77⟩, ⟨31, 0, .sh, 0x3f666666⟩]⟩,
  ⟨0x80418, [(4, 0x20)], [⟨63, 32, .sh, 0x3f800000⟩, ⟨31, 0, .sh, 0x322bcc77⟩]⟩,
  ⟨0x80600, [(16, 0x8)], [⟨63, 32, .ro, 0x0⟩, ⟨31, 0, .ro, 0x0⟩]⟩]

/-- The registers of block RED. -/
def regTabRED : List RegSpec := [
  ⟨0x90000, [], [⟨63, 62, .sh, 0x0⟩, ⟨52, 48, .sh, 0x1⟩, ⟨44, 32, .sh, 0x1⟩, ⟨11, 0, .sh, 0x0⟩]⟩,
  ⟨0x90008, [], [⟨46, 32, .sh, 0x0⟩, ⟨14, 0, .sh, 0x0⟩]⟩,
  ⟨0x90010, [], [⟨46, 32, .sh, 0x0⟩, ⟨14, 0, .sh, 0x0⟩]⟩,
  ⟨0x90018, [], [⟨3, 0, .sh, 0x0⟩, ⟨7, 4, .sh, 0x0⟩, ⟨11, 8, .sh, 0x0⟩, ⟨15, 12, .sh, 0x0⟩, ⟨19, 16, .sh, 0x0⟩, ⟨23, 20, .sh, 0x0⟩, ⟨27, 24, .sh, 0x0⟩, ⟨31, 28, .sh, 0x0⟩, ⟨35, 32, .sh, 0x0⟩, ⟨39, 36, .sh, 0x0⟩, ⟨43, 40, .sh, 0x0⟩, ⟨47, 44, .sh, 0x0⟩, ⟨51, 48, .sh, 0x0⟩, ⟨55, 52, .sh, 0x0⟩, ⟨59, 56, .sh, 0x0⟩, ⟨63, 60, .sh, 0x0⟩]⟩,
  ⟨0x90020, [], [⟨53, 48, .sh, 0x1⟩, ⟨45, 40, .sh, 0x1⟩, ⟨37, 32, .sh, 0x1⟩, ⟨14, 0, .sh, 0x0⟩]⟩,
  ⟨0x90028, [], [⟨60, 48, .sh, 0x0⟩, ⟨47, 0, .sh, 0x0⟩]⟩,
  ⟨0x90030, [], [⟨63, 32, .ro, 0x0⟩, ⟨31, 16, .ro, 0x0⟩, ⟨8, 8, .ro, 0x0⟩, ⟨0, 0, .ro, 0x0⟩]⟩,
  ⟨0x90038, [], [⟨10, 10, .w1c, 0x0⟩, ⟨9, 9, .w1c, 0x0⟩, ⟨8, 8, .w1c, 0x0⟩, ⟨7, 7, .w1c, 0x0⟩, ⟨6, 6, .w1c, 0x0⟩, ⟨5, 5, .w1c, 0x0⟩, ⟨4, 4, .w1c, 0x0⟩, ⟨3, 3, .w1c, 0x0⟩, ⟨2, 2, .w1c, 0x0⟩, ⟨1, 1, .w1c, 0x0⟩, ⟨0, 0, .w1c, 0x0⟩]⟩,
  ⟨0x90040, [], [⟨63, 32, .rw, 0x4000000⟩, ⟨1, 1, .wo, 0x0⟩, ⟨0, 0, .wo, 0x0⟩]⟩,
  ⟨0x90048, [], [⟨63, 32, .ro, 0x0⟩, ⟨31, 16, .ro, 0x0⟩, ⟨15, 8, .ro, 0x0⟩, ⟨7, 5, .ro, 0x0⟩, ⟨4, 3, .ro, 0x0⟩]⟩,
  ⟨0x90050, [], [⟨63, 32, .ro, 0x0⟩, ⟨31, 0, .ro, 0x0⟩]⟩,
  ⟨0x90058, [], [⟨12, 8, .ro, 0x0⟩, ⟨4, 0, .ro, 0x0⟩]⟩,
  ⟨0x90080, [(8, 0x8)], [⟨63, 0, .ro, 0x0⟩]⟩,
  ⟨0x90100, [(16, 0x8)], [⟨60, 48, .ro, 0x0⟩, ⟨44, 32, .ro, 0x0⟩, ⟨1, 0, .ro, 0x0⟩]⟩,
  ⟨0x90180, [(16, 0x8)], [⟨63, 48, .ro, 0x0⟩, ⟨47, 40, .ro, 0x0⟩, ⟨39, 32, .ro, 0x0⟩, ⟨31, 0, .ro, 0x0⟩]⟩]

/-- The registers of block LNK. -/
def regTabLNK : List RegSpec := [
  ⟨0xa0000, [], [⟨16, 16, .ro, 0x0⟩, ⟨14, 10, .rw, 0x0⟩, ⟨9, 5, .rw, 0x0⟩, ⟨4, 0, .rw, 0x0⟩]⟩,
  ⟨0xa0008, [], [⟨17, 12, .rw, 0x1⟩, ⟨11, 6, .rw, 0x1⟩, ⟨5, 0, .rw, 0x1⟩]⟩,
  ⟨0xa0010, [], [⟨2, 2, .ro, 0x0⟩, ⟨1, 1, .ro, 0x0⟩, ⟨0, 0, .ro, 0x0⟩]⟩,
  ⟨0xa0018, [], [⟨9, 9, .w1c, 0x0⟩, ⟨8, 8, .w1c, 0x0⟩, ⟨7, 7, .w1c, 0x0⟩, ⟨6, 6, .w1c, 0x0⟩, ⟨5, 5, .w1c, 0x0⟩, ⟨4, 4, .w1c, 0x0⟩, ⟨3, 3, .w1c, 0x0⟩, ⟨2, 2, .w1c, 0x0⟩, ⟨1, 1, .w1c, 0x0⟩, ⟨0, 0, .w1c, 0x0⟩]⟩,
  ⟨0xa0020, [], [⟨63, 32, .rw, 0x989680⟩, ⟨31, 8, .rw, 0xfa0⟩, ⟨7, 0, .rw, 0x10⟩]⟩,
  ⟨0xa0028, [], [⟨31, 0, .rw, 0x400000⟩]⟩,
  ⟨0xa0040, [(3, 0x8)], [⟨1, 0, .rw, 0x0⟩, ⟨3, 2, .rw, 0x0⟩, ⟨5, 4, .rw, 0x0⟩, ⟨7, 6, .rw, 0x0⟩, ⟨9, 8, .rw, 0x0⟩, ⟨11, 10, .rw, 0x0⟩, ⟨13, 12, .rw, 0x0⟩, ⟨15, 14, .rw, 0x0⟩, ⟨17, 16, .rw, 0x0⟩, ⟨19, 18, .rw, 0x0⟩, ⟨21, 20, .rw, 0x0⟩, ⟨23, 22, .rw, 0x0⟩, ⟨25, 24, .rw, 0x0⟩, ⟨27, 26, .rw, 0x0⟩, ⟨29, 28, .rw, 0x0⟩, ⟨31, 30, .rw, 0x0⟩, ⟨33, 32, .rw, 0x0⟩, ⟨35, 34, .rw, 0x0⟩, ⟨37, 36, .rw, 0x0⟩, ⟨39, 38, .rw, 0x0⟩, ⟨41, 40, .rw, 0x0⟩, ⟨43, 42, .rw, 0x0⟩, ⟨45, 44, .rw, 0x0⟩, ⟨47, 46, .rw, 0x0⟩, ⟨49, 48, .rw, 0x0⟩, ⟨51, 50, .rw, 0x0⟩, ⟨53, 52, .rw, 0x0⟩, ⟨55, 54, .rw, 0x0⟩, ⟨57, 56, .rw, 0x0⟩, ⟨59, 58, .rw, 0x0⟩, ⟨61, 60, .rw, 0x0⟩, ⟨63, 62, .rw, 0x0⟩]⟩,
  ⟨0xa0100, [(6, 0x8)], [⟨1, 0, .rw, 0x2⟩]⟩,
  ⟨0xa0140, [(6, 0x8)], [⟨46, 32, .ro, 0x0⟩, ⟨26, 24, .ro, 0x0⟩, ⟨17, 16, .ro, 0x0⟩, ⟨7, 0, .ro, 0x0⟩]⟩,
  ⟨0xa0180, [(6, 0x8)], [⟨63, 0, .ro, 0x0⟩]⟩,
  ⟨0xa0400, [(48, 0x8)], [⟨11, 8, .ro, 0x0⟩, ⟨3, 0, .ro, 0x0⟩]⟩,
  ⟨0xa0600, [(48, 0x8)], [⟨63, 48, .ro, 0x0⟩, ⟨47, 32, .ro, 0x0⟩, ⟨31, 16, .ro, 0x0⟩, ⟨15, 0, .ro, 0x0⟩]⟩,
  ⟨0xa0800, [(48, 0x8)], [⟨63, 48, .ro, 0x0⟩, ⟨47, 0, .ro, 0x0⟩]⟩,
  ⟨0xa0a00, [(48, 0x8)], [⟨1, 1, .w1s, 0x0⟩, ⟨0, 0, .wo, 0x0⟩]⟩]

/-- The registers of block SYN. -/
def regTabSYN : List RegSpec := [
  ⟨0xb0000, [], [⟨31, 0, .rw, 0x1000000⟩]⟩,
  ⟨0xb0008, [], [⟨5, 5, .w1c, 0x0⟩, ⟨4, 4, .w1c, 0x0⟩, ⟨3, 3, .w1c, 0x0⟩, ⟨2, 2, .w1c, 0x0⟩, ⟨1, 1, .w1c, 0x0⟩, ⟨0, 0, .w1c, 0x0⟩]⟩,
  ⟨0xb0010, [], [⟨63, 48, .ro, 0x0⟩, ⟨47, 32, .ro, 0x0⟩, ⟨31, 16, .ro, 0x0⟩, ⟨15, 0, .ro, 0x0⟩]⟩,
  ⟨0xb0018, [(2, 0x8)], [⟨3, 0, .ro, 0x0⟩, ⟨7, 4, .ro, 0x0⟩, ⟨11, 8, .ro, 0x0⟩, ⟨15, 12, .ro, 0x0⟩, ⟨19, 16, .ro, 0x0⟩, ⟨23, 20, .ro, 0x0⟩, ⟨27, 24, .ro, 0x0⟩, ⟨31, 28, .ro, 0x0⟩, ⟨35, 32, .ro, 0x0⟩, ⟨39, 36, .ro, 0x0⟩, ⟨43, 40, .ro, 0x0⟩, ⟨47, 44, .ro, 0x0⟩, ⟨51, 48, .ro, 0x0⟩, ⟨55, 52, .ro, 0x0⟩, ⟨59, 56, .ro, 0x0⟩, ⟨63, 60, .ro, 0x0⟩]⟩,
  ⟨0xb0040, [(9, 0x10)], [⟨63, 48, .wo, 0x0⟩, ⟨43, 40, .wo, 0x0⟩, ⟨39, 36, .wo, 0x0⟩, ⟨35, 35, .wo, 0x0⟩, ⟨34, 34, .wo, 0x0⟩, ⟨33, 32, .wo, 0x0⟩, ⟨2, 0, .wo, 0x0⟩]⟩,
  ⟨0xb0048, [(9, 0x10)], [⟨63, 48, .ro, 0x0⟩, ⟨20, 16, .ro, 0x0⟩, ⟨9, 8, .ro, 0x0⟩, ⟨2, 0, .ro, 0x0⟩]⟩,
  ⟨0xb0100, [(16, 0x8)], [⟨44, 32, .ro, 0x0⟩, ⟨9, 8, .ro, 0x0⟩, ⟨4, 4, .da, 0x0⟩, ⟨0, 0, .wo, 0x0⟩]⟩,
  ⟨0xb0200, [], [⟨63, 63, .ro, 0x0⟩, ⟨11, 0, .rw, 0x0⟩]⟩,
  ⟨0xb0208, [], [⟨63, 63, .ro, 0x0⟩, ⟨48, 48, .ro, 0x0⟩, ⟨44, 32, .ro, 0x0⟩, ⟨19, 16, .ro, 0x0⟩, ⟨15, 0, .ro, 0x0⟩]⟩,
  ⟨0xb0210, [], [⟨63, 48, .ro, 0x0⟩, ⟨44, 32, .ro, 0x0⟩, ⟨28, 16, .ro, 0x0⟩, ⟨12, 0, .ro, 0x0⟩]⟩,
  ⟨0xb0218, [], [⟨63, 48, .ro, 0x0⟩, ⟨47, 32, .ro, 0x0⟩, ⟨15, 0, .ro, 0x0⟩]⟩,
  ⟨0xb0220, [], [⟨19, 16, .wo, 0x0⟩, ⟨15, 0, .wo, 0x0⟩]⟩]

/-- The registers of block HST. -/
def regTabHST : List RegSpec := [
  ⟨0xc0000, [], [⟨31, 16, .rw, 0x2400⟩, ⟨15, 0, .rw, 0x4812⟩]⟩,
  ⟨0xc0008, [], [⟨63, 48, .ro, 0xff⟩, ⟨42, 32, .ro, 0x0⟩, ⟨3, 2, .ro, 0x1⟩, ⟨1, 1, .ro, 0x0⟩, ⟨0, 0, .ro, 0x0⟩]⟩,
  ⟨0xc0010, [], [⟨7, 7, .w1c, 0x0⟩, ⟨6, 6, .w1c, 0x0⟩, ⟨5, 5, .w1c, 0x0⟩, ⟨4, 4, .w1c, 0x0⟩, ⟨3, 3, .w1c, 0x0⟩, ⟨2, 2, .w1c, 0x0⟩, ⟨1, 1, .w1c, 0x0⟩, ⟨0, 0, .w1c, 0x0⟩]⟩,
  ⟨0xc0018, [], [⟨63, 63, .rw, 0x0⟩, ⟨14, 0, .rw, 0x0⟩]⟩,
  ⟨0xc0020, [], [⟨31, 0, .rw, 0x61a80⟩]⟩,
  ⟨0xc0028, [], [⟨63, 32, .ro, 0x21000⟩, ⟨31, 0, .ro, 0x21000⟩]⟩,
  ⟨0xc0030, [], [⟨2, 1, .ro, 0x0⟩, ⟨0, 0, .wo, 0x0⟩]⟩,
  ⟨0xc0038, [], [⟨63, 32, .rw, 0x3d0900⟩, ⟨0, 0, .rw, 0x1⟩]⟩,
  ⟨0xc0040, [], [⟨63, 48, .ro, 0x0⟩, ⟨47, 32, .ro, 0x0⟩, ⟨31, 16, .ro, 0x0⟩, ⟨15, 0, .ro, 0x0⟩]⟩,
  ⟨0xc0048, [], [⟨63, 32, .rw, 0x0⟩, ⟨31, 16, .rw, 0x0⟩, ⟨2, 2, .rw, 0x0⟩, ⟨1, 1, .rw, 0x0⟩, ⟨0, 0, .w1s, 0x0⟩]⟩,
  ⟨0xc0050, [(4, 0x8)], [⟨63, 0, .rw, 0x0⟩]⟩,
  ⟨0xc0100, [(8, 0x8)], [⟨31, 31, .rw, 0x0⟩, ⟨30, 28, .rw, 0x0⟩, ⟨27, 16, .rw, 0x0⟩, ⟨0, 0, .rw, 0x1⟩]⟩,
  ⟨0xc0140, [(8, 0x8)], [⟨47, 0, .rw, 0x0⟩]⟩,
  ⟨0xc0180, [(8, 0x8)], [⟨33, 33, .rw, 0x0⟩, ⟨32, 32, .rw, 0x0⟩, ⟨31, 0, .rw, 0x0⟩]⟩,
  ⟨0xc0200, [(8, 0x10), (2, 0x8)], [⟨63, 0, .rw, 0x0⟩]⟩,
  ⟨0xc0280, [(8, 0x8)], [⟨47, 32, .ro, 0x0⟩, ⟨1, 0, .ro, 0x0⟩]⟩,
  ⟨0xc02c0, [(8, 0x8)], [⟨63, 32, .ro, 0x0⟩, ⟨31, 0, .ro, 0x0⟩]⟩,
  ⟨0xc0400, [(16, 0x8)], [⟨63, 63, .da, 0x0⟩, ⟨62, 62, .da, 0x0⟩, ⟨61, 60, .da, 0x0⟩, ⟨7, 0, .da, 0x0⟩]⟩,
  ⟨0xc0480, [(16, 0x10), (2, 0x8)], [⟨63, 0, .da, 0x0⟩]⟩]

/-- The registers of block RAS. -/
def regTabRAS : List RegSpec := [
  ⟨0xd0000, [], [⟨47, 32, .rw, 0xe10⟩, ⟨1, 1, .sh, 0x0⟩, ⟨0, 0, .sh, 0x0⟩]⟩,
  ⟨0xd0008, [], [⟨40, 32, .ro, 0x0⟩, ⟨22, 16, .ro, 0x0⟩, ⟨2, 2, .ro, 0x0⟩, ⟨1, 1, .ro, 0x0⟩, ⟨0, 0, .ro, 0x0⟩]⟩,
  ⟨0xd0010, [], [⟨7, 7, .w1c, 0x0⟩, ⟨6, 6, .w1c, 0x0⟩, ⟨5, 5, .w1c, 0x0⟩, ⟨4, 4, .w1c, 0x0⟩, ⟨3, 3, .w1c, 0x0⟩, ⟨2, 2, .w1c, 0x0⟩, ⟨1, 1, .w1c, 0x0⟩, ⟨0, 0, .w1c, 0x0⟩]⟩,
  ⟨0xd0018, [], [⟨31, 16, .wo, 0x0⟩, ⟨1, 0, .wo, 0x0⟩]⟩,
  ⟨0xd0020, [], [⟨63, 48, .sh, 0x0⟩, ⟨47, 0, .sh, 0x0⟩]⟩,
  ⟨0xd0028, [], [⟨63, 48, .ro, 0x0⟩, ⟨47, 0, .ro, 0x0⟩]⟩,
  ⟨0xd0030, [], [⟨47, 0, .sh, 0x0⟩]⟩,
  ⟨0xd0038, [], [⟨42, 32, .ro, 0x7ff⟩, ⟨0, 0, .wo, 0x0⟩]⟩,
  ⟨0xd0040, [], [⟨63, 0, .ro, 0x0⟩]⟩,
  ⟨0xd0048, [], [⟨63, 63, .ro, 0x0⟩, ⟨47, 0, .rw, 0x0⟩]⟩,
  ⟨0xd0080, [(8, 0x8)], [⟨63, 0, .ro, 0x0⟩]⟩,
  ⟨0xd0100, [(16, 0x8)], [⟨47, 0, .ro, 0x0⟩]⟩,
  ⟨0xd0180, [(16, 0x8)], [⟨47, 0, .ro, 0x0⟩]⟩,
  ⟨0xd0400, [(64, 0x8)], [⟨63, 48, .ro, 0x0⟩, ⟨47, 32, .ro, 0x0⟩, ⟨31, 0, .ro, 0x0⟩]⟩]

/-- The registers of block CKP. -/
def regTabCKP : List RegSpec := [
  ⟨0xe0000, [], [⟨55, 48, .rw, 0xa⟩, ⟨39, 32, .rw, 0xa⟩, ⟨0, 0, .rw, 0x0⟩]⟩,
  ⟨0xe0008, [], [⟨63, 32, .ro, 0x0⟩, ⟨5, 5, .ro, 0x0⟩, ⟨2, 0, .ro, 0x0⟩]⟩,
  ⟨0xe0010, [], [⟨5, 5, .w1c, 0x0⟩, ⟨4, 4, .w1c, 0x0⟩, ⟨3, 3, .w1c, 0x0⟩, ⟨2, 2, .w1c, 0x0⟩, ⟨1, 1, .w1c, 0x0⟩, ⟨0, 0, .w1c, 0x0⟩]⟩,
  ⟨0xe0018, [], [⟨54, 48, .sh, 0x0⟩, ⟨47, 0, .sh, 0x0⟩]⟩,
  ⟨0xe0020, [], [⟨63, 32, .ro, 0x0⟩, ⟨31, 0, .ro, 0x0⟩]⟩,
  ⟨0xe0040, [(4, 0x10)], [⟨63, 63, .ro, 0x0⟩, ⟨62, 62, .ro, 0x0⟩, ⟨46, 32, .ro, 0x0⟩, ⟨31, 0, .ro, 0x0⟩]⟩,
  ⟨0xe0048, [(4, 0x10)], [⟨63, 32, .ro, 0x0⟩, ⟨31, 0, .ro, 0x0⟩]⟩]

/-- The registers of block SEC. -/
def regTabSEC : List RegSpec := [
  ⟨0xf0000, [], [⟨23, 16, .ro, 0x0⟩, ⟨15, 8, .ro, 0xff⟩, ⟨7, 0, .ro, 0xff⟩]⟩,
  ⟨0xf0008, [], [⟨15, 8, .ro, 0x0⟩, ⟨7, 0, .ro, 0x0⟩]⟩,
  ⟨0xf0010, [], [⟨63, 63, .ro, 0x0⟩, ⟨1, 1, .da, 0x0⟩, ⟨0, 0, .da, 0x0⟩]⟩,
  ⟨0xf0018, [], [⟨63, 0, .ro, 0x0⟩]⟩,
  ⟨0xf0020, [], [⟨15, 8, .ro, 0x0⟩, ⟨1, 0, .ro, 0x0⟩]⟩,
  ⟨0xf0028, [], [⟨63, 63, .wo, 0x0⟩, ⟨47, 0, .rw, 0x0⟩]⟩,
  ⟨0xf0030, [], [⟨1, 1, .ro, 0x0⟩, ⟨0, 0, .wo, 0x0⟩]⟩,
  ⟨0xf0038, [], [⟨11, 0, .ro, 0x0⟩]⟩,
  ⟨0xf0600, [(16, 0x8)], [⟨0, 0, .da, 0x0⟩]⟩,
  ⟨0xf0040, [(4, 0x8)], [⟨63, 0, .ro, 0x0⟩]⟩,
  ⟨0xf0060, [(4, 0x8)], [⟨63, 0, .rw, 0x0⟩]⟩,
  ⟨0xf0100, [(2, 0x80), (4, 0x20), (4, 0x8)], [⟨63, 0, .ro, 0x0⟩]⟩,
  ⟨0xf0200, [(32, 0x8)], [⟨63, 0, .wo, 0x0⟩]⟩,
  ⟨0xf0300, [(6, 0x20), (4, 0x8)], [⟨63, 0, .ro, 0x0⟩]⟩,
  ⟨0xf0400, [(16, 0x20), (4, 0x8)], [⟨63, 0, .da, 0x0⟩]⟩,
  ⟨0xf0700, [(48, 0x8)], [⟨63, 0, .ro, 0x0⟩]⟩,
  ⟨0xf0800, [(256, 0x8)], [⟨63, 0, .ro, 0x0⟩]⟩]

/-- The registers of block MGT. -/
def regTabMGT : List RegSpec := [
  ⟨0x100000, [], [⟨1, 0, .rw, 0x0⟩]⟩,
  ⟨0x100008, [], [⟨63, 16, .ro, 0x5c6af2010000⟩, ⟨7, 1, .ro, 0x0⟩, ⟨0, 0, .ro, 0x0⟩]⟩,
  ⟨0x100010, [], [⟨7, 7, .w1c, 0x0⟩, ⟨6, 6, .w1c, 0x0⟩, ⟨5, 5, .w1c, 0x0⟩, ⟨4, 4, .w1c, 0x0⟩, ⟨3, 3, .w1c, 0x0⟩, ⟨2, 2, .w1c, 0x0⟩, ⟨1, 1, .w1c, 0x0⟩, ⟨0, 0, .w1c, 0x0⟩]⟩,
  ⟨0x100018, [], [⟨10, 8, .rw, 0x5⟩, ⟨7, 0, .rw, 0x15⟩]⟩,
  ⟨0x100020, [], [⟨0, 0, .wo, 0x0⟩]⟩,
  ⟨0x100040, [(8, 0x8)], [⟨63, 0, .ro, 0x0⟩]⟩]

/-- The registers of block BEN. -/
def regTabBEN : List RegSpec := [
  ⟨0x0, [], [⟨11, 10, .ro, 0x0⟩, ⟨9, 8, .ro, 0x0⟩, ⟨0, 0, .ro, 0x0⟩]⟩,
  ⟨0x8, [], [⟨47, 0, .ro, 0x0⟩]⟩,
  ⟨0x20, [], [⟨47, 0, .ro, 0x0⟩]⟩,
  ⟨0x28, [], [⟨47, 0, .ro, 0x0⟩]⟩,
  ⟨0x30, [], [⟨47, 0, .ro, 0x0⟩]⟩,
  ⟨0x38, [], [⟨47, 0, .ro, 0x0⟩]⟩,
  ⟨0x40, [], [⟨6, 0, .ro, 0x0⟩]⟩,
  ⟨0x48, [], [⟨0, 0, .wo, 0x0⟩]⟩,
  ⟨0x50, [], [⟨47, 0, .ro, 0x0⟩]⟩,
  ⟨0x58, [], [⟨63, 0, .ro, 0x0⟩]⟩,
  ⟨0x100, [], [⟨20, 20, .w1c, 0x0⟩, ⟨17, 16, .ro, 0x0⟩, ⟨15, 10, .ro, 0x0⟩, ⟨9, 0, .ro, 0x0⟩]⟩,
  ⟨0x108, [], [⟨47, 0, .ro, 0x0⟩]⟩,
  ⟨0x110, [], [⟨63, 62, .ro, 0x0⟩, ⟨57, 48, .ro, 0x0⟩, ⟨47, 0, .ro, 0x0⟩]⟩,
  ⟨0x200, [(3, 0x8)], [⟨63, 0, .sh, 0x0⟩]⟩,
  ⟨0x218, [], [⟨47, 0, .ro, 0x0⟩]⟩,
  ⟨0x220, [], [⟨47, 0, .ro, 0x0⟩]⟩,
  ⟨0x228, [], [⟨47, 0, .ro, 0x0⟩]⟩,
  ⟨0x230, [], [⟨47, 0, .ro, 0x0⟩]⟩,
  ⟨0x238, [], [⟨47, 0, .ro, 0x0⟩]⟩,
  ⟨0x240, [], [⟨47, 0, .ro, 0x0⟩]⟩,
  ⟨0x248, [], [⟨63, 63, .ro, 0x0⟩, ⟨62, 62, .ro, 0x0⟩, ⟨47, 0, .ro, 0x0⟩]⟩,
  ⟨0x250, [], [⟨47, 0, .ro, 0x0⟩]⟩,
  ⟨0x258, [], [⟨22, 20, .ro, 0x0⟩, ⟨17, 17, .w1c, 0x0⟩, ⟨16, 16, .w1c, 0x0⟩, ⟨13, 8, .ro, 0x0⟩, ⟨1, 0, .ro, 0x0⟩]⟩,
  ⟨0x260, [], [⟨7, 0, .sh, 0x0⟩]⟩,
  ⟨0x300, [(8, 0x10)], [⟨51, 32, .ro, 0x0⟩, ⟨19, 0, .ro, 0x0⟩]⟩,
  ⟨0x308, [(8, 0x10)], [⟨63, 32, .ro, 0x1⟩, ⟨0, 0, .ro, 0x0⟩]⟩,
  ⟨0x380, [(8, 0x10)], [⟨63, 63, .ro, 0x0⟩, ⟨19, 16, .ro, 0x0⟩, ⟨15, 13, .ro, 0x0⟩, ⟨9, 0, .ro, 0x0⟩]⟩,
  ⟨0x388, [(8, 0x10)], [⟨63, 32, .ro, 0x0⟩, ⟨20, 0, .ro, 0x0⟩]⟩,
  ⟨0x400, [], [⟨63, 32, .ro, 0x0⟩, ⟨21, 16, .ro, 0x0⟩, ⟨12, 12, .ro, 0x0⟩, ⟨11, 11, .ro, 0x0⟩, ⟨10, 0, .ro, 0x0⟩]⟩,
  ⟨0x408, [], [⟨32, 32, .w1c, 0x0⟩, ⟨31, 0, .ro, 0x0⟩]⟩]

/-- The registers of a block by its number (R402); 17 is BEN. -/
def regTab (blk : Nat) : List RegSpec :=
  match blk with
  | 0 => regTabGLB
  | 1 => regTabPWR
  | 2 => regTabFAB
  | 3 => regTabTMAP
  | 4 => regTabNUM
  | 5 => regTabMEM
  | 6 => regTabWRD
  | 7 => regTabQUE
  | 8 => regTabSBD
  | 9 => regTabRED
  | 10 => regTabLNK
  | 11 => regTabSYN
  | 12 => regTabHST
  | 13 => regTabRAS
  | 14 => regTabCKP
  | 15 => regTabSEC
  | 16 => regTabMGT
  | 17 => regTabBEN
  | _ => []

end Sys2Proof.Machine
end

