-- ==== Sys2Proof/Machine/SMap.lean ====
section
/-! DEFINITION. Sparse maps from numbers, as lists in one canonical form: keys rise strictly and no entry equals what
an unlisted key reads as. -/

namespace Sys2Proof.Machine

/-- A sparse map: the listed keys, rising, with their values. -/
abbrev SMap (α : Type) := List (Nat × α)

/-- A memory: the bytes that are not zero (R165, R188: a cleared byte is zero). -/
abbrev Mem := List Host.Cell

/-- The listed value of a key. -/
def SMap.find? {α : Type} : SMap α → Nat → Option α
  | [], _ => none
  | (k, v) :: t, x => if x = k then some v else SMap.find? t x

/-- The map with `x` listed at `v`. -/
def SMap.insert {α : Type} : SMap α → Nat → α → SMap α
  | [], x, v => [(x, v)]
  | (k, w) :: t, x, v =>
    if x < k then (x, v) :: (k, w) :: t
    else if x = k then (x, v) :: t
    else (k, w) :: SMap.insert t x v

/-- The map with `x` unlisted. -/
def SMap.erase {α : Type} : SMap α → Nat → SMap α
  | [], _ => []
  | (k, w) :: t, x => if x = k then SMap.erase t x else (k, w) :: SMap.erase t x

/-- The value of a key, `d` where it is unlisted. -/
def SMap.get {α : Type} (m : SMap α) (d : α) (x : Nat) : α := (SMap.find? m x).getD d

/-- The map with `x` at `v`; the default is not listed. -/
def SMap.set {α : Type} [DecidableEq α] (m : SMap α) (d : α) (x : Nat) (v : α) : SMap α :=
  if v = d then SMap.erase m x else SMap.insert m x v

/-- The canonical form: keys rise strictly, no entry is its key's default. -/
def SMap.wf {α : Type} [DecidableEq α] (d : Nat → α) : SMap α → Bool
  | [] => true
  | (k, v) :: t => decide (v ≠ d k) && t.all (fun e => decide (k < e.1)) && SMap.wf d t

/-- One byte of a memory. -/
def Mem.rd (m : Mem) (a : Nat) : Byte := SMap.get m 0 a

/-- A memory with one byte written. -/
def Mem.wr (m : Mem) (a : Nat) (b : Byte) : Mem := SMap.set m 0 a b

/-- The canonical form of a memory. -/
def Mem.wf (m : Mem) : Bool := SMap.wf (fun _ => (0 : Byte)) m

/-- `n` bytes from address `a`, ascending. -/
def Mem.rdN (m : Mem) (a : Nat) : Nat → List Byte
  | 0 => []
  | n + 1 => Mem.rd m a :: Mem.rdN m (a + 1) n

/-- A memory with a byte string written from address `a`, ascending. -/
def Mem.wrN (m : Mem) (a : Nat) : List Byte → Mem
  | [] => m
  | b :: bs => Mem.wrN (Mem.wr m a b) (a + 1) bs

/-- The little-endian number in `n` bytes from `a` (R3). -/
def Mem.le (m : Mem) (a n : Nat) : Nat := leNat (Mem.rdN m a n)

/-- The listed bytes of the range of `n` bytes from `a`. -/
def Mem.slice (m : Mem) (a n : Nat) : Mem := m.filter (fun e => decide (a ≤ e.1) && decide (e.1 < a + n))

/-- A memory with the range of `n` bytes from `a` cleared to zero. -/
def Mem.clr (m : Mem) (a n : Nat) : Mem := m.filter (fun e => !(decide (a ≤ e.1) && decide (e.1 < a + n)))

/-- `dst` with the `n` bytes of `src` at `a` copied to `b`. -/
def Mem.copy (src : Mem) (a : Nat) (dst : Mem) (b n : Nat) : Mem :=
  (Mem.slice src a n).foldl (fun m e => Mem.wr m (e.1 - a + b) e.2) (Mem.clr dst b n)

end Sys2Proof.Machine
end

