-- ==== Sys2Proof/Machine/State.lean ====
section
/-! DEFINITION. The state of one Dalnex die as plain data, its fault and refusal reasons, and the state at reset.
Every register field has its home in `regs`; the other fields hold what the manual gives the die beside its registers. -/

namespace Sys2Proof.Machine

/-- What a decoded image's manifest declares (Table 03.5). -/
structure Manifest where
  planeMask : Nat := 0
  partMask  : Nat := 0
  loadKind  : Nat := 0
  contexts  : Nat := 0
  planeKind : List Nat := []
  rowWidth  : List Nat := []
  shelfBase : Nat := 0
  shelfBytes : Nat := 0
  wrdBase   : Nat := 0
  wrdBytes  : Nat := 0
  chestBase : Nat := 0
  chestBytes : Nat := 0
  queueMask : Nat := 0
  linkMask  : Nat := 0
  qstoreUnits : Nat := 0
  syncObjects : Nat := 0
  redChannels : Nat := 0
  maxMb     : Nat := 0
  powerClaim : Nat := 0
  scratch   : List Nat := []
  deriving DecidableEq, Repr

/-- A loaded image (R69, R70): where it was loaded from, its identity, its manifest, its digest, and whether a map
change has made it unfit (R87). -/
structure Image where
  addr   : Nat
  id     : Nat
  length : Nat
  man    : Manifest
  unfit  : Bool := false
  deriving DecidableEq, Repr

/-- A load in progress (Table 03.7). `chan` names the LOAD command it serves, if one. -/
structure Load where
  staged : Bool
  addr   : Nat
  chan   : Option (Nat × Nat) := none
  wakeAt : Nat := 0
  digest : List Byte := []
  deriving DecidableEq, Repr

/-- The RUN that a micro-batch belongs to (Table 13.4), with its RUN index (R409). -/
structure Run where
  drawer   : Nat := 0
  kind     : Nat := 0
  accStart : Bool := false
  accDrain : Bool := false
  step     : Nat := 0
  mb       : Nat := 0
  tokens   : Nat := 0
  pos      : Nat := 0
  kvMask   : Nat := 0
  kvStride : Nat := 0
  chan     : Nat := 0
  seq      : Nat := 0
  index    : Option Nat := none
  deriving DecidableEq, Repr

/-- A micro-batch in the fabric: its RUN, the logical tiles that have reported DONE, those whose report has reached the
home cell, the stamp of the first DONE, the queues whose END packet has been taken, and whether its boundary token has
been sent. -/
structure Micro where
  run      : Run
  done     : List Nat := []
  home     : List Nat := []
  firstDone : Option Nat := none
  lastToken : Nat := 0
  ended    : List Nat := []
  tokenSent : Bool := false
  timedOut : Bool := false
  mismatch : List Nat := []
  lossDone : Bool := false
  digest   : Nat := 0
  flags    : Nat := 0               -- sticky bits that its DONE reports carried (R120)
  deriving DecidableEq, Repr

/-- Where the fabric stands between micro-batches (Table 03.8). -/
inductive Phase where
  | idle        -- at a drained boundary, nothing pending (R80)
  | running     -- a micro-batch is fed
  | applying    -- step 5: clears or re-encodings in progress
  | flipping    -- steps 6 to 8
  | resuming    -- step 9 is due
  deriving DecidableEq, Repr

/-- The fabric's sequencing state (R76 to R83). -/
structure Fab where
  phase   : Phase := .idle
  micros  : List Micro := []
  next    : Option Run := none
  ready   : List Nat := []
  tokens  : SMap Nat := []          -- tile * 64 + route ↦ tokens arrived and not yet consumed
  prodTok : List (Nat × Run) := []  -- tokens that have arrived on PRODUCE and DEVICE_QUEUE routes: tile * 64 + route, RUN
  clears  : List Nat := []          -- physical Benches whose clears are outstanding (R86, R173)
  reenc   : List (Bool × Nat) := [] -- regions being re-encoded (shelf?, region) (R160)
  moving  : List Nat := []          -- rows whose map change waits for clears (R80)
  aborting : Bool := false
  abortChan : List (Nat × Nat) := []
  swapFrom : Nat := 0
  fed     : Nat := 0
  deriving DecidableEq, Repr

/-- An operand block in a stager (R100). `out` collects the prologue's output rows (R140). -/
structure Block where
  src   : Nat
  k     : Nat
  mn    : Nat
  bytes : List Byte
  pro   : Bool                      -- a prologue has still to run
  out   : SMap Nat := []            -- row * 32 + lane ↦ element in FORMAT, plus 1
  ord   : Nat := 0                  -- blocks that entered the stagers of the micro-batch before it
  key   : List Nat := []            -- what the elements that its prologue leaves unwritten depend on (log 1)
  deriving DecidableEq, Repr

/-- A product in progress (R102, R105, R107). -/
structure Prod where
  ib   : Nat
  jb   : Nat
  bank : Nat
  srcB : Nat
  pass : Nat := 0
  k    : Nat := 0                   -- k-steps done in this pass
  sub  : Nat := 0                   -- beats done of the current k-step
  usedA : List Block := []          -- FP32: blocks whose first pass is over, kept for passes 2 and 3
  usedB : List Block := []
  deriving DecidableEq, Repr

/-- The invocation that runs on a vector unit (R131, R133). `kind`: 1 prologue, 2 epilogue, 3 deferred pass. -/
structure Inv where
  kind  : Nat
  entry : Nat
  pc    : Nat
  row   : Nat := 0
  tail  : Bool := false
  ib    : Nat := 0
  jb    : Nat := 0
  bank  : Nat := 0
  gate  : Bool := false
  src   : Nat := 0
  dpass : Nat := 0
  deriving DecidableEq, Repr

/-- A pending range of the scoreboard (R166). `unit`: 0 stager A, 1 stager B, 2 vector unit, 3 transfer engine. -/
structure SbEntry where
  unit  : Nat
  space : Nat
  lo    : Nat
  len   : Nat
  write : Bool
  deriving DecidableEq, Repr

/-- A queue packet as a consumer's route receives it (R231, R485). -/
structure RxPacket where
  route : Nat
  seq   : Nat
  words : Nat
  recv  : Nat := 0                  -- words delivered
  got   : List Byte := []           -- those that wait in the buffer
  isEnd : Bool
  deriving DecidableEq, Repr

/-- The volatile state of one physical Bench beyond its registers. -/
structure Bench where
  bankA   : SMap Word := []         -- 32 i + j ↦ ACC64, default +0
  bankB   : SMap Word := []
  vreg    : SMap (BitVec 40) := []  -- 32 r + lane ↦ FW40, default +0
  areg    : SMap Word := []
  stA     : List Block := []
  stB     : List Block := []
  landed  : List (Nat × List Byte) := []   -- stream blocks on IN entries, oldest first
  prod    : Option Prod := none
  takenA  : Nat := 0                       -- operand blocks taken by stager A and by stager B in the micro-batch
  takenB  : Nat := 0
  tileNo  : Nat := 0                       -- products finished in the micro-batch
  full    : List (Nat × Nat × Nat) := []   -- FULL banks: bank, ib, jb, oldest first
  inv     : Option Inv := none
  deferd  : List (Nat × Nat × Nat) := []   -- deferred passes due: pass, ib, jb
  rowBuf  : SMap (List Byte) := []         -- 64 * pc + row ↦ source words of a stream block or of MX columns (R143)
  pkIdx   : SMap Nat := []                 -- route or descriptor ↦ packets sent in this RUN (R411)
  sb      : List SbEntry := []
  stalled : List SbEntry := []
  started : Bool := false                  -- the current descriptor's trigger has been met
  prog    : Nat := 0                       -- bytes moved by the current descriptor
  descDone : Bool := false                 -- every descriptor of the micro-batch has completed
  moved   : Bool := false                  -- the current descriptor has finished its work
  nacked  : Bool := false
  waiting : Option Nat := none             -- stamp of the WAIT or empty-queue stall in force
  starved : Option Nat := none             -- the CONSUME route whose packet a COPY waits for
  rx      : List RxPacket := []
  strIn   : SMap Nat := []                 -- entry * 2^32 + mb ↦ credits granted and unspent
  strOut  : SMap Nat := []                 -- entry * 2^32 + mb ↦ credits held
  tagA    : SMap Nat := []
  tagW    : SMap Nat := []
  lending : Bool := false
  asking  : Bool := false
  ramp    : Nat := 0                       -- 0 full share, 1 at 1/4, 2 at 1/2
  rampAt  : Nat := 0
  report  : Nat := 0                       -- sticky bits raised in the current micro-batch (R120)
  rd      : List Byte := []                -- data of the last scratchpad or Shelf access
  turn    : SMap Nat := []                 -- bank, or 24 for the slice's port ↦ source served last (R156, R171)
  blocked : SMap Nat := []                 -- narrow source ↦ beats in which the wide port has occupied its bank (R157)
  deriving DecidableEq, Repr

/-- A remote operation outstanding (R206 to R210). `issuer` as Table 11.9 codes it. -/
structure RemoteOp where
  tag    : Nat
  issuer : Nat
  write  : Bool
  die    : Nat
  addr   : Nat
  bytes  : Nat
  stamp  : Nat
  tile   : Nat := 0
  chan   : Option (Nat × Nat) := none
  deriving DecidableEq, Repr

/-- The states of a queue packet (Table 08.2). -/
inductive PkState where
  | opening | inRing | committed | delivering
  deriving DecidableEq, Repr

/-- A packet of a queue (R219 to R231). `ring`: it is held in the ring. -/
structure QPacket where
  st      : PkState
  ring    : Bool
  prod    : Producer
  req     : OpenReq
  seq     : Nat := 0
  spilled : Bool := false
  base    : Nat := 0                -- pointer of its first word
  stampO  : Nat := 0
  stampC  : Nat := 0
  sent    : SMap Nat := []          -- consumer tile ↦ words delivered
  returning : Bool := false
  data    : List Byte := []         -- what a local Bench, BCT or a replay sends, held by the producer
  deriving DecidableEq, Repr

/-- A hardware queue beyond its registers (R221, R227). -/
structure Queue where
  pks   : List QPacket := []        -- oldest first
  turn  : Nat := 0                  -- producer order of the next turn
  wait  : List (Producer × OpenReq × List Byte) := []
  ringCommit : Nat := 0
  lastData : Nat := 0               -- stamp of the grant or of the last QUEUE_DATA (R324)
  got   : Nat := 0                  -- words of the open packet written
  deriving DecidableEq, Repr

/-- The SBD settings latched at step 4 of an update (R261), and the update's progress. -/
structure Update where
  words  : SMap Word := []          -- SBD register offset ↦ value in force at the latch
  t      : Nat := 0
  step   : Nat := 0
  next   : Nat := 0                 -- next shard element
  own    : Bool := false
  nonfinite : Nat := 0
  bad    : Bool := false
  deriving DecidableEq, Repr

/-- A bucket table entry as the device last read or wrote it (Table 10.1). -/
structure BEnt where
  chan     : Nat
  wvalid   : Bool
  window   : Int
  deadline : Nat
  first    : Nat
  count    : Nat
  stage    : Nat
  deriving DecidableEq, Repr

/-- One bucket of an attempt (R277, R282, R289). Data that waits in the staging area stands in `drained` and `wait`. -/
structure Bucket where
  drained  : SMap Nat := []         -- element ↦ FP32 pattern drained in this attempt, plus 2^32
  headSent : Bool := false          -- its own exponent header has been sent
  heads    : List (Nat × Int) := [] -- exponent headers received: sender, M
  opened   : Bool := false          -- it has reached the head of its channel and its segments are being sent
  wait     : List (Nat × Bool × Segment) := []   -- partials that wait: port, whether in the port's adder, segment
  sentTo   : List Nat := []         -- owners whose segment this device has sent
  complete : Bool := false          -- this device's own slice
  notices  : List Nat := []         -- owners whose notice has arrived
  maxexp   : Int := -32768
  localAt  : Option Nat := none     -- stamp at which local data became complete
  closed   : Bool := false
  incomplete : Bool := false
  scanned  : Bool := false
  deriving DecidableEq, Repr

/-- The reduction and the commit vote of the current attempt (R272 to R301). -/
structure Red where
  tab     : List BEnt := []         -- the bucket table at the last configuration check
  buckets : SMap Bucket := []       -- table index ↦ bucket
  kept    : List (Nat × Segment) := []   -- port and segment of the next attempt (R291)
  keptN   : List BucketHdr := []    -- notices and exponent headers of the next attempt
  flags   : Nat := 0                -- this device's flags: 0 REPEAT 1 SUSPECT 2 NONFINITE 3 WINDOW 4 ABANDON
  voted   : Bool := false           -- it has voted in the attempt
  normIn  : SMap Nat := []          -- child ↦ norm sum received, plus 1
  normAcc : Nat := 0                -- NS512 sum of the scanned buckets (R293)
  normOwn : Bool := false           -- the own sum has been contributed
  normUp  : Bool := false           -- the subtree's sum has been sent
  normDone : Bool := false          -- the total has arrived
  gathered : List Nat := []         -- first parameters of the chunks gathered for the step voted on (R301)
  gatherBad : Bool := false         -- a gathered chunk failed
  checked : Bool := false           -- the configuration has been checked since the last load
  drainDone : Bool := false         -- the RUN with ACC_DRAIN has completed
  runNext : Nat := 0                -- next RUN index of the attempt
  scanBegun : Bool := false
  voteStep : Nat := 0               -- the vote in progress: step, attempt, round, and its kind (0 VOTE, 1 CONFIRM)
  voteAtt : Nat := 0
  round   : Nat := 0
  vkind   : Nat := 0
  contributed : Option Nat := none  -- flags contributed in this round
  sentUp  : Bool := false
  ups     : List (Nat × VoteMsg) := []   -- children's up messages
  waitRevote : Bool := false
  stamp   : Nat := 0
  timedOut : Bool := false
  deriving DecidableEq, Repr

/-- Steps of link training (Table 11.2). -/
inductive Train where
  | none | pattern | locked | adapted | framed
  deriving DecidableEq, Repr

/-- A DATA or TUNNEL flit kept for replay (R310): link and bundle sequence numbers, channel (8 is the tunnel
channel), payload, the credits it returns (channel and number), the flit as it was sent, and when it was sent last. -/
structure TxFlit where
  lseq : Nat
  ch   : Nat
  bseq : Nat
  pay  : List Byte
  cr   : Nat × Nat := (0, 0)
  raw  : List Byte := []
  sent : Nat := 0
  deriving DecidableEq, Repr

/-- A packet that waits on an output bundle (R316): its input (0 to 5 a bundle, 6 local), its channel, the flit
payloads still to be sent, whether its first flit has gone, and, while a forwarded packet is still arriving (R321), the
reassembly channel its next flits come from: 16 × bundle + channel. -/
structure OutPk where
  input   : Nat
  ch      : Nat
  flits   : List (List Byte)
  started : Bool := false
  src     : Option Nat := none
  deriving DecidableEq, Repr

/-- A link beyond its registers (R305 to R311). -/
structure Link where
  train   : Train := .none
  began   : Nat := 0
  gapFrom : Option Nat := none      -- end of the last failed attempt
  retry   : List TxFlit := []       -- flits sent and not acknowledged, oldest first
  lseq    : Nat := 0                -- LSEQ of the last flit sent
  ackd    : Nat := 0                -- LSEQ of the last flit received in order
  nakked  : Bool := false
  replays : Nat := 0
  replay  : List TxFlit := []       -- flits of a replay still to be sent
  cls     : Nat := 0                -- reach class taken at the last training (R303)
  since   : Nat := 0                -- flits sent since the last NULL, at most 63 (R314)
  out     : Bool := false           -- out of service
  wire    : List Byte := []         -- the flit sent last
  deriving DecidableEq, Repr

/-- A bundle beyond its registers (R312 to R316, R336). Channel 8 is the tunnel channel. -/
structure Bundle where
  sendSeq : SMap Nat := []
  relSeq  : SMap Nat := []
  spent   : SMap Nat := []          -- credits spent per channel
  owed    : SMap Nat := []          -- credits owed to the partner per channel
  held    : SMap (List Byte) := []  -- channel * 65536 + BSEQ ↦ payload
  part    : SMap (List Byte) := []  -- channel ↦ bytes of the packet being assembled
  queue   : List OutPk := []
  resend  : List TxFlit := []       -- flits of links that went DOWN, to be sent again with their BSEQ (R334)
  rrVc    : Nat := 2                -- VC served last among VC0 to VC2
  rrIn    : SMap Nat := []          -- VC ↦ input served last
  reports : Nat := 0                -- UP set the neighbour last reported
  deriving DecidableEq, Repr

/-- A sync cell (Table 12.1). -/
structure Cell where
  valid   : Bool := false
  ctx     : Nat := 0
  vid     : Nat := 0
  barrier : Bool := false
  n       : Nat := 0
  gen     : Nat := 0
  count   : Nat := 0
  next    : Nat := 0
  waiters : Nat := 0
  remote  : Nat := 0
  last    : Nat := 0
  setLost : Nat := 0
  names   : List (Nat × Bool × Nat) := []   -- die, PHYS and CTX by which the registered waits of REMOTE name it (log 61)
  deriving DecidableEq, Repr

/-- The object that a WAIT waits on: a cell of this die, an object of another die as its translation there names it
(Table 12.6), or nothing, after a miss (R350). -/
inductive WaitOn where
  | cell (c : Nat)
  | far (die : Nat) (phys : Bool) (ctx vid : Nat)
  | nothing
  deriving DecidableEq, Repr

/-- A WAIT that has not passed, from its issue on (R344, R358, R359). `slot`: 0 to 8 a SYN_OP slot, 9 a Bench, from
1,000 on a BCT channel's SYNC command; `stop` the mesh stop of its requester. -/
structure Waiter where
  req   : Nat
  on    : WaitOn
  tag   : Nat
  stamp : Nat
  slot  : Nat
  stop  : Nat
  op    : Nat := 1                  -- 1 WAIT, 2 ARRIVE_WAIT
  placed : Bool := false            -- the cell has registered it
  told  : Bool := false             -- its timeout has been recorded
  key   : Nat := 0                  -- a Bench's object, as its A and W counters are keyed
  deriving DecidableEq, Repr

/-- A sync operation queued in a slot (R349). -/
structure SlotOp where
  op     : Nat
  tag    : Nat
  ctx    : Nat
  phys   : Bool
  remote : Bool
  die    : Nat
  vid    : Nat
  req    : Nat
  deriving DecidableEq, Repr

/-- An event that a channel keeps until it is acknowledged (Table 13.6, R387). -/
structure EventOut where
  num  : Nat
  kind : Nat
  args : List Byte
  body : List Byte
  sent : Nat                        -- tick at which it was last sent
  deriving DecidableEq, Repr

/-- A command channel (Table 13.3); `chan 0` to 1,023: its entry, the events it keeps and the command that closes it. -/
structure Chan where
  isOpen    : Bool := false
  ipv6      : Bool := false
  events    : Bool := false
  hostUdp   : Nat := 0
  session   : Nat := 0
  addrA     : List Byte := []
  addrB     : List Byte := []
  nextSeq   : Nat := 0
  nextStart : Nat := 0
  nextDone  : Nat := 0
  retire    : Nat := 0
  evNext    : Nat := 0
  evAck     : Nat := 0
  window    : List Nat := []        -- accepted sequence numbers above NEXT_SEQ, rising
  closing   : Option (Nat × Nat) := none   -- the CH_CLOSE command that closes it
  evs       : List EventOut := []   -- unacknowledged events, oldest first
  lost      : Nat := 0
  deriving DecidableEq, Repr

/-- A journal record (Table 13.7). `st`: 1 ACCEPTED, 2 STARTED, 3 COMPLETED. -/
structure JRec where
  off     : Nat
  len     : Nat
  st      : Nat
  net     : Nat
  port    : Nat
  ch      : Nat
  seq     : Nat
  hdr     : List Byte
  body    : List Byte
  stampA  : Nat
  status  : Nat := 0
  result  : Nat := 0
  cbody   : List Byte := []
  stampS  : Nat := 0
  stampE  : Nat := 0
  mirrored : Bool := false          -- its last change is mirrored
  sent    : Bool := false
  peer    : Peer
  begun   : Bool := false           -- performance has begun
  prog    : Nat := 0
  data    : List Byte := []
  deriving DecidableEq, Repr

/-- A BCT packet the die has sent (R367, R369): port, destination and payload. -/
structure BctOut where
  port    : Nat
  dest    : Peer
  payload : List Byte
  deriving DecidableEq, Repr

/-- The command channels, the journal and the Ethernet side (R363 to R398). -/
structure Hst where
  chans    : SMap Chan := []
  recs     : List JRec := []        -- journal records from HEAD to TAIL
  gen      : Nat := 0
  heldAcks : List (Nat × Nat × Copy) := []
  sent     : List BctOut := []      -- packets sent, oldest first
  rxBct    : List Copy := []        -- frames passed to BCT, oldest first
  rxDesk   : List (Nat × List Byte) := []
  neigh    : List (Nat × List Byte × Nat) := []  -- network, IP address, MAC
  frames   : List (Nat × List Byte) := []  -- frames Desk firmware sends: port, bytes
  rrLast   : Option Nat := none     -- channel whose RUN started last (R378)
  modes    : SMap Nat := []         -- mode of a port's last link-up (R363)
  pushes   : List (Nat × Nat × Nat) := []   -- open QUEUE_PUSH: channel, SEQ, queue
  mirrorAt : List (Nat × Nat × Nat) := []   -- mirror writes outstanding: channel, SEQ, stamp
  deriving DecidableEq, Repr

/-- An error record (Table 14.1). -/
structure Rec where
  unit   : Nat
  cls    : Nat
  mixed  : Bool := false
  ctx    : Nat := 0
  reason : Nat
  count  : Nat := 1
  stamp  : Nat := 0
  domain : Nat := 0
  tj     : Nat := 0
  vcore  : Nat := 0
  vshelf : Nat := 0
  step   : Nat := 0
  mb     : Nat := 0
  opTag  : Nat := 0
  seq    : Nat := 0
  delta  : Nat := 0
  detail : Nat := 0
  deriving DecidableEq, Repr

/-- Error records, storms, self-test and capture (R400 to R422). -/
structure Ras where
  latches : SMap Rec := []          -- unit ID ↦ held record
  queue   : List Rec := []          -- Desk error queue without the storm slot
  storm   : Option Rec := none      -- the kept slot
  log     : SMap Rec := []          -- record number ↦ record, the last 6,291,456
  nextSeq : Nat := 0
  stormAt : Nat := 0
  stormEv : Nat := 0
  stormCls : Nat := 0
  stormLatches : List Nat := []
  testWanted : Bool := false
  testRunning : Bool := false
  judged  : Bool := false           -- a verdict has been written in this round
  overflow : Bool := false          -- the attempt's suspect table has overflowed (R409)
  capStop : Bool := false
  deriving DecidableEq, Repr

/-- A snapshot in progress (R425 to R428): the slot, the granules of its directory with their state (0 PENDING,
1 COPIED, 2 drained), and the command that waits for it. -/
structure Snap where
  slot     : Nat
  id       : Nat
  granules : List (Nat × Nat × Nat × Nat × Nat) := []   -- space, source address, bytes, offset in the slot, state
  sealedOwn : Bool := false
  headSent : Bool := false          -- the zero seal and the directory have been drained
  degraded : Bool := false
  drain    : Bool := true           -- the buddy has not turned the drain away
  cmd      : Option (Nat × Nat × Nat) := none   -- channel, SEQ, WAIT
  deriving DecidableEq, Repr

/-- Checkpoint state (R423 to R435). -/
structure Ckp where
  want  : Option (Option (Nat × Nat × Nat)) := none    -- a cut is pending, for a command or for Desk firmware
  snap  : Option Snap := none
  restore : Option (Option (Nat × Nat × Nat × Nat)) := none   -- a buddy slot is being fetched, for a command (channel,
                                                       -- SEQ, STEP, ATTEMPT) or for a takeover
  rejoin : Option (Nat × Nat) := none   -- the REJOIN command that waits for its refresh: channel, SEQ
  due   : Bool := false             -- a commit's refresh is under way, and a snapshot follows it with EVERY_STEP (R431)
  again : Bool := false             -- the newest own generation is to be drained again (R428)
  deriving DecidableEq, Repr

/-- Authorization, quotes, firmware and I3C (R437 to R458). -/
structure Sec where
  pendMsg  : Option (List Byte) := none
  quote    : Option (List Byte × Option (Nat × Nat)) := none  -- the 0x140 captured bytes, and the QUOTE command
  goWait   : Bool := false              -- a GO write waits for the quote in progress
  pushed   : List (Nat × Nat) := []     -- ranges of Desk SRAM pushed: offset, length
  fwDigest : List Byte := []
  warmSeen : Bool := false
  warming  : Bool := false              -- a warm reset is in progress
  quiesced : Bool := false
  updLost  : Nat := 0                   -- an update the warm reset abandoned: 1 before step 7, 2 after it (R265)
  ibiOn    : Bool := false
  ibis     : List Nat := []             -- IBI payloads raised, oldest first
  hotJoin  : Nat := 0                   -- Hot-Join requests raised
  mwl      : Nat := 4107
  mrl      : Nat := 4107
  rstAct   : Nat := 0
  status   : Nat := 0                   -- STATUS of the last private frame
  data     : List Byte := []
  ccc      : List Byte := []            -- bytes the last CCC or private read returned
  op       : Option (Bool × Nat × Nat × Nat × List Byte) := none  -- the READ or WRITE frame in progress: write,
                                        -- address, LENGTH, bytes done, data
  deriving DecidableEq, Repr

/-- What a flit carries (Table 01.2). A message that takes several flits on one virtual channel stands here as one, and
a merged one (R354, R77) lists its parts in the order in which they joined (log 59). -/
inductive Msg where
  | winWrite (w : WinWrite)                                  -- a write to a window of this die (R178)
  | shelfData (data : List Byte)                             -- the answer of a Shelf slice (R171)
  | winAnswer (tile tag code : Nat)                          -- the answer to a window write (R179)
  | block (tile entry mb : Nat) (data : List Byte)           -- a stream block for an IN entry (R329)
  | token (tile route : Nat)                                 -- a boundary token for an IN entry (R76)
  | notice (tile binding route : Nat) (body : List Byte)     -- a queue's notice (Table 08.3)
  | words (tile route seq mb : Nat) (data : List Byte)       -- words of a queue packet (R231)
  | packet (q tile : Nat) (r : OpenReq) (data : List Byte)   -- a Bench's packet for a queue of this die (R216)
  | away (dev q tile : Nat) (r : OpenReq) (data : List Byte) -- a Bench's packet for a queue of another device (R323)
  | stream (tile route : Nat) (run : Run) (data : List Byte) -- a Bench's stream block for another device (R330)
  | tokenOut (tile route : Nat) (run : Run)                  -- a Bench's boundary token for an edge agent (R220, R326)
  | reduce (tile c first : Nat) (elems : List Nat)           -- elements drained into a reduction channel (R277)
  | sync (op cell ctx vid tag : Nat) (reqs : List (Nat × Nat))  -- an operation on its way to its cell: requesters, slots (R341, R354)
  | release (cell gen : Nat)                                 -- a release on its way down the tree (R355)
  | done (run : Run) (reps : List (Nat × Nat))               -- DONE: tile and sticky bits of each report (R77, R120)
  | strCredit (tile entry mb n : Nat)                        -- credits of a stream entry (R329)
  | winCredit (tile : Nat) (cr : Credit)                     -- a window credit (R178)
  deriving DecidableEq, Repr

/-- A flit on the mesh (R20 to R22): the stop and the input at which it entered, one for each merged part; the stop it
goes to, the outward face it leaves by if an edge agent is meant, and what it carries. -/
structure Flit where
  srcs  : List Nat
  input : Nat
  dst   : Nat
  exit  : Option Face := none
  msg   : Msg
  deriving DecidableEq, Repr

/-- The mesh: the flits in each input buffer and those that its source still holds because the buffer is full, both by
stop * 32 + input * 4 + VC (inputs 0 N, 1 E, 2 S, 3 W, 4 local), what each stop has delivered and its receiver has not
taken up, and the round-robin pointers of each output (R24). -/
structure Mesh where
  buf   : SMap (List Flit) := []
  hold  : SMap (List Flit) := []
  got   : List (Nat × Flit) := []
  rrVc  : SMap Nat := []
  rrIn  : SMap Nat := []
  deriving DecidableEq, Repr

/-- A Wardrobe port beyond its registers (Table 07.2, R192). `step`: next step of Table 07.2 to be taken. -/
structure WPort where
  step : Nat := 1
  stepAt : Nat := 0                 -- rack ticks at which RESET_n last went high
  fails : Nat := 0                  -- failed attempts since the port was last READY (R189)
  resetN : Bool := false            -- the level of RESET_n (R188)
  fsp0 : Option Nat := none         -- rate for which the mode registers of a frequency set point are written
  fsp1 : Option Nat := none
  fsp  : Nat := 0                   -- frequency set point in use
  rfm  : Option Nat := none         -- the RFM threshold, where the device's mode registers require RFM (R192)
  acts : SMap Nat := []             -- bank ↦ activations since the last RFM
  refAt : Nat := 0                  -- rack ticks of the last refresh, MR4 read and recalibration
  mr4At : Nat := 0
  zqAt : Nat := 0
  selfRef : Bool := false
  rd   : List Byte := []            -- data of the last read
  chk  : List Byte := []            -- check bytes of the block last read or written (R197)
  deriving DecidableEq, Repr

/-- Time and power beyond the registers (R45 to R57). -/
structure Pwr where
  running : Bool := false           -- the rack-time counter counts
  slew    : Int := 0                -- offset still to be removed
  slewAt  : Nat := 0
  skip    : Bool := false           -- the next increment is omitted (R47)
  rclk    : Bool := true
  throttling : Bool := false        -- R62 in effect: throttling, and the alert
  alerting : Bool := false
  windows : Nat := 0                -- power-control windows so far
  nextSlot : Nat := 0               -- first tick of the next free wake slot
  waking  : List Nat := []          -- groups in WAKING that wait for a wake slot
  windowAt : Nat := 0               -- stamp of the last window
  other   : Nat := 0                -- estimate of the consumers other than the Benches, 0.25 W units
  takers  : List Nat := []          -- groups at their ceiling at the last window
  borrow  : Nat := 0                -- 0.25 W units on loan in this window
  deriving DecidableEq, Repr

/-- An open of a queue packet in another device (R323). `st`: 0 asked, 1 to be asked again, 2 waits behind another of
the same pair, 3 aborted before its grant. -/
structure OutOpen where
  dev   : Nat
  queue : Nat
  req   : OpenReq
  data  : List Byte
  st    : Nat
  stamp : Nat := 0
  deriving DecidableEq, Repr

/-- Reasons for which the machine stops. -/
inductive Fault where
  /-- Every row but those of the pins, after RAIL_LOSS and before the rails have been brought up again and COLD_RESET_N released: R475 of
  spec/16_package_pins_power.md says the device then "gives no guaranteed behaviour". Safe: the model stops where the
  die might go on. -/
  | railsLost
  deriving DecidableEq, Repr

/-- Reasons for which a row has no meaning in the model. -/
inductive Refusal where
  /-- The row has no meaning yet; raised by the dispatcher alone. Safe. -/
  | notModelled (mnemonic : String)
  deriving DecidableEq, Repr

/-- The state of the die. -/
structure State where
  pending : List Instr              -- commands that wait, first in first out
  regs    : SMap Word               -- register offset ↦ value in force, default `resetWord`
  shadow  : SMap Word               -- register offset ↦ word with pending SH values (R481)
  boardPending : Bool               -- a write of WRD_BOARD waits (R481)
  wrd     : Mem                     -- Wardrobe, by die-local address
  shelf   : Mem                     -- Shelf, by physical slice * 0x60_0000 + slice offset
  sp      : Mem                     -- scratchpads, by physical Bench * 0xC_0000 + offset
  qst     : Mem                     -- queue store, by offset
  drw     : Mem                     -- drawer storage, by (physical Bench * 4 + drawer) * 0x3000 + offset
  sram    : Mem                     -- Desk SRAM
  bad     : List (Nat × Nat)        -- code words holding an uncorrectable error: space, index of the word
  coldLow : Bool                    -- COLD_RESET_N is low
  railsOk : Bool                    -- the rails have been within range since the last release
  dip     : Bool                    -- VDD_CORE below its range now (R472)
  tripped : Bool                    -- THERMTRIP_N is low
  pwr     : Pwr
  mesh    : Mesh
  load    : Option Load
  resident : Option Image
  staged  : Option Image
  fab     : Fab
  benches : SMap Bench
  wports  : SMap WPort
  remote  : List RemoteOp
  nextTag : Nat
  queues  : SMap Queue
  upd     : Option Update
  red     : Red
  links   : SMap Link
  bundles : SMap Bundle
  lnkIn   : List (Nat × List Byte)  -- packets released to this device and handed to its units: bundle, bytes (R321)
  opens   : List OutOpen
  cells   : SMap Cell
  waits   : List Waiter
  slots   : SMap (List SlotOp)
  hst     : Hst
  ras     : Ras
  ckp     : Ckp
  sec     : Sec
  freeCtr : Nat                     -- free values drawn so far (the model's own; log 1)
  deriving DecidableEq, Repr

/-- The state at reset: COLD_RESET_N low with every rail in range, every register at its reset value, every memory
clear, nothing pending (R444; log 2). -/
def State.reset : State where
  pending := []
  regs := []
  shadow := []
  boardPending := false
  wrd := []
  shelf := []
  sp := []
  qst := []
  drw := []
  sram := []
  bad := []
  coldLow := true
  railsOk := true
  dip := false
  tripped := false
  pwr := {}
  mesh := {}
  load := none
  resident := none
  staged := none
  fab := {}
  benches := []
  wports := []
  remote := []
  nextTag := 0
  queues := []
  upd := none
  red := {}
  links := []
  bundles := []
  lnkIn := []
  opens := []
  cells := []
  waits := []
  slots := []
  hst := {}
  ras := {}
  ckp := {}
  sec := {}
  freeCtr := 0

end Sys2Proof.Machine
end

