-- ==== Sys2Proof/Machine/Ops.lean ====
section
/-! DEFINITION. The named operations over registers, time, error records and memories that the meanings share. -/

namespace Sys2Proof.Machine

/-- What a row answers. -/
abbrev Out := Host.Outcome State Fault Refusal

/-- The state with another queue. -/
def State.withPending (s : State) (l : List Instr) : State := { s with pending := l }

/-- `t` with the queue of `s` and with the pins that no row of a running die drives: COLD_RESET_N high, the rails in
range. -/
def State.keepIns (s t : State) : State := { t with pending := s.pending, coldLow := false, railsOk := true }

/-- A row of a die that runs: a fault while the rails are lost (R475), nothing while COLD_RESET_N is low (R445). -/
def act (s : State) (f : State → State) : Out :=
  if s.railsOk then (if s.coldLow then .next s else .next (s.keepIns (f s))) else .fault .railsLost

/-! ## Registers -/

/-- The field [hi:lo] of a register word (R3). -/
def fget (w : Word) (hi lo : Nat) : Nat := bits w.toNat lo (hi + 1 - lo)

/-- A register word with its field [hi:lo] at `v`. -/
def fput (w : Word) (hi lo v : Nat) : Word :=
  BitVec.ofNat 64 (w.toNat % 2 ^ lo + (v % 2 ^ (hi + 1 - lo)) * 2 ^ lo + w.toNat / 2 ^ (hi + 1) * 2 ^ (hi + 1))

/-- Whether a distance from an array's first register falls on one of its registers. -/
def hitDims : List (Nat × Nat) → Nat → Bool
  | [], d => d == 0
  | (c, st) :: t, d => decide (d / st < c) && hitDims t (d % st)

/-- Whether a register of the array lies at offset `o`. -/
def RegSpec.hit (r : RegSpec) (o : Nat) : Bool := decide (r.base ≤ o) && hitDims r.dims (o - r.base)

/-- The offset within its table of a register offset: a BEN register by its place in the 4 KiB block (R14). -/
def regLocal (o : Nat) : Nat := if 0x1000000 ≤ o then o % 0x1000 else o

/-- The block number of a register offset (R402). -/
def regBlock (o : Nat) : Nat := if 0x1000000 ≤ o then 17 else o / 0x10000

/-- The description of the register at an offset, if one is there (R9). -/
def regSpec (o : Nat) : Option RegSpec := (regTab (regBlock o)).find? (fun r => r.hit (regLocal o))

/-- The reset word of a description. -/
def RegSpec.reset (r : RegSpec) : Nat := r.fields.foldl (fun a f => a + f.rst * 2 ^ f.lo) 0

/-- The reset values that a table states as a formula: COL_j of TMAP_ROW_COL is 8 k + j (R17), and MEM_SLICE_HOST
names the slice's own tile's position (R172). -/
def resetExtra (o : Nat) : Nat :=
  if 0x30000 ≤ o ∧ o < 0x30800 ∧ o % 0x40 < 0x20 then
    (List.range 8).foldl (fun a j => a + (o % 0x40 + j) * 2 ^ (8 * j)) 0
  else if 0x52000 ≤ o ∧ o < 0x54000 then
    (o - 0x52000) / 8 / 32 * 256 + (o - 0x52000) / 8 % 32
  else 0

/-- The reset value of the register at an offset; zero where there is none (R9). -/
def resetWord (o : Nat) : Word :=
  BitVec.ofNat 64 (((regSpec o).map RegSpec.reset).getD 0 + resetExtra o)

/-- The word in force of the register at an offset. -/
def State.word (s : State) (o : Nat) : Word := SMap.get s.regs (resetWord o) o

/-- The state with a register's word in force. -/
def State.setWord (s : State) (o : Nat) (w : Word) : State := { s with regs := SMap.set s.regs (resetWord o) o w }

/-- The value of a field. -/
def State.get (s : State) (f : Fld) : Nat := fget (s.word f.off) f.hi f.lo

/-- The state with a field at a value. -/
def State.put (s : State) (f : Fld) (v : Nat) : State := s.setWord f.off (fput (s.word f.off) f.hi f.lo v)

/-- Whether a field is not zero. -/
def State.on (s : State) (f : Fld) : Bool := s.get f != 0

/-- The state with a one-bit field set. -/
def State.setF (s : State) (f : Fld) : State := s.put f 1

/-- The state with a field at zero. -/
def State.clrF (s : State) (f : Fld) : State := s.put f 0

/-- The width of a field. -/
def Fld.width (f : Fld) : Nat := f.hi + 1 - f.lo

/-- The state with a saturating counter advanced. -/
def State.incSat (s : State) (f : Fld) (n : Nat := 1) : State := s.put f (min (2 ^ f.width - 1) (s.get f + n))

/-- The state with a counter advanced modulo its width. -/
def State.incMod (s : State) (f : Fld) (n : Nat := 1) : State := s.put f (s.get f + n)

/-- The rack-time counter (R45). -/
def State.now (s : State) : Nat := s.get PWR_RT_COUNT.COUNT

/-- The domain tag in force: the one taken at the load that set VALID, 0xFFFF before it (R45, R46). DOMAIN keeps its
value while VALID is 1. -/
def State.domain (s : State) : Nat := if s.on PWR_RT_STATUS.VALID then s.get PWR_RT_CTRL.DOMAIN else 0xFFFF

/-- A compact stamp of now (Table 02.3). -/
def State.compact (s : State) : Nat := s.domain * 2 ^ 48 + s.now % 2 ^ 48

/-- The expansion of a compact stamp against `now` (R49). -/
def expandStamp (compact now : Nat) : Nat :=
  let t := now / 2 ^ 48 * 2 ^ 48 + compact % 2 ^ 48
  if t > now + 2 ^ 47 then t - 2 ^ 48 else if t + 2 ^ 47 < now then t + 2 ^ 48 else t

/-- Whether the die is of part FZD-1-Q (Table 00.1). -/
def State.isQ (s : State) : Bool := s.get GLB_ID.PART == 0xF204

/-! ## Sub-states -/

def State.bench (s : State) (p : Nat) : Bench := SMap.get s.benches {} p
def State.setBench (s : State) (p : Nat) (b : Bench) : State := { s with benches := SMap.set s.benches {} p b }
def State.modBench (s : State) (p : Nat) (f : Bench → Bench) : State := s.setBench p (f (s.bench p))
def State.queue (s : State) (q : Nat) : Queue := SMap.get s.queues {} q
def State.setQueue (s : State) (q : Nat) (x : Queue) : State := { s with queues := SMap.set s.queues {} q x }
def State.modQueue (s : State) (q : Nat) (f : Queue → Queue) : State := s.setQueue q (f (s.queue q))
def State.link (s : State) (l : Nat) : Link := SMap.get s.links {} l
def State.setLink (s : State) (l : Nat) (x : Link) : State := { s with links := SMap.set s.links {} l x }
def State.modLink (s : State) (l : Nat) (f : Link → Link) : State := s.setLink l (f (s.link l))
def State.bundle (s : State) (d : Nat) : Bundle := SMap.get s.bundles {} d
def State.setBundle (s : State) (d : Nat) (x : Bundle) : State := { s with bundles := SMap.set s.bundles {} d x }
def State.modBundle (s : State) (d : Nat) (f : Bundle → Bundle) : State := s.setBundle d (f (s.bundle d))
def State.cell (s : State) (c : Nat) : Cell := SMap.get s.cells {} c
def State.setCell (s : State) (c : Nat) (x : Cell) : State := { s with cells := SMap.set s.cells {} c x }
def State.modCell (s : State) (c : Nat) (f : Cell → Cell) : State := s.setCell c (f (s.cell c))
def State.wport (s : State) (p : Nat) : WPort := SMap.get s.wports {} p
def State.setWport (s : State) (p : Nat) (x : WPort) : State := { s with wports := SMap.set s.wports {} p x }
def State.modWport (s : State) (p : Nat) (f : WPort → WPort) : State := s.setWport p (f (s.wport p))
def State.chan (s : State) (c : Nat) : Chan := SMap.get s.hst.chans {} c
def State.setChan (s : State) (c : Nat) (x : Chan) : State :=
  { s with hst := { s.hst with chans := SMap.set s.hst.chans {} c x } }
def State.modChan (s : State) (c : Nat) (f : Chan → Chan) : State := s.setChan c (f (s.chan c))
def State.modFab (s : State) (f : Fab → Fab) : State := { s with fab := f s.fab }
def State.modRed (s : State) (f : Red → Red) : State := { s with red := f s.red }
def State.modHst (s : State) (f : Hst → Hst) : State := { s with hst := f s.hst }
def State.modRas (s : State) (f : Ras → Ras) : State := { s with ras := f s.ras }
def State.modSec (s : State) (f : Sec → Sec) : State := { s with sec := f s.sec }
def State.modPwr (s : State) (f : Pwr → Pwr) : State := { s with pwr := f s.pwr }
def State.modCkp (s : State) (f : Ckp → Ckp) : State := { s with ckp := f s.ckp }

/-- A free value (log 1) and the state with the next one due. -/
def State.draw (s : State) : Nat × State := (Config.freeNat s.freeCtr, { s with freeCtr := s.freeCtr + 1 })

/-! ## The tile map -/

/-- The physical Bench index, row × 33 + column, of a logical tile, if the tile exists (R17, R84, TMAP_ROW_COL). -/
def State.phys (s : State) (n : Nat) : Option Nat :=
  let ty := n / 32
  let k := n % 32 / 8
  let j := n % 8
  if n < 1024 then
    if s.on (TMAP_ROW_COL.VALID ty k j) then some (ty * 33 + s.get (TMAP_ROW_COL.COL ty k j)) else none
  else none

/-- The logical tile that a physical Bench holds, if any. -/
def State.tileAt (s : State) (p : Nat) : Option Nat :=
  (List.range 32).findSome? (fun tx => if s.phys (p / 33 * 32 + tx) = some p then some (p / 33 * 32 + tx) else none)

/-- Whether a physical Bench is in service (R18). -/
def State.inServ (s : State) (p : Nat) : Bool :=
  decide (p < 1056) && !(bit (s.get (TMAP_ROW_STATE.FENCE (p / 33))) (p % 33))

/-- The logical tiles that exist (R172). -/
def State.tiles (s : State) : Nat := (List.range 32).foldl (fun a ty => a + s.get (TMAP_ROW_STATE.WIDTH ty)) 0

/-- The physical slice that hosts a logical Shelf slice, if the slice exists (R172, R173). -/
def State.sliceHost (s : State) (k : Nat) : Option Nat :=
  if k < 1024 then
    if s.on (MEM_SLICE_HOST.VALID k) then some (s.get (MEM_SLICE_HOST.ROW k) * 33 + s.get (MEM_SLICE_HOST.COL k)) else none
  else none

/-! ## Steps and runs -/

/-- The micro-batch in force: the oldest one not yet past its boundary. -/
def State.micro (s : State) : Option Micro := s.fab.micros.head?

/-- The RUN in force. -/
def State.runNow (s : State) : Option Run := s.micro.map (fun m => m.run)

/-- The RUN in force at a Bench: that of the oldest micro-batch for which the tile has not reported DONE (R76). -/
def State.runAt (s : State) (tile : Nat) : Option Run :=
  (s.fab.micros.find? (fun m => !(m.done.contains tile))).map (fun m => m.run)

/-- Whether a RUN belongs to a drawer of PLANE_KIND 1, 2 or 4 (R162). -/
def Run.training (r : Run) : Bool := r.kind == 1 || r.kind == 2 || r.kind == 4

/-- Whether the fabric is idle: no RUN that has started is unfinished (R69, R80, R378). -/
def State.idle (s : State) : Bool := s.fab.micros.isEmpty && s.fab.next.isNone

/-- The RUN in force at a unit: at a Bench that of its tile, elsewhere that of the fabric (R400). -/
def State.runFor (s : State) (unit : Nat) : Option Run :=
  if unit < 1056 then (s.tileAt unit).bind s.runAt else s.runNow

/-- Replay mode (R414). -/
def State.replay (s : State) : Bool := s.on RAS_CTRL.REPLAY

/-! ## Alerts and error records -/

/-- A management alert: the bit is set, and a newly set enabled bit raises one IBI (R457). -/
def State.alert (s : State) (f : Fld) : State :=
  if s.on f then s
  else
    let s1 := s.setF f
    if s1.sec.ibiOn && bit (s1.get MGT_ALERT_EN.EN) f.lo then
      s1.modSec (fun c => { c with ibis := c.ibis ++ [fget (s1.word MGT_ALERT.reg) 15 0] })
    else s1

/-- The device needs replacement (R419). -/
def State.replace (s : State) : State := ((s.setF RAS_STATUS.REPLACE).setF RAS_EVENT.REPLACE).alert MGT_ALERT.REPLACE

/-- OP_TAG of a RUN, of another BCT command, of Desk firmware and of background work (Table 14.1). -/
def Run.tag (r : Run) : Nat := 1 * 2 ^ 60 + r.chan * 2 ^ 48 + r.seq % 2 ^ 48
def cmdTag (ch seq : Nat) : Nat := 2 * 2 ^ 60 + ch * 2 ^ 48 + seq % 2 ^ 48
def deskTag : Nat := 3 * 2 ^ 60
def bgTag : Nat := 4 * 2 ^ 60

/-- OP_TAG of the RUN in force; no source without one. -/
def State.runTag (s : State) : Nat := (s.runNow.map Run.tag).getD 0

/-- OP_TAG of a register write (R483). -/
def issTag : Issuer → Nat
  | .bct ch seq => cmdTag ch seq
  | .i3c => 0
  | .desk _ => deskTag
  | .die _ => 0

/-- The unit ID of a class and an instance (R400). -/
def unitId (cls inst : Nat) : Nat := cls * 4096 + inst

/-- A new record of an event (Table 14.1, R403). -/
def State.newRec (s : State) (tag : Nat) (e : ErrEvent) : Rec :=
  { unit := e.unit, cls := e.cls, ctx := e.ctx, reason := e.reason, stamp := s.now,
    domain := s.domain, tj := s.get PWR_SENSE.TJ_MAX, vcore := s.get PWR_SENSE.VDD_CORE_MV,
    vshelf := s.get PWR_SENSE.VDD_SHELF_MV, step := ((s.runFor e.unit).map Run.step).getD 0, mb := ((s.runFor e.unit).map Run.mb).getD 0,
    opTag := tag, seq := s.ras.nextSeq % 2 ^ 32, detail := e.detail }

/-- A record with one more event in it (R401, R403). -/
def Rec.coalesce (r : Rec) (e : ErrEvent) (now : Nat) : Rec :=
  { r with count := r.count + 1, delta := min (2 ^ 32 - 1) (now - r.stamp),
           mixed := r.mixed || r.reason != e.reason, cls := max r.cls e.cls }

/-- Ordinary records in the Desk error queue are fewer than its 255 slots (R404). -/
def State.errRoom (s : State) : Bool := decide (s.ras.queue.length < 255)

/-- An event at its unit's latch: it forms a record or joins the one held; past 65,535 it is only counted (R403). -/
def State.latchEvent (s : State) (tag : Nat) (e : ErrEvent) : State :=
  let c := e.unit / 4096
  match SMap.find? s.ras.latches e.unit with
  | none => s.modRas (fun r => { r with latches := SMap.insert r.latches e.unit (s.newRec tag e), nextSeq := r.nextSeq + 1 })
  | some h =>
    if h.count < 0xFFFF then
      s.modRas (fun r => { r with
        latches := SMap.insert r.latches e.unit (h.coalesce e s.now)
        stormLatches := if s.on RAS_STATUS.STORM && !(r.stormLatches.contains e.unit) then e.unit :: r.stormLatches
                        else r.stormLatches })
    else (s.incSat (RAS_STORM_COUNT.COUNT c)).modRas (fun r =>
      if s.on RAS_STATUS.STORM then { r with stormEv := r.stormEv + 1, stormCls := r.stormCls ||| 2 ^ c } else r)

/-- A storm begins (R405). -/
def State.stormStart (s : State) : State :=
  ((s.setF RAS_STATUS.STORM).setF RAS_EVENT.STORM).modRas
    (fun r => { r with stormAt := s.now, stormEv := 0, stormCls := 0, stormLatches := [] })

/-- An event reaches its unit's latch; a record that cannot be forwarded begins a storm (R403, R405). -/
def State.raise (s : State) (tag : Nat) (e : ErrEvent) : State :=
  let s1 := (s.incSat (RAS_EVENT_TOTAL.COUNT (e.unit / 4096))).latchEvent tag e
  if s1.errRoom || s1.on RAS_STATUS.STORM then s1 else s1.stormStart

/-- The record of a register write that the device refuses (R483). -/
def State.regRefusal (s : State) (iss : Issuer) (off : Nat) : State :=
  s.raise (issTag iss)
    { unit := unitId 8 0xFFF, cls := 1, reason := regBlock off * 256 + 0xFF, ctx := 0,
      detail := (match iss with | .bct ch _ => ch | _ => 0xFFFF) + off * 2 ^ 64 }

/-- The SEQ of the record that a unit's latch holds. -/
def State.heldSeq (s : State) (unit : Nat) : Nat := ((SMap.find? s.ras.latches unit).map Rec.seq).getD 0

/-- The vote flags of this device (Table 10.3), as bits of `Red.flags`. -/
def fRepeat : Nat := 1
def fSuspect : Nat := 2
def fNonfinite : Nat := 4
def fWindow : Nat := 8
def fAbandon : Nat := 16

/-- A contribution to the attempt's vote; replay mode changes no step state (R31, R414). -/
def State.contribute (s : State) (f : Nat) : State :=
  if s.replay then s else s.modRed (fun r => { r with flags := r.flags ||| f })

/-- A SUSPECT contribution takes an entry of the suspect table (R409). -/
def State.suspect (s : State) (unit runIdx seq : Nat) : State :=
  if s.replay then s
  else
    let n := s.get RAS_STATUS.SUSPECT_COUNT
    let s1 := s.contribute fSuspect
    if n < 64 then
      (s1.setWord (RAS_SUSPECT.reg n)
        (BitVec.ofNat 64 (unit * 2 ^ 48 + runIdx % 2 ^ 16 * 2 ^ 32 + seq % 2 ^ 32))).put RAS_STATUS.SUSPECT_COUNT (n + 1)
    else (s1.setF RAS_EVENT.SUSPECT_OVERFLOW).modRas (fun r => { r with overflow := true })

/-- A record that contributes SUSPECT when it falls in a RUN of PLANE_KIND 1, 2 or 4, and is a NOTICE otherwise
(Table 14.2). -/
def State.raiseSuspect (s : State) (run : Option Run) (e : ErrEvent) : State :=
  match run with
  | some r =>
    if r.training then
      let s1 := s.raise r.tag { e with cls := max e.cls 3 }
      s1.suspect e.unit (r.index.getD 0) (s1.heldSeq e.unit)
    else s.raise r.tag e
  | none => s.raise 0 e

/-- The number whose little-endian bytes are given, as the words of a byte-window register, and back. -/
def State.window (s : State) (reg : Nat → Nat) (n : Nat) : List Byte := ((List.range n).map (fun k => leBytes 8 (s.word (reg k)).toNat)).flatten
def State.setWindowRegs (s : State) (reg : Nat → Nat) (l : List Byte) : State :=
  (List.range ((l.length + 7) / 8)).foldl (fun s k => s.setWord (reg k) (BitVec.ofNat 64 (leNat ((l.drop (8 * k)).take 8)))) s

/-- The SM3 digest of a byte string, as bytes. -/
def sm3 (l : List Byte) : List Byte := (Config.sm3 l).toList

/-- A measurement is extended (R447). -/
def State.extend (s : State) (m : Nat) (d : List Byte) : State :=
  s.setWindowRegs (fun h => SEC_MEAS.reg m h) (sm3 (s.window (fun h => SEC_MEAS.reg m h) 4 ++ d))

/-! ## Memories -/

/-- The memories of the die, by physical place. -/
inductive Space where
  | wrd | shelf | sp | qst | drw | sram
  deriving DecidableEq, Repr

def State.mem (s : State) : Space → Mem
  | .wrd => s.wrd
  | .shelf => s.shelf
  | .sp => s.sp
  | .qst => s.qst
  | .drw => s.drw
  | .sram => s.sram

def State.setMem (s : State) (k : Space) (m : Mem) : State :=
  match k with
  | .wrd => { s with wrd := m }
  | .shelf => { s with shelf := m }
  | .sp => { s with sp := m }
  | .qst => { s with qst := m }
  | .drw => { s with drw := m }
  | .sram => { s with sram := m }

/-- The number of a space in `State.bad`. -/
def Space.num : Space → Nat
  | .wrd => 0
  | .shelf => 1
  | .sp => 2
  | .qst => 3
  | .drw => 4
  | .sram => 5

/-- Bytes of a code word: a block of the Wardrobe (R197), a 64-bit part elsewhere (R162, R214). A weight-class word
is held as its two halves. -/
def Space.unit : Space → Nat
  | .wrd => 512
  | _ => 8

/-- The usable end of the Wardrobe (Table 00.7). -/
def State.wrdEnd (s : State) : Nat := if s.isQ then 0x136_0000_0000 else 0x26C_0000_0000

/-- The usable Wardrobe below the device-reserved region; none while it is out of service (R186, R204). -/
def State.wrdLimit (s : State) : Nat := if s.on WRD_STATUS.IN_SERVICE then s.get FAB_WRD_LIMIT.LIMIT else 0

def shelfBase : Nat := 0x4000_0000_0000
def spBase : Nat := 0x5000_0000_0000
def qstBase : Nat := 0x5800_0000_0000
def regBase : Nat := 0x7F00_0000_0000

/-- A run of bytes of one physical memory. -/
structure Seg where
  space : Space
  at_   : Nat
  len   : Nat
  deriving DecidableEq, Repr

/-- The segments of `n` bytes of the logical Shelf from offset `o`, slice by slice (R172). -/
def State.shelfSegs (s : State) : Nat → Nat → Nat → Option (List Seg)
  | 0, _, n => if n = 0 then some [] else none
  | fuel + 1, o, n =>
    if n = 0 then some []
    else
      let k := o / 0x600000
      let off := o % 0x600000
      let here := min n (0x600000 - off)
      match s.sliceHost k with
      | none => none
      | some p => (s.shelfSegs fuel (o + here) (n - here)).map (fun t => ⟨.shelf, p * 0x600000 + off, here⟩ :: t)

/-- The physical places of `n` bytes from a die-local address, when they lie wholly inside one range (R11, R12, R172,
R186). `dev`: the device or Desk firmware, which alone reach the device-reserved Wardrobe (R204). -/
def State.segs (s : State) (dev : Bool) (a n : Nat) : Option (List Seg) :=
  if a < shelfBase then
    if s.on WRD_STATUS.IN_SERVICE && decide (a + n ≤ (if dev then s.wrdEnd else s.get FAB_WRD_LIMIT.LIMIT))
    then some [⟨.wrd, a, n⟩] else none
  else if a < spBase then s.shelfSegs 1025 (a - shelfBase) n
  else if a < qstBase then
    let off := (a - spBase) % 0x100000
    match s.phys ((a - spBase) / 0x100000) with
    | none => none
    | some p => if off + n ≤ 0xC0000 then some [⟨.sp, p * 0xC0000 + off, n⟩] else none
  else if a < regBase then
    if a + n ≤ qstBase + 0x800000 then some [⟨.qst, a - qstBase, n⟩] else none
  else none

/-- The memory with every byte of the listed code words reading as zero (R162, R201, R214). -/
def zeroBad (s : State) (k : Space) (m : Mem) : Mem :=
  s.bad.foldl (fun m e => if e.1 = k.num then Mem.clr m (e.2 * k.unit) k.unit else m) m

/-- The bytes of segments, uncorrectable words as zeros. -/
def State.rdSegs (s : State) : List Seg → List Byte
  | [] => []
  | g :: t => Mem.rdN (zeroBad s g.space (s.mem g.space)) g.at_ g.len ++ s.rdSegs t

/-- Reads `n` bytes from a die-local address; none is an address error. -/
def State.rdA (s : State) (dev : Bool) (a n : Nat) : Option (List Byte) := (s.segs dev a n).map s.rdSegs

/-- The little-endian number at a die-local address; zero on an address error (R11). -/
def State.leA (s : State) (dev : Bool) (a n : Nat) : Nat := ((s.rdA dev a n).map leNat).getD 0

/-- The enabled weight-class ranges that cover a logical Shelf region (R160). -/
def State.shelfWeight (s : State) (r : Nat) : Bool :=
  (List.range 16).any (fun m => s.on (MEM_SHELF_WCLASS.EN m) && decide (s.get (MEM_SHELF_WCLASS.BASE_PAGE m) ≤ r) &&
    decide (r < s.get (MEM_SHELF_WCLASS.BASE_PAGE m) + s.get (MEM_SHELF_WCLASS.PAGES m)))

/-- Whether a scratchpad region is of the weight class. -/
def State.spWeight (s : State) (p r : Nat) : Bool := bit (s.word (BEN_MEM_CLASS.reg p (r / 64))).toNat (r % 64)

/-- The logical slice that a physical slice hosts, if one. -/
def State.sliceAt (s : State) (p : Nat) : Option Nat := (List.range 1024).find? (fun k => s.sliceHost k == some p)

/-- The logical Shelf region of an offset of a physical slice, if the slice is hosted there. -/
def State.shelfRegion (s : State) (p off : Nat) : Option Nat := (s.sliceAt p).map (fun k => (k * 0x600000 + off) / 4096)

/-- The code word that holds part `u` of a memory: its first byte and its bytes (R160, R162, R197). -/
def State.codeWord (s : State) (k : Space) (u : Nat) : Nat × Nat :=
  let w := match k with
    | .sp => s.spWeight (u * 8 / 0xC0000) (u * 8 % 0xC0000 / 4096)
    | .shelf => (s.shelfRegion (u * 8 / 0x600000) (u * 8 % 0x600000)).any s.shelfWeight
    | _ => false
  if w then (u / 2 * 16, 16) else (u * k.unit, k.unit)

/-- The code words that overlap a range and hold an uncorrectable error: first byte and bytes of each. -/
def State.badWords (s : State) (k : Space) (a n : Nat) : List (Nat × Nat) :=
  (((s.bad.filter (fun e => e.1 == k.num)).map (fun e => s.codeWord k e.2)).filter
    (fun w => decide (w.1 < a + n) && decide (a < w.1 + w.2))).eraseDups

/-- The first parts of the code words that overlap a range and hold an uncorrectable error. -/
def State.badIn (s : State) (k : Space) (a n : Nat) : List Nat := (s.badWords k a n).map (fun w => w.1 / k.unit)

/-- Writes bytes into one memory: a bad code word that they touch is first cleared, so its unwritten bytes are zero,
and is good afterwards (R163, R201). -/
def State.wrPhys (s : State) (k : Space) (a : Nat) (bs : List Byte) : State :=
  let bad := s.badWords k a bs.length
  let m := bad.foldl (fun m w => Mem.clr m w.1 w.2) (s.mem k)
  { (s.setMem k (Mem.wrN m a bs)) with
    bad := if bad.isEmpty then s.bad
           else s.bad.filter (fun e => !(decide (e.1 = k.num) && bad.any (fun w => decide (w.1 ≤ e.2 * k.unit) && decide (e.2 * k.unit < w.1 + w.2)))) }

/-- Clears a range of one memory to zero with valid check bits (R86). -/
def State.clrPhys (s : State) (k : Space) (a n : Nat) : State :=
  { (s.setMem k (Mem.clr (s.mem k) a n)) with
    bad := s.bad.filter (fun e => !(decide (e.1 = k.num) && decide (a ≤ e.2 * k.unit) && decide ((e.2 + 1) * k.unit ≤ a + n))) }

/-- Writes bytes into segments in ascending order. -/
def State.wrSegs (s : State) : List Seg → List Byte → State
  | [], _ => s
  | g :: t, bs => (s.wrPhys g.space g.at_ (bs.take g.len)).wrSegs t (bs.drop g.len)

/-- Copies segments of one range onto segments of another of the same length. -/
def State.cpSegs : Nat → State → List Seg → List Seg → State
  | 0, s, _, _ => s
  | _ + 1, s, [], _ => s
  | _ + 1, s, _, [] => s
  | fuel + 1, s, g :: gs, h :: hs =>
    let n := min g.len h.len
    let s1 := s.clrPhys h.space h.at_ n
    let s2 := s1.setMem h.space (Mem.copy (zeroBad s g.space (s.mem g.space)) g.at_ (s1.mem h.space) h.at_ n)
    State.cpSegs fuel s2
      (if g.len = n then gs else ⟨g.space, g.at_ + n, g.len - n⟩ :: gs)
      (if h.len = n then hs else ⟨h.space, h.at_ + n, h.len - n⟩ :: hs)

/-- Copies `n` bytes between die-local addresses as the device does it; an address error copies nothing. -/
def State.copyA (s : State) (a b n : Nat) : State :=
  match s.segs true a n, s.segs true b n with
  | some gs, some hs => State.cpSegs (gs.length + hs.length + 1) s gs hs
  | _, _ => s

/-! ## Uncorrectable errors -/

/-- The record of an uncorrectable error that a read meets (R162, R201): in a training RUN to which the read belongs it
contributes SUSPECT. -/
def State.ueRecord (s : State) (run : Option Run) (scrub : Bool) (e : ErrEvent) : State :=
  match run with
  | some r => s.raiseSuspect (some r) e
  | none => s.raise (if scrub then bgTag else s.runTag) e

/-- The effects of an uncorrectable error that a read of a scratchpad meets (R162). `run`: the RUN it belongs to. -/
def State.spUe (s : State) (p off : Nat) (run : Option Run) (scrub : Bool := false) : State :=
  let s1 := (s.incSat (BEN_SP_UE.COUNT p)).incSat MEM_ERR_SCRATCH.UE
  let s2 := s1.setWord (BEN_MEM_ERR_LAST.reg p) (BitVec.ofNat 64 (2 ^ 62 + off))
  let tile := (s.tileAt p).getD 0
  let e : ErrEvent := { unit := unitId 0 p, cls := 1, reason := if scrub then 0x0501 else 0x05FF, ctx := 0, detail := tile + 2 * 2 ^ 16 + off * 2 ^ 64 }
  s2.ueRecord run scrub e

/-- The effects of an uncorrectable error that a read of a Shelf slice meets (R162). -/
def State.shUe (s : State) (p off : Nat) (run : Option Run) (scrub : Bool := false) : State :=
  let s1 := (s.incSat (BEN_SH_UE.COUNT p)).incSat MEM_ERR_SHELF.UE
  let s2 := s1.setWord (BEN_MEM_ERR_LAST.reg p) (BitVec.ofNat 64 (2 ^ 63 + 2 ^ 62 + off))
  let k := (s.sliceAt p).getD 0
  let e : ErrEvent := { unit := unitId 1 p, cls := 1, reason := if scrub then 0x0501 else 0x05FF, ctx := 0, detail := k + off * 2 ^ 64 }
  s2.ueRecord run scrub e

/-- The bonded Wardrobe ports of the part (R184). -/
def State.wrdPorts (s : State) : List Nat := if s.isQ then List.range 8 ++ (List.range 8).map (· + 16) else List.range 32

/-- The port, device byte address and check-byte address of a Wardrobe address (R195). -/
def State.wrdLocate (s : State) (a : Nat) : Nat × Nat × Nat :=
  let ports := s.wrdPorts
  let n := ports.length
  let blk := a / 512
  let idx := blk / n
  let grp := idx / 32
  let slot := idx % 32
  (ports.getD (blk % n) 0, grp * 16896 + slot * 512 + a % 512, grp * 16896 + 16384 + slot * 16)

/-- Whether a block lies in the Desk firmware state: the first 64 MiB of the Desk region (Table 07.5, R408). -/
def State.deskState (s : State) (blk : Nat) : Bool :=
  s.on WRD_STATUS.IN_SERVICE && decide (s.get FAB_WRD_LIMIT.LIMIT + 0x24000000 ≤ blk * 512) && decide (blk * 512 < s.get FAB_WRD_LIMIT.LIMIT + 0x28000000)

/-- The effects of an uncorrectable block that a read of the Wardrobe meets (R201; R421 in the active weight array; R419 in
Desk firmware state). -/
def State.wrdUe (s : State) (blk : Nat) (run : Option Run) (scrub : Bool) : State :=
  let p := (s.wrdLocate (blk * 512)).1
  let s1 := (s.incSat (WRD_PORT_ERR.UE p)).incSat WRD_ERR_TOTAL.UE
  let s2 := s1.setWord (WRD_PORT_ERR_LAST.reg p) (BitVec.ofNat 64 (2 ^ 63 + b2n scrub * 2 ^ 62 + blk * 512))
  let e : ErrEvent := { unit := unitId 2 p, cls := 1, reason := if scrub then 0x0601 else 0x06FF, ctx := 0,
                        detail := blk * 512 * 2 ^ 64 }
  let w := s.get (SBD_WBANK.ADDR (s.get SBD_BANK.ACTIVE))
  let s3 := if w < blk * 512 + 512 ∧ blk * 512 < w + 2 * s.get SBD_PARAMS.VALUE then s2.setF RAS_EVENT.BANK_UE else s2
  if s.deskState blk then (s3.ueRecord run scrub { e with cls := 6 }).replace else s3.ueRecord run scrub e

/-- The enabled queue that a byte of the queue store belongs to, if one (R211, R214). -/
def State.qstOwner (s : State) (a : Nat) : Option Nat :=
  (List.range 64).find? (fun q => s.on (QUE_Q_CFG.EN q) && decide (s.get (QUE_Q_CFG.BASE_UNIT q) ≤ a / 0x10000) &&
    decide (a / 0x10000 < s.get (QUE_Q_CFG.BASE_UNIT q) + s.get (QUE_Q_CFG.UNITS q)))

/-- The effects of an uncorrectable part that a read of the queue store other than a delivery meets (R213, R214). -/
def State.qstUe (s : State) (a : Nat) : State :=
  let s1 := (match s.qstOwner a with
    | some q => s.incSat (QUE_Q_ERR.UE q)
    | none => s)
  ((s1.incSat QUE_ERR_TOTAL.UE).setF QUE_EVENT.UE).raise s.runTag
    { unit := unitId 5 ((s.qstOwner a).getD 0xFFF), cls := 1, reason := 0x0701, ctx := 0, detail := 0 }

/-- An access activates a bank; a port whose device asks for refresh management counts it (R192). The bank is the port's choice
(R195). -/
def State.activate (s : State) (a : Nat) : State :=
  let (p, dev, _) := s.wrdLocate a
  if (s.wport p).rfm.isNone then s
  else
    let bank := Config.wrdBank p dev % 64
    s.modWport p (fun w => { w with acts := SMap.set w.acts 0 bank (SMap.get w.acts 0 bank + 1) })

/-- The activations of an access to a stretch of a memory, block by block. -/
def State.activateSeg (s : State) (g : Seg) : State :=
  match g.space with
  | .wrd => (List.range ((g.at_ + g.len + 511) / 512 - g.at_ / 512)).foldl (fun s i => s.activate ((g.at_ / 512 + i) * 512)) s
  | _ => s

/-- The effects of one uncorrectable code word, by its first byte. -/
def State.ueWord (s : State) (k : Space) (a : Nat) (run : Option Run) : State :=
  match k with
  | .wrd => s.wrdUe (a / 512) run false
  | .shelf => s.shUe (a / 0x600000) (a % 0x600000) run
  | .sp => s.spUe (a / 0xC0000) (a % 0xC0000) run
  | .qst => s.qstUe a
  | _ => s

/-- The effects of the uncorrectable words that a read of a range meets. -/
def State.ueOf (s : State) (g : Seg) (run : Option Run) : State :=
  (s.badWords g.space g.at_ g.len).foldl (fun s w => s.ueWord g.space w.1 run) s

/-! ## Granules of a snapshot (R426, R427) -/

/-- The Chest slot size of an image (R424). -/
def chestSlot (m : Manifest) : Nat := m.chestBytes / 4 / 0x10000 * 0x10000

/-- The stretches of a granule that hold an uncorrectable error. -/
def State.granuleBad (s : State) (g : Nat × Nat × Nat × Nat × Nat) : List Seg :=
  ((s.segs true g.2.1 g.2.2.1).getD []).filter (fun x => !(s.badIn x.space x.at_ x.len).isEmpty)

/-- A copy has met an uncorrectable error (R427). -/
def State.degraded (s : State) (g : Nat × Nat × Nat × Nat × Nat) : State :=
  (s.setF CKP_EVENT.DEGRADED).raise bgTag { unit := unitId 8 0xFFF, cls := 1, reason := 0x0E05, ctx := 0, detail := g.2.1 * 2 ^ 64 }

/-- Copies one PENDING granule into the slot, uncorrectable words as zeros with the effects of R162, R201 and R214 (R426,
R427). -/
def State.copyGranule (s : State) (sn : Snap) (g : Nat × Nat × Nat × Nat × Nat) : State :=
  let man := (s.resident.map Image.man).getD {}
  let bad := s.granuleBad g
  let s1 := bad.foldl (fun s x => s.ueOf x none) (s.copyA g.2.1 (man.chestBase + sn.slot * chestSlot man + g.2.2.2.1) g.2.2.1)
  if bad.isEmpty then s1 else s1.degraded g

/-- Before a write to a range, every PENDING granule that it touches is copied and marked COPIED; each such write
counts one stall (R426). -/
def State.cow (s : State) (a n : Nat) : State :=
  match s.ckp.snap with
  | none => s
  | some sn =>
    let hit := fun (g : Nat × Nat × Nat × Nat × Nat) =>
      decide (g.2.2.2.2 = 0) && decide (g.2.1 < a + n) && decide (a < g.2.1 + g.2.2.1)
    let now := sn.granules.filter hit
    if now.isEmpty then s
    else
      let s1 := now.foldl (fun s g => s.copyGranule sn g) s
      let gs := sn.granules.map (fun g => if hit g then (g.1, g.2.1, g.2.2.1, g.2.2.2.1, 1) else g)
      let s2 := s1.modCkp (fun c => { c with snap := some { sn with
        granules := gs, degraded := sn.degraded || now.any (fun g => !(s.granuleBad g).isEmpty) } })
      (s2.incSat CKP_COW.STALLS).put CKP_COW.PENDING (gs.countP (fun g => g.2.2.2.2 == 0))

/-- Writes bytes at a die-local address; none is an address error and writes nothing (R11). -/
def State.wrA (s : State) (dev : Bool) (a : Nat) (bs : List Byte) : Option State :=
  (s.segs dev a bs.length).map (fun gs => (s.cow a bs.length).wrSegs gs bs)

/-- Writes bytes at a die-local address, or leaves the state where the address is outside every range (R11). -/
def State.wr! (s : State) (dev : Bool) (a : Nat) (bs : List Byte) : State := (s.wrA dev a bs).getD s

/-- The die-local address of a scratchpad offset of a logical tile (Table 00.7). -/
def spAddr (tile off : Nat) : Nat := spBase + tile * 0x100000 + off

/-! ## Reads with their effects -/

/-- A read with the effects of the uncorrectable words it meets. `run`: the RUN it belongs to, if one. -/
def State.fetch (s : State) (dev : Bool) (run : Option Run) (a n : Nat) : Option (List Byte × State) :=
  (s.segs dev a n).map (fun gs => (s.rdSegs gs, gs.foldl (fun s g => (s.activateSeg g).ueOf g run) s))

/-- Whether a Shelf row accepts accesses: it is ON, or completes what it has accepted (Table 02.5). -/
def State.shelfUp (s : State) (p : Nat) : Bool := decide (2 ≤ s.get (PWR_FN_CTRL.STATUS (160 + p / 33)))

/-- Whether a stretch of a scratchpad or of a Shelf slice cannot be accessed yet: a region of it is being re-encoded
(R160), or its Shelf row is in retention (R61). -/
def State.segHeld (s : State) (g : Seg) : Bool :=
  let pages := (List.range ((g.at_ + g.len + 4095) / 4096 - g.at_ / 4096)).map (fun i => g.at_ / 4096 + i)
  match g.space with
  | .sp => !(s.fab.reenc.isEmpty) && pages.any (fun r => s.fab.reenc.contains (false, r))
  | .shelf => !(s.shelfUp (g.at_ / 0x600000)) ||
      (!(s.fab.reenc.isEmpty) && pages.any (fun r => (s.shelfRegion (r / 1536) (r % 1536 * 4096)).any (fun k => s.fab.reenc.contains (true, k))))
  | _ => false

/-- Whether an access to a range of die-local addresses must wait. -/
def State.held (s : State) (dev : Bool) (a n : Nat) : Bool := ((s.segs dev a n).getD []).any s.segHeld

/-- Records the uncorrectable words that a partial write meets, then writes (R163, R201). -/
def State.store (s : State) (dev : Bool) (a : Nat) (bs : List Byte) : Option State :=
  (s.segs dev a bs.length).map (fun gs =>
    let s1 := gs.foldl (fun s g =>
      (s.badWords g.space g.at_ g.len).foldl (fun s w =>
        if g.at_ ≤ w.1 ∧ w.1 + w.2 ≤ g.at_ + g.len then s else s.ueWord g.space w.1 none) s) s
    ((gs.foldl State.activateSeg s1).cow a bs.length).wrSegs gs bs)

end Sys2Proof.Machine
end

