-- ==== Sys2Proof/Machine/Flp.lean ====
section
/-! DEFINITION. FLP packets, routes, output bundles, tunnels and links going UP and DOWN (chapter 11), as the
operations that the families share. -/

namespace Sys2Proof.Machine

/-- A byte string cut or padded with zeros to `n` bytes. -/
def padTo (n : Nat) (l : List Byte) : List Byte := (l ++ List.replicate n 0).take n

/-- Bytes [off, off + n) of a byte string as a little-endian number (R3). -/
def leAt (l : List Byte) (off n : Nat) : Nat := leNat ((l.drop off).take n)

/-! ## Coordinates and routes -/

/-- This device's coordinates, z [14:10], y [9:5], x [4:0] (Table 11.8). -/
def State.coord (s : State) : Nat := fget (s.word LNK_COORD.reg) 14 0

/-- The coordinate on an axis. -/
def axisOf (c a : Nat) : Nat := bits c (5 * a) 5

/-- The coordinates with one axis at a value. -/
def withAxis (c a v : Nat) : Nat := c - axisOf c a * 2 ^ (5 * a) + v * 2 ^ (5 * a)

/-- The torus dimension of an axis (LNK_TORUS). -/
def State.dim (s : State) (a : Nat) : Nat := bits (s.word LNK_TORUS.reg).toNat (6 * a) 6

/-- The coordinates of the partner in direction `d` (R302). -/
def State.partner (s : State) (d : Nat) : Nat :=
  let a := d / 2
  let n := s.dim a
  let c := axisOf s.coord a
  withAxis s.coord a (if d % 2 = 0 then (c + 1) % n else (c + n - 1) % n)

/-- The opposite direction (R7). -/
def opposite (d : Nat) : Nat := if d % 2 = 0 then d + 1 else d - 1

/-- Where a packet to `dst` goes from here: none has arrived; otherwise the first differing axis and its entry of
LNK_ROUTE (R318). -/
def State.routeOf (s : State) (dst : Nat) : Option (Nat × Nat) :=
  ((List.range 3).find? (fun a => axisOf dst a != axisOf s.coord a)).map (fun a => (a, s.get (LNK_ROUTE.DIR a (axisOf dst a))))

/-- Whether the link that leaves here in direction `d` is its axis's dateline (R319). -/
def State.dateline (s : State) (d : Nat) : Bool :=
  let c := axisOf s.coord (d / 2)
  if d % 2 = 0 then c + 1 == s.dim (d / 2) else c == 0

/-- The lane a packet takes on direction `d`: it starts on lane a on each axis and moves to lane b at the dateline.
`lane` is the lane it came on when it stays on its axis (R319). -/
def State.laneOn (s : State) (d lane : Nat) : Nat := if s.dateline d then 1 else lane

/-- The default route tables (R318). -/
def State.defaultRoutes (s : State) : State :=
  (List.range 3).foldl (fun t a =>
    let n := s.dim a
    let own := axisOf s.coord a
    t.setWord (LNK_ROUTE.reg a) (BitVec.ofNat 64 ((List.range 32).foldl (fun w c =>
      let f := (c + n - own) % n
      w + (if c = own then 0 else if f ≤ n - f then 1 else 2) * 2 ^ (2 * c)) 0))) s

/-! ## Packets -/

/-- The virtual channel of a transport type (Table 11.9); none is reserved. -/
def ttypeVc (t : Nat) : Option Nat :=
  if t = 1 ∨ t = 2 ∨ t = 3 ∨ t = 0x0A ∨ t = 0x20 ∨ t = 0x28 then some 3
  else if t = 4 ∨ t = 5 ∨ t = 8 ∨ t = 9 ∨ t = 0x10 then some 2
  else if t = 0x18 ∨ t = 0x19 then some 0
  else if t = 0x1A then some 1
  else none

/-- A transport packet (Table 11.8). -/
def State.packet (s : State) (dst ttype : Nat) (fields body : List Byte) : List Byte :=
  leBytes 2 dst ++ leBytes 2 s.coord ++ [BitVec.ofNat 8 ttype, 0] ++ leBytes 2 body.length ++ leBytes 8 s.compact ++
    padTo 16 fields ++ body

/-- The flit payloads of a packet: every one but the last carries 244 bytes (R322). -/
def chunk244 : Nat → List Byte → List (List Byte)
  | 0, _ => []
  | f + 1, l => if l.length ≤ 244 then [l] else l.take 244 :: chunk244 f (l.drop 244)

/-- The reassembly partition of a channel in flits (Table 11.6). -/
def partition (ch : Nat) : Nat := if ch = 8 then 512 else if ch / 2 = 2 then 1280 else 256

/-- Credits left on a channel of an output bundle (R314). -/
def Bundle.credits (b : Bundle) (ch : Nat) : Nat := partition ch - SMap.get b.spent 0 ch

/-- The next BSEQ of a channel, taken. -/
def Bundle.takeSeq (b : Bundle) (ch : Nat) : Nat × Bundle :=
  (SMap.get b.sendSeq 0 ch, { b with sendSeq := SMap.set b.sendSeq 0 ch ((SMap.get b.sendSeq 0 ch + 1) % 65536) })

/-! ## Tunnels -/

/-- Whether bundle `d` has a link UP. -/
def State.bundleUp (s : State) (d : Nat) : Bool := s.on (LNK_BUNDLE_STATUS.UP d)

/-- The UP set this device reports: bit d set when bundle d has a link UP (Table 11.9). -/
def State.upSet (s : State) : Nat := (List.range 6).foldl (fun a d => a + b2n (s.bundleUp d) * 2 ^ d) 0

/-- The side directions for direction `d` in order of preference (R336). -/
def sidesOf (d : Nat) : List Nat :=
  if d / 2 = 0 then [2, 3, 4, 5] else if d / 2 = 1 then [0, 1, 4, 5] else [0, 1, 2, 3]

/-- The side direction that qualifies for tunnelling `d`, if any (R336). -/
def State.sideFor (s : State) (d : Nat) : Option Nat :=
  (sidesOf d).find? (fun e => s.bundleUp e && bit (s.bundle e).reports d)

/-- A FLIT record of a TUNNEL packet (Table 11.11). -/
def flitRecord (ch bseq : Nat) (pay : List Byte) : List Byte :=
  leBytes 8 (ch * 4 + bseq * 32 + pay.length * 2 ^ 21) ++ padTo 244 pay

/-- A CREDIT record of a TUNNEL packet. -/
def creditRecord (ch n : Nat) : List Byte := leBytes 8 (1 + ch * 4 + n * 32)

/-! ## What a bundle sends next (R313, R314, R316) -/

/-- The list with the first entry that equals `x` replaced. -/
def replaceFirst {α : Type} [DecidableEq α] (x y : α) : List α → List α
  | [] => []
  | a :: t => if a = x then y :: t else a :: replaceFirst x y t

/-- The packet a channel sends from: the one that holds the channel, once a flit of it is at hand, else the next input's,
round-robin (R316). -/
def Bundle.pick (b : Bundle) (ch : Nat) : Option OutPk :=
  match b.queue.find? (fun p => p.ch == ch && p.started) with
  | some p => if p.flits.isEmpty then none else some p
  | none =>
    (List.range 7).findSome? (fun i =>
      b.queue.find? (fun p => p.ch == ch && !(p.flits.isEmpty) && p.input == (SMap.get b.rrIn 6 (ch / 2) + 1 + i) % 7))

/-- Whether a bundle has a flit it may send on a channel. -/
def Bundle.canSend (b : Bundle) (ch : Nat) : Bool :=
  b.resend.any (fun f => f.ch == ch) || (decide (0 < b.credits ch) && (b.pick ch).isSome)

/-- The next flit of a channel and the bundle without it; a new flit takes a BSEQ and a credit (R313, R314). -/
def Bundle.next (b : Bundle) (ch : Nat) : Option (TxFlit × Bundle) :=
  match b.resend.find? (fun f => f.ch == ch) with
  | some f => some (f, { b with resend := b.resend.erase f })
  | none =>
    match b.pick ch with
    | none => none
    | some p =>
      match p.flits with
      | [] => none
      | x :: xs =>
        let (n, b1) := b.takeSeq ch
        some ({ lseq := 0, ch := ch, bseq := n, pay := x }, { b1 with
          spent := SMap.set b1.spent 0 ch (SMap.get b1.spent 0 ch + 1)
          rrVc := if ch / 2 < 3 then ch / 2 else b.rrVc
          rrIn := SMap.set b1.rrIn 6 (ch / 2) p.input
          queue := if xs.isEmpty && p.src.isNone then b1.queue.erase p else replaceFirst p { p with flits := xs, started := true } b1.queue })

/-- Credits that a flit was to return are owed again once the flit goes another way (log 46). -/
def Bundle.owe (b : Bundle) (cr : Nat × Nat) : Bundle :=
  if cr.2 = 0 then b else { b with owed := SMap.set b.owed 0 cr.1 (SMap.get b.owed 0 cr.1 + cr.2) }

/-- Takes from a bundle the flits that it may send on its VCLs, as FLIT records: VC3 first, then VC0 to VC2 (R316, R336). -/
def drainFlits : Nat → Bundle → List (List Byte) × Bundle
  | 0, b => ([], b)
  | f + 1, b =>
    match ([6, 7, 0, 1, 2, 3, 4, 5].find? b.canSend).bind b.next with
    | none => ([], b)
    | some (x, b1) =>
      let (recs, b2) := drainFlits f (b1.owe x.cr)
      (flitRecord x.ch x.bseq x.pay :: recs, b2)

/-- The TUNNEL packets of a list of records, at most 16 each. -/
def State.tunnelPackets (s : State) (dst td te : Nat) : Nat → List (List Byte) → List (List Byte)
  | 0, _ => []
  | f + 1, recs =>
    if recs.isEmpty then []
    else
      let now := recs.take 16
      s.packet dst 0x30 [BitVec.ofNat 8 td, BitVec.ofNat 8 te, 1, BitVec.ofNat 8 now.length] now.flatten
        :: s.tunnelPackets dst td te f (recs.drop 16)

/-- Queues a packet on bundle `d` as it is. -/
def State.enqueue (s : State) (d input ch : Nat) (pkt : List Byte) : State :=
  s.modBundle d (fun b => { b with queue := b.queue ++ [{ input := input, ch := ch, flits := chunk244 (pkt.length + 1) pkt }] })

/-- Wraps everything bundle `d` holds into TUNNEL packets on side direction `e`, with the credits it owes (R336). -/
def State.pump (s : State) (d e : Nat) : State :=
  let b := s.bundle d
  let n := b.resend.length + b.queue.foldl (fun a p => a + p.flits.length + 1) 0
  let (recs, b1) := drainFlits n b
  let creds := ((b.owed.filter (fun x => decide (x.1 < 8))).map (fun x => (List.range ((x.2 + 62) / 63)).map (fun i => creditRecord x.1 (min 63 (x.2 - 63 * i))))).flatten
  let pks := s.tunnelPackets (s.partner d) d e (recs.length + creds.length + 1) (recs ++ creds)
  pks.foldl (fun s p => s.enqueue e 6 8 p) (s.setBundle d { b1 with owed := b1.owed.filter (fun x => decide (8 ≤ x.1)) })

/-- Tunnels direction `d` while it has no link UP, or marks it NO_PATH (R336, R337). -/
def State.retunnel (s : State) (d : Nat) : State :=
  if s.bundleUp d then s.put (LNK_BUNDLE_STATUS.TUNNEL d) 0
  else
    match s.sideFor d with
    | some e =>
      let s1 := if s.get (LNK_BUNDLE_STATUS.TUNNEL d) = 1 then s.put (LNK_BUNDLE_STATUS.TUNNEL_SIDE d) e
        else (((s.put (LNK_BUNDLE_STATUS.TUNNEL d) 1).put (LNK_BUNDLE_STATUS.TUNNEL_SIDE d) e).setF LNK_EVENT.TUNNEL).raise bgTag
          { unit := unitId 3 (8 * d), cls := 1, reason := 0x0A04, ctx := 0, detail := d * 256 + s.get (LNK_BUNDLE_STATUS.PARTNER d) * 2 ^ 16 }
      s1.pump d e
    | none =>
      if s.get (LNK_BUNDLE_STATUS.TUNNEL d) = 2 then s
      else ((s.put (LNK_BUNDLE_STATUS.TUNNEL d) 2).setF LNK_EVENT.NO_TUNNEL).raise bgTag
        { unit := unitId 3 (8 * d), cls := 1, reason := 0x0A05, ctx := 0, detail := d * 256 + s.get (LNK_BUNDLE_STATUS.PARTNER d) * 2 ^ 16 }

/-- Whether bundle `d` has had a partner whose traffic a fault must detour (R336). -/
def State.hadPartner (s : State) (d : Nat) : Bool := s.get (LNK_PARTNER_SERIAL.SERIAL d) != 0

/-- Tunnels every direction that has no link UP and has had a partner (R336, R337). -/
def State.retunnelAll (s : State) : State :=
  (List.range 6).foldl (fun s e => if s.bundleUp e || !(s.hadPartner e) then s else s.retunnel e) s

/-- A bundle that is tunnelled passes on what it holds (R336). -/
def State.pumpOn (s : State) (d : Nat) : State :=
  if s.get (LNK_BUNDLE_STATUS.TUNNEL d) = 1 then s.pump d (s.get (LNK_BUNDLE_STATUS.TUNNEL_SIDE d)) else s

/-- Queues a packet on an output bundle. -/
def State.output (s : State) (d input ch : Nat) (pkt : List Byte) : State := (s.enqueue d input ch pkt).pumpOn d

/-- Whether the route tables lead to another device (R318, R320). -/
def State.reaches (s : State) (dst : Nat) : Bool := (s.routeOf dst).any (fun x => x.2 == 1 || x.2 == 2)

/-- Sends a packet of this device; none where a route entry is UNREACHABLE or the packet is for this device (R318,
R320). -/
def State.flp (s : State) (dst ttype : Nat) (fields body : List Byte) : Option State :=
  match s.routeOf dst with
  | none => none
  | some (a, dir) =>
    if dir = 1 ∨ dir = 2 then
      let d := 2 * a + (dir - 1)
      some (s.output d 6 (2 * (ttypeVc ttype).getD 2 + s.laneOn d 0) (s.packet dst ttype fields body))
    else none

/-- Sends a packet, or discards it with an error record of its source's unit class (R320). -/
def State.flpOr (s : State) (unit tag dst ttype : Nat) (fields body : List Byte) : State :=
  (s.flp dst ttype fields body).getD
    (s.raise tag { unit := unit, cls := 1, reason := 0x0AFF, ctx := 0, detail := 0 })

/-- Reports the UP set to every neighbour it can reach: over a link, or through a tunnel (R333, R336). -/
def State.sendLinkStatus (s : State) : State :=
  (List.range 6).foldl (fun s d =>
    if s.bundleUp d || s.get (LNK_BUNDLE_STATUS.TUNNEL d) == 1 then s.output d 6 6 (s.packet (s.partner d) 0x28 [BitVec.ofNat 8 s.upSet] []) else s) s

/-! ## Links going DOWN and UP -/

/-- The DETAIL of a link record (Table 14.3). -/
def State.linkDetail (s : State) (l : Nat) : Nat :=
  s.get (LNK_PORT_STATUS.STATE l) + l / 8 * 256 + s.get (LNK_BUNDLE_STATUS.PARTNER (l / 8)) * 2 ^ 16 +
    s.get (LNK_PARTNER_SERIAL.SERIAL (l / 8)) * 2 ^ 64

/-- A record of unit class 3 for link `l`. -/
def State.linkRecord (s : State) (l cls reason : Nat) : State :=
  s.raise bgTag { unit := unitId 3 l, cls := cls, reason := reason, ctx := 0, detail := s.linkDetail l }

/-- The bits of link `l` in its bundle's UP set and in FAB_AVAIL_LINKS. -/
def State.setUp (s : State) (l : Nat) (up : Bool) : State :=
  let d := l / 8
  let u := s.get (LNK_BUNDLE_STATUS.UP d)
  let a := s.get FAB_AVAIL_LINKS.IN_SERVICE
  let u0 := if bit u (l % 8) then u - 2 ^ (l % 8) else u
  let a0 := if bit a l then a - 2 ^ l else a
  (s.put (LNK_BUNDLE_STATUS.UP d) (u0 + b2n up * 2 ^ (l % 8))).put FAB_AVAIL_LINKS.IN_SERVICE
    (a0 + b2n (up && !(s.link l).out) * 2 ^ l)

/-- A link stops: the flits of its retry buffer go back to the bundle with their BSEQ; a direction that has lost its
last link is tunnelled, as is any that used it as its side (R334, R336). -/
def State.linkStop (s : State) (l st : Nat) : State :=
  let d := l / 8
  let was := s.upSet
  let s1 := (s.put (LNK_PORT_STATUS.STATE l) st).setUp l false
  let s2 := s1.modBundle d (fun b => { b with resend := b.resend ++ (s.link l).retry })
  let s3 := s2.modLink l (fun k => { k with train := .none, retry := [], replay := [], nakked := false, replays := 0 })
  if s3.upSet = was then (if s3.bundleUp d || !(s3.hadPartner d) then s3 else s3.retunnel d) else s3.retunnelAll.sendLinkStatus

/-- A link goes DOWN (R311). -/
def State.linkDown (s : State) (l : Nat) : State :=
  let s1 := (s.linkStop l 3).incSat (LNK_PORT_ERR.DOWNS l)
  ((s1.modLink l (fun k => { k with gapFrom := none })).setF LNK_EVENT.LINK_DOWN).linkRecord l 1 0x0A00

/-- A link joins its bundle (step 6 of Table 11.2): LSEQ and ACK are zero. -/
def State.linkJoin (s : State) (l : Nat) : State :=
  let d := l / 8
  let was := s.upSet
  let s1 := ((s.put (LNK_PORT_STATUS.STATE l) 2).put (LNK_PORT_STATUS.TRIES l) 0).setUp l true
  let s2 := s1.modLink l (fun k => { k with train := .none, gapFrom := none, lseq := 0, ackd := 0, nakked := false,
                                            replays := 0, retry := [], replay := [], since := 0 })
  let s3 := s2.put (LNK_BUNDLE_STATUS.TUNNEL d) 0
  if s3.upSet = was then s3 else s3.retunnelAll.sendLinkStatus

/-- A training attempt starts (Table 11.2): the port must be ON and in service. It takes the bundle's reach class (R303). -/
def State.trainStart (s : State) (l : Nat) : State :=
  if s.get (PWR_FN_CTRL.STATUS (96 + l)) = 2 ∧ (s.link l).out = false then
    (s.put (LNK_PORT_STATUS.STATE l) 1).modLink l (fun k => { k with
      train := .pattern, began := s.now, gapFrom := none, cls := s.get (LNK_BUNDLE_CFG.CLASS (l / 8)) })
  else s

/-- A training attempt fails; the third in a row leaves the port FAILED (R307). -/
def State.trainFail (s : State) (l : Nat) : State :=
  let n := min 15 (s.get (LNK_PORT_STATUS.TRIES l) + 1)
  let s1 := (s.put (LNK_PORT_STATUS.TRIES l) n).modLink l (fun k => { k with train := .none, gapFrom := some s.now })
  if 3 ≤ n then ((s1.put (LNK_PORT_STATUS.STATE l) 4).setF LNK_EVENT.TRAIN_FAIL).linkRecord l 5 0x0A01
  else s1.put (LNK_PORT_STATUS.STATE l) 3

/-- A reduction port that leaves service loses the partial sums it holds (R292). -/
def State.loseAdder (s : State) (l : Nat) : State :=
  let lost := s.red.buckets.filter (fun x => x.2.wait.any (fun w => w.1 == l && w.2.1))
  match lost with
  | [] => s
  | (i, _) :: _ =>
    let s1 := s.modRed (fun r => { r with
      buckets := lost.foldl (fun m x => SMap.set m {} x.1
        { x.2 with incomplete := true, wait := x.2.wait.filter (fun w => !(w.1 == l && w.2.1)) }) r.buckets })
    let s2 := lost.foldl (fun s x => s.incSat (RED_CH_STATS.INCOMPLETE ((s.red.tab.map BEnt.chan).getD x.1 0))) s1
    ((s2.setF RED_EVENT.ADDER_LOST).contribute fRepeat).raise s.runTag
      { unit := unitId 9 l, cls := 4, reason := 0x0900 + RED_EVENT.ADDER_LOST.lo, ctx := 0,
        detail := (s.red.tab.map BEnt.chan).getD i 0 +
          ((s.red.tab.take i).countP (fun b => b.chan == (s.red.tab.map BEnt.chan).getD i 0)) * 2 ^ 32 +
          s.get RED_STATUS.ATTEMPT * 2 ^ 64 + s.get RED_GROUP.RANK * 2 ^ 80 }

/-- A port leaves service until cold reset (R335). -/
def State.portOut (s : State) (l : Nat) : State :=
  let s1 := s.modLink l (fun k => { k with out := true })
  let s2 := if s.get (LNK_PORT_STATUS.STATE l) = 2
    then ((s1.linkStop l 6).incSat (LNK_PORT_ERR.DOWNS l)).setF LNK_EVENT.LINK_DOWN
    else (s1.put (LNK_PORT_STATUS.STATE l) 6).modLink l (fun k => { k with train := .none })
  (s2.linkRecord l 5 0x0AFF).loseAdder l

end Sys2Proof.Machine
end

