-- ==== Sys2Proof/Machine/Eth.lean ====
section
/-! DEFINITION. Ethernet frames: what a port lets through, what Desk firmware answers, and how a frame of the device is
made (chapter 13, R363 to R368). A frame is held without its FCS. -/

namespace Sys2Proof.Machine

/-- Big-endian bytes, and a big-endian field (network byte order). -/
def beBytes (n v : Nat) : List Byte := (leBytes n v).reverse
def beAt (l : List Byte) (off n : Nat) : Nat := leNat ((l.drop off).take n).reverse

/-- The ones' complement sum of 16-bit words. -/
def words16 : Nat → List Byte → Nat
  | 0, _ => 0
  | f + 1, l => if l.isEmpty then 0 else leNat (padTo 2 (l.take 2)).reverse + words16 f (l.drop 2)
def onesSum (l : List Byte) : Nat :=
  let t := words16 (l.length + 1) l
  if t = 0 then 0 else (t - 1) % 65535 + 1

/-! ## Ports -/

/-- The largest frame; a MAX_FRAME outside its range acts as the nearest limit (R365). -/
def State.maxFrame (s : State) : Nat := max 1518 (min 9216 (s.get HST_CTRL.MAX_FRAME))

/-- Whether an Ethernet port reads UP (R364). -/
def State.ethUp (s : State) (e : Nat) : Bool := s.get (HST_PORT_STATUS.STATE e) == 2

/-- The network of a port, 0 A and 1 B (R364). -/
def netOf (e : Nat) : Nat := e / 4

/-- The lowest-numbered UP port of a network. -/
def State.lowUp (s : State) (net : Nat) : Option Nat :=
  ((List.range 4).map (· + 4 * net)).find? (fun e => s.ethUp e)

/-- A port's own addresses. -/
def State.portMac (s : State) (e : Nat) : List Byte := leBytes 6 (s.get (HST_PORT_MAC.MAC e))
def State.portIp4 (s : State) (e : Nat) : List Byte := leBytes 4 (s.get (HST_PORT_IPV4.ADDRESS e))
def State.portIp6 (s : State) (e : Nat) : List Byte := leBytes 8 (s.word (HST_PORT_IPV6.reg e 0)).toNat ++ leBytes 8 (s.word (HST_PORT_IPV6.reg e 1)).toNat
def State.portIp (s : State) (e : Nat) (v6 : Bool) : List Byte := if v6 then s.portIp6 e else s.portIp4 e
def State.portHas (s : State) (e : Nat) (v6 : Bool) : Bool := if v6 then s.on (HST_PORT_IPV4.V6_EN e) else s.on (HST_PORT_IPV4.V4_EN e)

/-! ## Frames of the device (R366, R367) -/

/-- A frame of a port, with its tag while VLAN_EN is 1, padded to 60 bytes. -/
def State.frame (s : State) (e : Nat) (dst : List Byte) (type : Nat) (pay : List Byte) : List Byte :=
  let l := dst ++ s.portMac e ++ (if s.on (HST_PORT_CFG.VLAN_EN e) then beBytes 2 0x8100 ++ beBytes 2 (s.get (HST_PORT_CFG.PCP e) * 8192 + s.get (HST_PORT_CFG.VID e)) else []) ++
    beBytes 2 type ++ pay
  l ++ List.replicate (60 - l.length) 0

def bcastMac : List Byte := List.replicate 6 0xFF

/-- An ARP packet (RFC 826). -/
def State.arp (s : State) (e op : Nat) (tha tpa : List Byte) : List Byte :=
  beBytes 2 1 ++ beBytes 2 0x800 ++ [6, 4] ++ beBytes 2 op ++ s.portMac e ++ s.portIp4 e ++ tha ++ tpa

/-- An IPv6 packet with its pseudo-header's checksum at an offset of its payload. -/
def ip6Packet (src dst : List Byte) (next hop flow sumAt : Nat) (pay : List Byte) : List Byte :=
  let c := 0xFFFF - onesSum (src ++ dst ++ beBytes 4 pay.length ++ beBytes 4 next ++ pay)
  let c := if c = 0 then 0xFFFF else c
  beBytes 4 (6 * 2 ^ 28 + flow % 2 ^ 20) ++ beBytes 2 pay.length ++ [BitVec.ofNat 8 next, BitVec.ofNat 8 hop] ++ src ++ dst ++
    (pay.take sumAt ++ beBytes 2 c ++ pay.drop (sumAt + 2))

/-- The multicast group and MAC address of all nodes, and of the nodes that a solicitation of an address reaches. -/
def allNodes : List Byte := [0xFF, 2] ++ List.replicate 13 0 ++ [1]
def solicited (ip : List Byte) : List Byte := [0xFF, 2, 0, 0, 0, 0, 0, 0, 0, 0, 0, 1, 0xFF] ++ ip.drop 13
def mcastMac (ip : List Byte) : List Byte := [0x33, 0x33] ++ ip.drop 12

/-- A neighbour advertisement of a port (RFC 4861): flags, and where it goes. -/
def State.advert (s : State) (e flags : Nat) (mac ip : List Byte) : List Byte :=
  s.frame e mac 0x86DD (ip6Packet (s.portIp6 e) ip 58 255 0 2 ([136, 0, 0, 0] ++ beBytes 4 flags ++ s.portIp6 e ++ [2, 1] ++ s.portMac e))

/-- Desk firmware sends a frame. -/
def State.sendFrame (s : State) (e : Nat) (l : List Byte) : State := s.modHst (fun h => { h with frames := h.frames ++ [(e, l)] })

/-- One gratuitous ARP or one unsolicited advertisement for each enabled address of a port (R366). -/
def State.announce (s : State) (e : Nat) : State :=
  let s1 := if s.portHas e false then s.sendFrame e (s.frame e bcastMac 0x806 (s.arp e 1 (List.replicate 6 0) (s.portIp4 e))) else s
  if s.portHas e true then s1.sendFrame e (s1.advert e 0x20000000 (mcastMac allNodes) allNodes) else s1

/-- A neighbour's MAC address. -/
def State.neighbourMac (s : State) (net : Nat) (ip : List Byte) : Option Nat :=
  (s.hst.neigh.find? (fun x => x.1 == net && x.2.1 == ip)).map (fun x => x.2.2)

/-- The neighbour cache learns an address; it keeps 256 entries for each network (R366). -/
def State.learn (s : State) (net : Nat) (ip mac : List Byte) : State :=
  let rest := s.hst.neigh.filter (fun x => !(x.1 == net && x.2.1 == ip))
  let own := rest.filter (fun x => x.1 == net)
  let rest := if 256 ≤ own.length then (match own.head? with
    | some x => rest.erase x
    | none => rest) else rest
  s.modHst (fun h => { h with neigh := rest ++ [(net, ip, leNat mac)] })

/-- Desk firmware asks for the MAC address of an address that the device sends to, where it is not cached (R366). -/
def State.resolve (s : State) (e : Nat) (ip : List Byte) : State :=
  if (s.neighbourMac (netOf e) ip).isSome || ip.isEmpty then s
  else if ip.length = 4 then s.sendFrame e (s.frame e bcastMac 0x806 (s.arp e 1 (List.replicate 6 0) ip))
  else
    let g := solicited ip
    s.sendFrame e (s.frame e (mcastMac g) 0x86DD (ip6Packet (s.portIp6 e) g 58 255 0 2 ([135, 0, 0, 0, 0, 0, 0, 0] ++ ip ++ [1, 1] ++ s.portMac e)))

/-- Sends a packet through a port. -/
def State.sendBct (s : State) (port : Nat) (dest : Peer) (payload : List Byte) : State :=
  (s.resolve port dest.addr).modHst (fun h => { h with sent := h.sent ++ [⟨port, dest, payload⟩] })

/-- The frame that carries a BCT packet, once the neighbour's address is known (R367). The identification, the traffic
class and the flow label are free values (log 1). -/
def State.wire (s : State) (o : BctOut) : Option (List Byte) :=
  (s.neighbourMac (netOf o.port) o.dest.addr).map (fun m =>
    let v6 := o.dest.addr.length == 16
    let src := s.portIp o.port v6
    let udp := beBytes 2 (s.get HST_CTRL.UDP_PORT) ++ beBytes 2 o.dest.udp ++ beBytes 2 (8 + o.payload.length) ++ [0, 0] ++ o.payload
    let free := Config.freeNat s.freeCtr
    let pay := if v6 then ip6Packet src o.dest.addr 17 64 (free % 2 ^ 28) 6 udp
      else
        let c := 0xFFFF - onesSum (src ++ o.dest.addr ++ beBytes 2 17 ++ beBytes 2 udp.length ++ udp)
        let c := if c = 0 then 0xFFFF else c
        let h := [0x45, BitVec.ofNat 8 (free / 65536)] ++ beBytes 2 (20 + udp.length) ++ beBytes 2 (free % 65536) ++ beBytes 2 0x4000 ++ [64, 17]
        h ++ beBytes 2 (0xFFFF - onesSum (h ++ src ++ o.dest.addr)) ++ src ++ o.dest.addr ++ (udp.take 6 ++ beBytes 2 c ++ udp.drop 8)
    s.frame o.port (leBytes 6 m) (if v6 then 0x86DD else 0x800) pay)

/-! ## Frames that a port receives (R363, R365, R368) -/

/-- What follows the tag of a frame, if the tag is as VLAN_EN asks: the offset of the payload and the EtherType. -/
def State.untag (s : State) (e : Nat) (l : List Byte) : Option (Nat × Nat) :=
  let t := beAt l 12 2
  if t = 0x8100 then
    let vid := beAt l 14 2 % 4096
    if vid = (if s.on (HST_PORT_CFG.VLAN_EN e) then s.get (HST_PORT_CFG.VID e) else 0) then some (18, beAt l 16 2) else none
  else if s.on (HST_PORT_CFG.VLAN_EN e) then none
  else some (14, t)

/-- Whether a source address passes the filters (R368). -/
def State.filterOk (s : State) (net : Nat) (v6 : Bool) (ip : List Byte) : Bool :=
  let w := if v6 then 128 else 32
  let on := (List.range 16).filter (fun k => s.on (HST_FILTER_CTL.EN k))
  on.isEmpty || on.any (fun k =>
    let len := min w (s.get (HST_FILTER_CTL.PREFIX_LEN k))
    let pre := leBytes 8 (s.word (HST_FILTER_ADDR.reg k 0)).toNat ++ leBytes 8 (s.word (HST_FILTER_ADDR.reg k 1)).toNat
    s.on (HST_FILTER_CTL.V6 k) == v6 && bit (s.get (HST_FILTER_CTL.NET k)) net &&
      beAt ip 0 (w / 8) / 2 ^ (w - len) == beAt pre 0 (w / 8) / 2 ^ (w - len))

/-- The source address, source port and payload of a UDP datagram to the BCT port of this port's own address. -/
def State.datagram (s : State) (e type : Nat) (p : List Byte) : Option (Bool × List Byte × Nat × List Byte) :=
  let v6 := type == 0x86DD
  let hdr := if v6 then 40 else 20
  let total := if v6 then 40 + beAt p 4 2 else beAt p 2 2
  let src := if v6 then (p.drop 8).take 16 else (p.drop 12).take 4
  let dst := if v6 then (p.drop 24).take 16 else (p.drop 16).take 4
  let udp := (p.take total).drop hdr
  let n := beAt udp 4 2
  let seg := udp.take n
  let ipOk := if v6 then beAt p 0 1 / 16 == 6 && beAt p 6 1 == 17
    else type == 0x800 && beAt p 0 1 == 0x45 && onesSum (p.take 20) == 65535 && beAt p 6 2 % 16384 == 0 && beAt p 9 1 == 17
  let pseudo := if v6 then src ++ dst ++ beBytes 4 n ++ beBytes 4 17 else src ++ dst ++ beBytes 2 17 ++ beBytes 2 n
  if ipOk && s.portHas e v6 && dst == s.portIp e v6 && decide (hdr + 8 ≤ total) && decide (total ≤ p.length) && decide (8 ≤ n) && decide (n ≤ udp.length) &&
      beAt udp 2 2 == s.get HST_CTRL.UDP_PORT && beAt udp 6 2 != 0 && onesSum (pseudo ++ seg) == 65535 then
    some (v6, src, beAt udp 0 2, seg.drop 8)
  else none

/-- Whether a frame's payload is ARP or neighbour discovery (R366). -/
def isDesk (type : Nat) (p : List Byte) : Bool :=
  type == 0x806 || (type == 0x86DD && beAt p 6 1 == 58 && (beAt p 40 1 == 135 || beAt p 40 1 == 136))

/-- A frame is discarded and counted. -/
def State.rxDrop (s : State) (e : Nat) : State := s.incSat (HST_PORT_STATS.RX_DROPPED e)

/-- A frame arrives at a port (R363, R365, R366, R368); during a warm reset it is lost (R445). -/
def State.rxFrame (s : State) (e : Nat) (l : List Byte) (fcsGood : Bool) : State :=
  if e ≥ 8 ∨ s.ethUp e = false ∨ s.sec.warming = true then s
  else if !fcsGood || decide (l.length + 4 < 64) || decide (s.maxFrame < l.length + 4) then s.rxDrop e
  else match s.untag e l with
    | none => s.rxDrop e
    | some (o, type) =>
      let p := l.drop o
      if isDesk type p then s.modHst (fun h => { h with rxDesk := h.rxDesk ++ [(e, l)] })
      else if l.take 6 ≠ s.portMac e then s.rxDrop e
      else match s.datagram e type p with
        | none => s.rxDrop e
        | some (v6, src, port, pay) =>
          if s.filterOk (netOf e) v6 src then
            (s.incSat (HST_PORT_STATS.RX_BCT e)).modHst (fun h => { h with rxBct := h.rxBct ++ [⟨e, pay, ⟨src, port⟩⟩] })
          else ((s.rxDrop e).incSat HST_DROPS.FILTERED).setF HST_EVENT.FILTERED

/-- ETH_FRAME (R365). -/
def execEthFrame (e : Nat) (frame : List Byte) (fcsGood : Bool) (s : State) : Out := act s fun s => s.rxFrame e frame fcsGood

/-! ## ARP and neighbour discovery (R366) -/

/-- An ARP packet is taken in (RFC 826). -/
def State.arpIn (s : State) (e : Nat) (p : List Byte) : State :=
  let sha := (p.drop 8).take 6
  let spa := (p.drop 14).take 4
  let mine := (p.drop 24).take 4 == s.portIp4 e && s.portHas e false
  if beAt p 0 2 = 1 ∧ beAt p 2 2 = 0x800 ∧ beAt p 4 2 = 0x604 ∧ 28 ≤ p.length then
    let s1 := if mine || (s.neighbourMac (netOf e) spa).isSome then s.learn (netOf e) spa sha else s
    if mine = true ∧ beAt p 6 2 = 1 then s1.sendFrame e (s1.frame e sha 0x806 (s1.arp e 2 sha spa)) else s1
  else s

/-- A solicitation or an advertisement is taken in (RFC 4861). -/
def State.ndIn (s : State) (e : Nat) (mac p : List Byte) : State :=
  let n := beAt p 4 2
  let src := (p.drop 8).take 16
  let icmp := (p.drop 40).take n
  let target := (icmp.drop 8).take 16
  if beAt p 7 1 = 255 ∧ 24 ≤ icmp.length ∧ icmp.length = n ∧ onesSum (src ++ (p.drop 24).take 16 ++ beBytes 4 n ++ beBytes 4 58 ++ icmp) = 65535 then
    if beAt icmp 0 1 = 135 then
      if s.portHas e true = true ∧ target = s.portIp6 e then
        let s1 := if beAt icmp 24 1 = 1 then s.learn (netOf e) src ((icmp.drop 26).take 6) else s
        if src = List.replicate 16 0 then s1.sendFrame e (s1.advert e 0x20000000 (mcastMac allNodes) allNodes)
        else s1.sendFrame e (s1.advert e 0x60000000 mac src)
      else s
    else if beAt icmp 24 1 = 2 then s.learn (netOf e) target ((icmp.drop 26).take 6)
    else s
  else s

/-- ARP_ND (R366). -/
def execArpNd (e : Nat) (frame : List Byte) (s : State) : Out := act s fun s =>
  let s1 := s.modHst (fun h => { h with rxDesk := h.rxDesk.erase (e, frame) })
  if e ≥ 8 ∨ s.ethUp e = false ∨ s.sec.warming = true then s1
  else match s1.untag e frame with
    | none => s1
    | some (o, type) =>
      if isDesk type (frame.drop o) then
        (if type = 0x806 then s1.arpIn e (frame.drop o) else s1.ndIn e ((frame.drop 6).take 6) (frame.drop o))
      else s1

end Sys2Proof.Machine
end

