-- ==== Sys2Proof/Machine/Journal.lean ====
section
/-! DEFINITION. BCT packets, the channel table, the command journal and its mirror, completions and events
(chapter 13), as the operations that the families share. -/

namespace Sys2Proof.Machine

/-! ## Ports and packets -/

/-- The port for an answer: the given one when UP, else the lowest UP one of its network. -/
def State.portFor (s : State) (e : Nat) : Option Nat := if s.ethUp e then some e else s.lowUp (netOf e)

/-- The most body bytes of a packet (R369). -/
def State.bodyMax (s : State) : Nat := min 8192 (64 * ((s.maxFrame - 166) / 64))

/-- A BCT packet (Table 13.1). -/
def bctPacket (ty ch op flags session status seq doneUpto evUpto stamp : Nat) (args body : List Byte) : List Byte :=
  leBytes 2 0x4342 ++ [1, BitVec.ofNat 8 ty] ++ leBytes 2 ch ++ [BitVec.ofNat 8 op, BitVec.ofNat 8 flags] ++
    leBytes 4 session ++ leBytes 2 body.length ++ [BitVec.ofNat 8 status, 0] ++ leBytes 8 seq ++ leBytes 8 doneUpto ++
    leBytes 8 evUpto ++ leBytes 8 stamp ++ padTo 48 args ++ body

/-- A channel's host on a network (R367). -/
def Chan.host (c : Chan) (net : Nat) : Peer :=
  ⟨(if net = 0 then c.addrA else c.addrB).take (if c.ipv6 then 16 else 4), c.hostUdp⟩

/-- An ACK for a copy, on the network it came by (R370). -/
def State.ack (s : State) (cp : Copy) (status : Nat) : State :=
  match s.portFor cp.port with
  | none => s
  | some e =>
    let ch := leAt cp.payload 4 2
    let c := s.chan ch
    s.sendBct e cp.peer (bctPacket 1 ch (leAt cp.payload 6 1) (netOf e) c.session status (leAt cp.payload 16 8)
      c.nextSeq c.nextDone s.compact [] [])

/-! ## The channel table and journal records as bytes -/

/-- A channel table entry (Table 13.3). -/
def Chan.bytes (c : Chan) : List Byte :=
  [BitVec.ofNat 8 (b2n c.isOpen), BitVec.ofNat 8 (b2n c.ipv6 + 2 * b2n c.events)] ++ leBytes 2 c.hostUdp ++
    leBytes 4 c.session ++ padTo 16 c.addrA ++ padTo 16 c.addrB ++ leBytes 8 c.nextSeq ++ leBytes 8 c.nextStart ++
    leBytes 8 c.nextDone ++ leBytes 8 c.retire ++ leBytes 8 c.evNext ++ leBytes 8 c.evAck ++
    leBytes 32 (c.window.foldl (fun w x => w ||| 2 ^ (x - c.nextSeq)) 0) ++ List.replicate 8 0

/-- A channel from its table entry. -/
def chanOf (l : List Byte) : Chan :=
  let n := leAt l 0x28 8
  { isOpen := leAt l 0 1 == 1, ipv6 := bit (leAt l 1 1) 0, events := bit (leAt l 1 1) 1, hostUdp := leAt l 2 2,
    session := leAt l 4 4, addrA := (l.drop 8).take 16, addrB := (l.drop 0x18).take 16, nextSeq := n,
    nextStart := leAt l 0x30 8, nextDone := leAt l 0x38 8, retire := leAt l 0x40 8, evNext := leAt l 0x48 8,
    evAck := leAt l 0x50 8,
    window := (List.range 256).filterMap (fun k => if bit (leAt l 0x58 32) k then some (n + k) else none) }

/-- A journal record (Table 13.7, R390). -/
def JRec.bytes (r : JRec) : List Byte :=
  padTo r.len (leBytes 4 r.len ++ [BitVec.ofNat 8 r.st, BitVec.ofNat 8 r.net] ++ leBytes 2 r.ch ++ leBytes 8 r.seq ++
    leBytes 8 r.stampA ++ [BitVec.ofNat 8 r.status, 0, 0, 0] ++ leBytes 4 r.cbody.length ++ leBytes 8 r.result ++
    leBytes 8 r.stampS ++ leBytes 8 r.stampE ++ List.replicate 8 0 ++ padTo 96 r.hdr ++ r.body ++ r.cbody)

/-- A record from its bytes at a log offset. -/
def recOf (off : Nat) (l : List Byte) : JRec :=
  let body := leAt l (64 + 12) 2
  { off := off, len := leAt l 0 4, st := leAt l 4 1, net := leAt l 5 1, port := 4 * leAt l 5 1, ch := leAt l 6 2,
    seq := leAt l 8 8, hdr := (l.drop 64).take 96, body := (l.drop 160).take body, stampA := leAt l 16 8,
    status := leAt l 24 1, result := leAt l 0x20 8, cbody := (l.drop (160 + body)).take (leAt l 28 4),
    stampS := leAt l 0x28 8, stampE := leAt l 0x30 8, peer := ⟨[], 0⟩, mirrored := true }

/-- The opcode of a journaled command. -/
def JRec.op (r : JRec) : Nat := leAt r.hdr 6 1

/-- Bytes of a command's ARGS (Table 13.4). -/
def JRec.arg (r : JRec) (off n : Nat) : Nat := leAt r.hdr (0x30 + off) n

/-- Whether ranges of ARGS are zero: offset and bytes of each (R380). -/
def JRec.zeros (r : JRec) (l : List (Nat × Nat)) : Bool := l.all (fun x => r.arg x.1 x.2 == 0)

/-- An error record's 64 bytes (Table 14.1). -/
def Rec.bytes (r : Rec) : List Byte :=
  leBytes 2 r.unit ++ leBytes 1 (r.cls % 8 + b2n r.mixed * 128) ++ leBytes 1 r.ctx ++ leBytes 2 r.reason ++ leBytes 2 r.count ++ leBytes 8 r.stamp ++
    leBytes 2 r.domain ++ leBytes 2 r.tj ++ leBytes 2 r.vcore ++ leBytes 2 r.vshelf ++ leBytes 4 r.step ++ leBytes 4 r.mb ++ leBytes 8 r.opTag ++
    leBytes 4 r.seq ++ leBytes 4 r.delta ++ leBytes 16 r.detail

/-! ## The log -/

def logBase : Nat := 0x21000
def logEnd : Nat := 0x10000000

/-- Where a record of `len` bytes goes, if it fits between TAIL and HEAD (R390, R391). -/
def placeRec (isEmpty : Bool) (head tail len : Nat) : Option Nat :=
  if isEmpty || decide (head ≤ tail) then
    if tail + len ≤ logEnd then some tail
    else if logBase + len < head ∨ (isEmpty ∧ logBase + len ≤ logEnd) then some logBase
    else none
  else if tail + len < head then some tail else none

/-- The free MiB of the log (HST_STATUS.JOURNAL_FREE). -/
def freeMib (isEmpty : Bool) (head tail : Nat) : Nat :=
  let used := if isEmpty then 0 else if head ≤ tail then tail - head else logEnd - logBase - (head - tail)
  (logEnd - logBase - used) / 2 ^ 20

/-- The state with HEAD and TAIL as the records now stand. -/
def State.logPtrs (s : State) (tail : Nat) : State :=
  let head := match s.hst.recs with
    | [] => tail
    | r :: _ => r.off
  ((s.put HST_JOURNAL.TAIL tail).put HST_JOURNAL.HEAD head).put HST_STATUS.JOURNAL_FREE
    (freeMib s.hst.recs.isEmpty head tail)

/-- HEAD advances past the oldest records whose channel is CLOSED or whose SEQ is below RETIRE (R391). -/
def reapRecs (s : State) : List JRec → List JRec
  | [] => []
  | r :: rs =>
    let c := s.chan r.ch
    if !c.isOpen || decide (r.seq < c.retire) then reapRecs s rs else r :: rs

def State.reap (s : State) : State :=
  (s.modHst (fun h => { h with recs := reapRecs s h.recs })).logPtrs (s.get HST_JOURNAL.TAIL)

/-- A command's record. -/
def State.rec? (s : State) (ch seq : Nat) : Option JRec := s.hst.recs.find? (fun r => r.ch == ch && r.seq == seq)

/-- The state with a command's record changed. -/
def State.modRec (s : State) (ch seq : Nat) (f : JRec → JRec) : State :=
  s.modHst (fun h => { h with recs := h.recs.map (fun r => if r.ch = ch ∧ r.seq = seq then f r else r) })

/-! ## The mirror -/

/-- The device goes SOLO (R394): what waited for the mirror stands now. -/
def State.goSolo (s : State) : State :=
  if s.get HST_STATUS.MIRROR = 1 then s
  else { ((((s.put HST_STATUS.MIRROR 1).setF HST_EVENT.MIRROR_LOST).raise deskTag
    { unit := unitId 8 0xFFF, cls := 1, reason := 0x0C06, ctx := 0, detail := 0xFFFF }).modHst
      (fun h => { h with mirrorAt := [], recs := h.recs.map (fun r => { r with mirrored := true }) })) with
        remote := s.remote.filter (fun o => o.issuer != 0x43FE || !o.write) }

/-! ## Completions -/

/-- The completion packet of a record, as it leaves on a network (R379, R386). -/
def State.complPacket (s : State) (r : JRec) (net : Nat) (resent : Bool) : List Byte :=
  let c := s.chan r.ch
  bctPacket 2 r.ch r.op (net + 2 * b2n resent) c.session r.status r.seq c.nextSeq c.nextDone s.compact
    (leBytes 8 r.stampA ++ leBytes 8 r.stampS ++ leBytes 8 r.stampE ++ leBytes 8 r.result) r.cbody

/-- The port a completion leaves by (R379). -/
def State.complPort (s : State) (r : JRec) : Option Nat :=
  if s.ethUp r.port then some r.port
  else match s.lowUp r.net with
    | some e => some e
    | none => s.lowUp (1 - r.net)

/-- Sends a record's completion once; with no port UP it stays in the journal (R379). -/
def State.sendCompl (s : State) (r : JRec) : State :=
  let s1 := s.modRec r.ch r.seq (fun r => { r with sent := true })
  match s.complPort r with
  | none => s1
  | some e =>
    let dest := if netOf e = r.net ∧ r.peer.addr ≠ [] then r.peer else (s.chan r.ch).host (netOf e)
    s1.sendBct e dest (s.complPacket r (netOf e) false)

/-- NEXT_DONE moves past completed commands, and NEXT_START past those and past commands that completed unstarted. -/
def State.advance : Nat → State → Nat → State
  | 0, s, _ => s
  | f + 1, s, ch =>
    let c := s.chan ch
    let done := fun (n : Nat) => (s.rec? ch n).any (fun r => r.st == 3)
    if done c.nextDone then State.advance f (s.setChan ch { c with nextDone := c.nextDone + 1, nextStart := max c.nextStart (c.nextDone + 1) }) ch
    else if done c.nextStart then State.advance f (s.setChan ch { c with nextStart := c.nextStart + 1 }) ch
    else s

/-- The completion of a channel that goes out next: the lowest one unsent below NEXT_DONE. -/
def State.nextCompl (s : State) (ch : Nat) : Option JRec :=
  (s.hst.recs.filter (fun r => r.ch == ch && r.st == 3 && !r.sent && decide (r.seq < (s.chan ch).nextDone))).foldl
    (fun (b : Option JRec) r => match b with
      | none => some r
      | some x => if r.seq < x.seq then some r else b) none

/-- Whether BCT serves its channels: the Wardrobe is in service, and neither a takeover nor a warm reset is in progress (R373,
R396, R398). -/
def State.bctOn (s : State) : Bool :=
  s.on WRD_STATUS.IN_SERVICE && !s.sec.warming && !(s.get HST_TAKEOVER.STATE == 1 || s.get HST_TAKEOVER.STATE == 2)

/-- Completions go out in sequence order, each once it is mirrored (R379, R394). -/
def State.flushDone : Nat → State → Nat → State
  | 0, s, _ => s
  | f + 1, s, ch =>
    match s.nextCompl ch with
    | none => s
    | some r => if r.mirrored && s.bctOn then State.flushDone f (s.sendCompl r) ch else s

/-- Completions of every channel that may go out go out. -/
def State.flushAll (s : State) : State :=
  (s.hst.chans.map (·.1)).foldl (fun s c => State.flushDone (s.hst.recs.length + 1) s c) s

/-- Answers that were held back for a command go out (R370, R394, R395). -/
def State.releaseAcks (s : State) (p : Nat → Nat → Bool) (status : Nat) : State :=
  let go := s.hst.heldAcks.filter (fun x => p x.1 x.2.1)
  go.foldl (fun s x => s.ack x.2.2 status) (s.modHst (fun h => { h with heldAcks := h.heldAcks.filter (fun x => !(p x.1 x.2.1)) }))

/-- What waited for the mirror goes on without it (R394). -/
def State.soloFlush (s : State) : State := (s.goSolo.releaseAcks (fun _ _ => true) 1).flushAll

/-- The MEM_WRITE packets that Desk firmware sends to the buddy, of 4,096 bytes at most (R393, R428). `mark` marks the
operation of a seal. -/
def State.deskSend : Nat → State → Nat → Nat → Option (Nat × Nat) → Nat → List Byte → State
  | 0, s, _, _, _, _, _ => s
  | f + 1, s, iss, mark, ch, off, l =>
    if l.isEmpty then s
    else
      let now := l.take 4096
      let tag := s.nextTag % 65536
      let s1 := (s.flp (s.get HST_BUDDY.COORD) 0x19 (leBytes 6 off ++ leBytes 2 now.length ++ leBytes 2 tag ++ leBytes 2 iss) now).getD s
      State.deskSend f { s1 with nextTag := s.nextTag + 1, remote := s1.remote ++
        [{ tag := tag, issuer := iss, write := true, die := 16, addr := off, bytes := now.length, stamp := s.now, tile := mark, chan := ch }] }
        iss mark ch (off + 4096) (l.drop 4096)

/-- Puts bytes into the buddy's mirror region (R393), for a record or for the region. -/
def State.mirrorSend (f : Nat) (s : State) (ch : Option (Nat × Nat)) (off : Nat) (l : List Byte) : State := State.deskSend f s 0x43FE 0 ch off l

/-- The control block of the own region (R389). -/
def State.ctlBytes (s : State) : List Byte := leBytes 8 (s.get HST_JOURNAL.HEAD) ++ leBytes 8 (s.get HST_JOURNAL.TAIL) ++ leBytes 8 s.hst.gen

/-- An operation of Desk firmware to a buddy that no route leads to completes with ADDRESS_ERROR (R207, R320). -/
def State.deskUnreach (s : State) : State :=
  (s.setF WRD_EVENT.REMOTE_ERROR).raise deskTag
    { unit := unitId 8 0xFFF, cls := 1, reason := 0x0600 + WRD_EVENT.REMOTE_ERROR.lo, ctx := 0, detail := 0xFFFF }

/-- The mirror write of a record, its channel's entry and the control block. -/
def State.mirrorBytes (s : State) (ch seq : Nat) (own : Option (Nat × Nat)) : State :=
  match s.rec? ch seq with
  | none => s
  | some r =>
    let s1 := State.mirrorSend 5 s own r.off r.bytes
    let s2 := State.mirrorSend 1 s1 own (0x1000 + ch * 128) (s1.chan ch).bytes
    State.mirrorSend 1 s2 own 0 s2.ctlBytes

/-- A mirror write is due: with no buddy the device goes SOLO, and so it does where the write has no route (R320, R394). -/
def State.mirrorPath (s : State) : State :=
  if s.get HST_STATUS.MIRROR = 1 then s
  else if s.on HST_BUDDY.VALID = false then s.soloFlush
  else if s.reaches (s.get HST_BUDDY.COORD) = false then s.deskUnreach.soloFlush
  else s

/-- A record and its channel's entry have changed: the change goes to the own region and then to the mirror (R392).
While SOLO, or with no buddy, it stands at once (R394). While re-mirroring it stands at once too, and its write follows the
copy (R395). -/
def State.mirrorRec (s0 : State) (ch seq : Nat) : State :=
  let s := s0.mirrorPath
  if s.get HST_STATUS.MIRROR = 0 then
    match s.rec? ch seq with
    | none => s
    | some _ =>
      ((s.mirrorBytes ch seq (some (ch, seq))).modRec ch seq (fun r => { r with mirrored := false })).modHst
        (fun h => { h with mirrorAt := h.mirrorAt ++ [(ch, seq, s.now)] })
  else if s.get HST_STATUS.MIRROR = 2 then (s.mirrorBytes ch seq none).modRec ch seq (fun r => { r with mirrored := true })
  else s.modRec ch seq (fun r => { r with mirrored := true })

/-- A channel's entry alone has changed (R392). -/
def State.mirrorChan (s : State) (ch : Nat) : State :=
  if s.get HST_STATUS.MIRROR ≠ 1 ∧ s.on HST_BUDDY.VALID = true then
    let t := s.mirrorPath
    if t.get HST_STATUS.MIRROR ≠ 1 then State.mirrorSend 1 t none (0x1000 + ch * 128) (t.chan ch).bytes else t
  else s

/-! ## A command's end -/

/-- A command completes (R379, R386). -/
def State.finish (s : State) (ch seq status result : Nat) (cbody : List Byte := []) : State :=
  match s.rec? ch seq with
  | none => s
  | some r =>
    if r.st = 3 then s
    else
      let s1 := s.modRec ch seq (fun r => { r with st := 3, status := status, result := result, cbody := cbody, stampE := s.compact })
      let s2 := (State.advance (2 * s1.hst.recs.length + 1) s1 ch).mirrorRec ch seq
      State.flushDone (s2.hst.recs.length + 1) s2 ch

/-- A command completes with a RESULT that no rule states: a free value (log 1). -/
def State.complete (s : State) (ch seq status : Nat) : State :=
  let (f, s1) := s.draw
  s1.finish ch seq status (f % 2 ^ 64)

/-- A command with bad arguments or a bad body is performed as nothing (R380); otherwise it goes on to `t`. -/
def State.orReject (s : State) (r : JRec) (argOk bodyOk : Bool) (t : State) : State :=
  if !argOk then s.complete r.ch r.seq 0x36 else if !bodyOk then s.complete r.ch r.seq 0x37 else t

/-- The command of a channel that starts next, with its record (R378). -/
def State.headRec (s : State) (ch : Nat) : Option JRec := s.rec? ch (s.chan ch).nextStart

/-- Whether a command's predecessor lets it start: it has completed, or both are RUNs and its boundary token has been
sent (R378). -/
def State.predOk (s : State) (r : JRec) : Bool :=
  (s.chan r.ch).nextDone == r.seq ||
    (r.op == 0x10 &&
      (match s.rec? r.ch (r.seq - 1) with
       | none => false
       | some p => p.op == 0x10 && (p.st == 3 || s.fab.micros.any (fun m => m.tokenSent && m.run.chan == r.ch && m.run.seq == p.seq))))

/-- Whether the next command of a channel may start (R374, R378, R394). -/
def State.mayStart (s : State) (ch : Nat) (r : JRec) : Bool :=
  r.st == 1 && r.mirrored && s.predOk r && s.bctOn && (s.chan ch).closing.isNone

/-- A channel's command is performed: when it may start, its record turns STARTED, and once that change stands, `k`
performs it (R378, R392, R394). `sel` picks the commands of the row. -/
def State.perform (s : State) (ch : Nat) (sel : JRec → Bool) (k : State → JRec → State) : State :=
  match s.hst.recs.find? (fun r => r.ch == ch && r.st == 2 && !r.begun && r.mirrored && sel r) with
  | some r => if s.bctOn then k (s.modRec ch r.seq (fun r => { r with begun := true })) r else s
  | none =>
    match s.headRec ch with
    | none => s
    | some r =>
      if s.mayStart ch r && sel r then
        let s1 := s.modRec ch r.seq (fun r => { r with st := 2, stampS := s.compact })
        let s2 := (s1.modChan ch (fun c => { c with nextStart := r.seq + 1 })).mirrorRec ch r.seq
        match s2.rec? ch r.seq with
        | some r2 => if r2.mirrored then k (s2.modRec ch r.seq (fun r => { r with begun := true })) r2 else s2
        | none => s2
      else s

/-! ## Events -/

/-- The event packet that leaves on a network (Table 13.6). -/
def State.eventPacket (s : State) (ch net : Nat) (resent : Bool) (e : EventOut) : List Byte :=
  let c := s.chan ch
  bctPacket 3 ch e.kind (net + 2 * b2n resent) c.session 0 e.num c.nextSeq c.nextDone s.compact e.args e.body

/-- Sends an event once on each network that is up (R387). -/
def State.emitEvent (s : State) (ch : Nat) (resent : Bool) (e : EventOut) : State :=
  [0, 1].foldl (fun s net =>
    match s.lowUp net with
    | none => s
    | some p => s.sendBct p ((s.chan ch).host net) (s.eventPacket ch net resent e)) s

/-- A new event on one channel: at most 256 stay unacknowledged, the oldest is dropped and counted in LOST (R387). -/
def State.eventOn (s : State) (kind : Nat) (args body : List Byte) (ch : Nat) : State :=
  let c := s.chan ch
  let drop := decide (256 ≤ c.evs.length)
  let lost := if drop then c.lost + 1 else c.lost
  let ev : EventOut := ⟨c.evNext, kind, padTo 40 args ++ leBytes 4 lost ++ List.replicate 4 0, body, s.now⟩
  let s1 := if drop then s.setF HST_EVENT.EVENT_LOST else s
  (s1.setChan ch { c with evNext := c.evNext + 1, evs := (if drop then c.evs.drop 1 else c.evs) ++ [ev],
                          lost := 0 }).emitEvent ch false ev

/-- The device sends an event to every OPEN channel that takes events (R387). -/
def State.event (s : State) (kind : Nat) (args body : List Byte) : State :=
  if s.on WRD_STATUS.IN_SERVICE then
    (s.hst.chans.filter (fun x => x.2.isOpen && x.2.events)).foldl (fun s x => s.eventOn kind args body x.1) s
  else s

/-- Open channels (HST_STATUS.OPEN). -/
def State.countOpen (s : State) : State := s.put HST_STATUS.OPEN (s.hst.chans.countP (fun x => x.2.isOpen))

end Sys2Proof.Machine
end

