-- ==== Sys2Proof/Machine/Power.lean ====
section
/-! DEFINITION. Rack time, the power budget, lending, power states and thermal limits (chapter 02). -/

namespace Sys2Proof.Machine

/-! ## Rack time -/

/-- A record of unit class 11 (Table 14.3): PWR_RT_CAPTURE and OFFSET. -/
def State.rtRecord (s : State) (flag : Nat) : State :=
  s.raise 0 { unit := unitId 11 0, cls := 1, reason := 0x0100 + flag, ctx := 0,
              detail := s.get PWR_RT_CAPTURE.CAPTURE + s.get PWR_RT_STATUS.OFFSET * 2 ^ 64 }

/-- The offset of a captured count from the nearest multiple of 2^P; halfway takes the lower one (R47). -/
def rtOffset (c p : Nat) : Int :=
  let r := c % 2 ^ p
  if r ≤ 2 ^ p / 2 then (r : Int) else (r : Int) - 2 ^ p

/-- An integer saturated to a signed 16-bit field. -/
def sat16 (i : Int) : Nat := wrap 16 (max (-32768) (min 32767 i))

/-- An armed RSYNC edge: the load of R46. -/
def State.rtLoad (s : State) : State :=
  let v := s.get PWR_RT_LOAD.LOAD
  let load := fun (s : State) =>
    ((s.put PWR_RT_COUNT.COUNT v).clrF PWR_RT_CTRL.ARM).modPwr (fun p => { p with slew := 0, skip := false })
  if s.on PWR_RT_STATUS.VALID then
    if s.now ≤ v then load s
    else ((s.clrF PWR_RT_CTRL.ARM).setF PWR_RT_STATUS.LOAD_REFUSED).rtRecord 3
  else if s.get PWR_RT_CTRL.DOMAIN = 0xFFFF then (s.setF PWR_RT_STATUS.LOAD_REFUSED).rtRecord 3
  else (load s).setF PWR_RT_STATUS.VALID

/-- An RSYNC edge that is a check (R47). DESIGN CHOICE (log 63): a check that finds at most one tick of offset while a slew
is in progress gives the slew the new offset, and the next 1,024 ticks count from that edge. -/
def State.rtCheck (s : State) : State :=
  let off := rtOffset s.now (s.get PWR_RT_CTRL.CHECK_LOG2)
  let s1 := (s.put PWR_RT_CAPTURE.CAPTURE s.now).put PWR_RT_STATUS.OFFSET (sat16 off)
  if 1 < off ∨ off < -1 then
    ((s1.setF PWR_RT_STATUS.DRIFT).rtRecord 2).modPwr (fun p => { p with slew := off, slewAt := s.now })
  else s1.modPwr (fun p => { p with slew := if p.slew = 0 then 0 else off, slewAt := s.now })

/-- RSYNC_PULSE (R46 to R48): not sampled during holdover. -/
def execRsyncPulse (s : State) : Out :=
  act s fun s =>
    if s.on PWR_RT_STATUS.HOLDOVER then s
    else if s.on PWR_RT_CTRL.ARM then s.rtLoad else s.rtCheck

/-- SLEW_STEP (R47): once in 1,024 ticks one increment is omitted or one is added. -/
def execSlewStep (s : State) : Out :=
  act s fun s =>
    if s.pwr.slew = 0 ∨ s.now < s.pwr.slewAt + 1024 then s
    else if 0 < s.pwr.slew then s.modPwr (fun p => { p with slew := p.slew - 1, slewAt := s.now, skip := true })
    else (s.incMod PWR_RT_COUNT.COUNT).modPwr (fun p => { p with slew := p.slew + 1, slewAt := s.now })

/-- RCLK_LOST (R48). -/
def execRclkLost (s : State) : Out :=
  act s fun s =>
    if s.on PWR_RT_STATUS.HOLDOVER then s
    else ((((((s.setF PWR_RT_STATUS.HOLDOVER).setF PWR_RT_STATUS.RCLK_LOST).clrF PWR_RT_STATUS.LOCK).rtRecord 4).alert
      MGT_ALERT.RCLK).modPwr (fun p => { p with rclk := false }))

/-- RCLK_RETURN (R48): the PLL locks again. -/
def execRclkReturn (s : State) : Out :=
  act s fun s =>
    if s.on PWR_RT_STATUS.HOLDOVER then
      ((s.clrF PWR_RT_STATUS.HOLDOVER).setF PWR_RT_STATUS.LOCK).modPwr (fun p => { p with rclk := true })
    else s

/-- One rack tick (R45), unless a slew omits it. -/
def State.tick (s : State) : State :=
  if s.railsOk && s.pwr.running then
    if s.pwr.skip then s.modPwr (fun p => { p with skip := false }) else s.incMod PWR_RT_COUNT.COUNT
  else s

/-! ## The power window -/

/-- Budget in force after throttling (R62): down to one half at THROTTLE_T + 10 °C. -/
def effectiveBudget (budget : Nat) (throttling : Bool) (tj th : Int) : Nat :=
  if throttling then budget - budget * (min 160 (tj - th)).toNat / 320 else budget

/-- A signed 16-bit field. -/
def State.getS (s : State) (f : Fld) : Int := signed 16 (s.get f)

def State.effective (s : State) : Nat :=
  effectiveBudget (s.get PWR_BUDGET.BUDGET) s.pwr.throttling (s.getS PWR_SENSE.TJ_MAX) (s.getS PWR_THERM.THROTTLE_T)

/-- The in-service Benches of a group (R50). -/
def State.groupSize (s : State) (g : Nat) : Nat := (List.range 33).countP (fun c => s.inServ (g * 33 + c))

/-- Quarters of one Bench's share that a group's Benches leave unused: 4 for a lending Bench, 3 and 2 for one in the two
steps of its ramp (R54, R56). -/
def State.idleQuarters (s : State) (g : Nat) : Nat :=
  (List.range 33).foldl (fun a c =>
    let b := s.bench (g * 33 + c)
    a + (if b.lending then 4 else if b.ramp = 1 then 3 else if b.ramp = 2 then 2 else 0)) 0

/-- The highest ceiling c for which c/256 of a draw fits a share of `num / den` (R52). -/
def ceilFor (draw num den : Nat) : Nat := if draw = 0 then 256 else min 256 (num * 256 / (den * draw))

/-- The guaranteed tile beats in 4,096 rack ticks, 0 where no rate is guaranteed (Table 02.1, R40, R42). -/
def minTileBeats (mv : Nat) (tj : Int) : Nat :=
  let lin := fun (a b : Nat) (x : Nat) => a * 100 + (b * 100 - a * 100) * x / 100     -- in 1/10,000 G beats/s
  let v := min 750 mv
  let at25 := if v < 650 then lin 162 235 (v - 550) else lin 235 275 (v - 650)
  let at85 := if v < 650 then lin 150 220 (v - 550) else lin 220 260 (v - 650)
  let t := (max 400 tj).toNat
  if 550 ≤ mv ∧ mv ≤ 800 ∧ 0 ≤ tj ∧ tj ≤ 1360 then
    (at25 * (1360 - t) + at85 * (t - 400)) / 960 * 1024 / 1000
  else 0

/-- The typical device power that a guarantee asks for, in 0.25 W units (Table 00.2, R42). DESIGN CHOICE (log 63): between
two operating points it is that of the higher one, since the manual gives no power between them. -/
def typicalPower (mv : Nat) : Nat := if mv ≤ 550 then 1920 else if mv ≤ 650 then 3120 else 4200

/-- The ON groups (R52). -/
def State.onGroups (s : State) : List Nat := (List.range 32).filter (fun g => s.get (PWR_FN_CTRL.STATUS g) == 2)

/-- The least common multiple of the group sizes, so that shares of a Bench are whole numbers of its parts. -/
def State.shareUnit (s : State) (on : List Nat) : Nat := on.foldl (fun a g => Nat.lcm a (max 1 (s.groupSize g))) 1

/-- The shares of the ON groups in a window, each over one denominator: an equal part of what the other consumers leave
of the budget, less what the group's Benches lend, more an equal part of what is lent if the group borrows (R52, R54,
R57). The answer holds the denominator, the sum lent over it, and each group's share over it. -/
def State.shares (s : State) (on takers : List Nat) (eff other : Nat) : Nat × Nat × (Nat → Nat) :=
  let n := max 1 on.length
  let u := s.shareUnit on
  let k := max 1 takers.length
  let base := (eff - other) * 4 * u * k                    -- over 4 u k n
  let lend := fun g => if s.on PWR_LEND_CTRL.LEND_EN = true ∧ takers ≠ [] then (eff - other) * (u / max 1 (s.groupSize g)) * k * s.idleQuarters g else 0
  let total := on.foldl (fun a g => a + lend g) 0
  (4 * u * k * n, total, fun g => base - lend g + (if takers.contains g then total / k else 0))

/-- The groups that borrow in this window (R54). -/
def State.borrowers (s : State) : List Nat := s.onGroups.filter s.pwr.takers.contains

/-- The ceilings of some ON groups follow from the shares (R52, R56). -/
def State.setCeils (s : State) (which : List Nat) : State :=
  let on := s.onGroups
  let (den, total, share) := s.shares on s.borrowers s.effective s.pwr.other
  let s1 := which.foldl (fun s g => s.put (PWR_GROUP_PACE.PACE_CEIL g) (ceilFor (Config.groupDraw g s.pwr.windows) (share g) den)) s
  s1.modPwr (fun p => { p with borrow := total / den })

/-- Whether TJ_MAX and VDD_CORE lie in the ranges of R40. -/
def inRange40 (mv : Nat) (tj : Int) : Bool := decide (550 ≤ mv) && decide (mv ≤ 800) && decide (0 ≤ tj) && decide (tj ≤ 1360)

/-- What the power manager reports at the end of a window: power, loans and beat rates (R39, R42, R52). -/
def State.report (s : State) (other beats sbeats : Nat) : State :=
  let eff := s.effective
  let on := s.onGroups
  let mv := s.get PWR_SENSE.VDD_CORE_MV
  let tj := s.getS PWR_SENSE.TJ_MAX
  let est := min 65535 (other + on.foldl (fun a g => a + Config.groupDraw g s.pwr.windows * s.get (PWR_GROUP_PACE.PACE_CEIL g) / 256) 0)
  let s1 := ((s.put PWR_POWER.EFFECTIVE eff).put PWR_POWER.LENT (min 65535 s.pwr.borrow)).put PWR_POWER.ESTIMATE est
  let s2 := if on.any (fun g => decide (s.get (PWR_GROUP_PACE.PACE_CEIL g) < 256)) then s1.setF PWR_EVENT.BUDGET_LIMITED else s1
  let lo := if typicalPower mv ≤ eff ∧ s.pwr.throttling = false then minTileBeats mv tj else 0
  let slo := if inRange40 mv tj then 11264 else 0
  (s2.put PWR_BEAT_RATE.TILE_BEATS (min (2 ^ 32 - 1) (lo + beats))).put PWR_BEAT_RATE.SHELF_BEATS (min (2 ^ 32 - 1) (slo + sbeats))

/-- POWER_WINDOW (R38, R52, R54, R56): once in 400 rack ticks. The estimates and the measured rates and the Shelf voltage,
which Table 16.6 keeps within 735 mV to 765 mV, are free values (log 1); the ceilings follow from them. DESIGN CHOICE (log
63): an ON group is at its ceiling when the ceiling of the last window held it below its unpaced rate. -/
def execPowerWindow (s : State) : Out :=
  act s fun s =>
    if s.now < s.pwr.windowAt + 400 then s
    else
      let (other, s1) := s.draw
      let (beats, s2) := s1.draw
      let (sbeats, s3) := s2.draw
      let (mv, s4) := s3.draw
      let s5 := (s4.put PWR_SENSE.VDD_SHELF_MV (735 + mv % 31)).modPwr (fun p => { p with
        windowAt := s.now, windows := p.windows + 1, other := other
        takers := s.onGroups.filter (fun g => decide (s.get (PWR_GROUP_PACE.PACE_CEIL g) < 256)) })
      (s5.setCeils s5.onGroups).report other beats sbeats

/-- LEND_START (R54, R57): the Bench has stalled on a WAIT or an empty queue for longer than THRESHOLD. It resumes in a wake
slot whether or not its share can be lent. -/
def execLendStart (p : Nat) (s : State) : Out :=
  act s fun s =>
    match (s.bench p).waiting with
    | none => s
    | some t =>
      if t + s.get PWR_LEND_CTRL.THRESHOLD < s.now ∧ s.inServ p = true ∧ s.get (PWR_FN_CTRL.STATUS (p / 33)) = 2
      then s.modBench p (fun b => { b with lending := true }) else s

/-- The groups that wait for a wake slot (R55). -/
def State.wakers (s : State) : List Nat :=
  (List.range 32).filter (fun g => s.pwr.waking.contains g || (List.range 33).any (fun c => (s.bench (g * 33 + c)).asking))

/-- WAKE_SLOT (R55, R56): the lowest waiting group is admitted, and the ceilings of the borrowing groups fall. -/
def execWakeSlot (s : State) : Out :=
  act s fun s =>
    match s.wakers with
    | [] => s
    | g :: _ =>
      if s.now < s.pwr.nextSlot then s
      else
        let s1 := (List.range 33).foldl (fun s c =>
          if (s.bench (g * 33 + c)).asking then
            s.modBench (g * 33 + c) (fun b => { b with asking := false, lending := false, ramp := 1, rampAt := s.now })
          else s) s
        let s2 := if s1.pwr.waking.contains g then
            if s1.on (PWR_FN_CTRL.PENDING g) then (s1.put (PWR_FN_CTRL.STATUS g) 3).clrF (PWR_FN_CTRL.PENDING g)
            else s1.put (PWR_FN_CTRL.STATUS g) 2
          else s1
        (s2.modPwr (fun p => { p with waking := p.waking.erase g, nextSlot := s.now + s.get PWR_LEND_CTRL.WAKE_GAP })).setCeils s2.borrowers

/-- WAKE_RAMP_STEP (R56): from 1/4 to 1/2, then to the full share, 20 ticks apart; the borrowing groups give way. -/
def execWakeRampStep (p : Nat) (s : State) : Out :=
  act s fun s =>
    let b := s.bench p
    if b.ramp = 0 ∨ s.now < b.rampAt + 20 then s
    else
      let s1 := s.setBench p { b with ramp := if b.ramp = 1 then 2 else 0, rampAt := s.now }
      s1.setCeils s1.borrowers

/-! ## Power states -/

/-- The functions that Table 02.5 lists. -/
def fnListed (n : Nat) : Bool :=
  decide (n ≤ 32) || (decide (64 ≤ n) && decide (n < 152)) || (decide (160 ≤ n) && decide (n < 192))

/-- Whether a function exists on the part: an unbonded Wardrobe port never leaves OFF (R184). -/
def State.fnHere (s : State) (n : Nat) : Bool :=
  fnListed n && (!(decide (64 ≤ n) && decide (n < 96)) || s.wrdPorts.contains (n - 64))

/-- Whether Desk firmware keeps a function OFF: an Ethernet port of a device whose role is not ACTIVE (R458). -/
def State.fnKept (s : State) (n : Nat) : Bool := decide (144 ≤ n) && decide (n < 152) && s.get MGT_ROLE.ROLE != 1

/-- A write of EN = 1 (Table 02.4); without effect on an Ethernet port that is kept OFF (R458; DEDUCED, log 68). -/
def State.fnEnable (s : State) (n : Nat) : State :=
  if s.fnHere n && !s.fnKept n then
    let s1 := s.put (PWR_FN_CTRL.EN n) 1
    let st := s.get (PWR_FN_CTRL.STATUS n)
    if st = 0 then s1.put (PWR_FN_CTRL.STATUS n) 1
    else if st = 1 then s1.clrF (PWR_FN_CTRL.PENDING n)
    else if st = 3 then s1.setF (PWR_FN_CTRL.PENDING n)
    else s1
  else s

/-- The unit of a function, as its records name it (R59). -/
def fnUnit (n : Nat) : Nat :=
  if n < 32 then unitId 0 0xFFF
  else if n = 32 then unitId 7 0
  else if n < 96 then unitId 2 (n - 64)
  else if n < 144 then unitId 3 (n - 96)
  else if n < 152 then unitId 4 (n - 144)
  else unitId 1 0xFFF

/-- A write of EN = 0 (Table 02.4); refused for a claimed function (R59). -/
def State.fnDisable (s : State) (iss : Issuer) (n : Nat) : State :=
  if s.fnHere n then
    if s.on (PWR_FN_CTRL.CLAIMED n) then
      if s.on (PWR_FN_CTRL.EN n) then
        s.raise (issTag iss)
          { unit := fnUnit n, cls := 1, reason := 0x01FF, ctx := 0,
            detail := if n < 32 ∨ 160 ≤ n then PWR_FN_CTRL.reg n * 2 ^ 64 else 0 }
      else s
    else
      let s1 := s.put (PWR_FN_CTRL.EN n) 0
      let st := s.get (PWR_FN_CTRL.STATUS n)
      if st = 1 then s1.setF (PWR_FN_CTRL.PENDING n)
      else if st = 2 then s1.put (PWR_FN_CTRL.STATUS n) 3
      else if st = 3 then s1.clrF (PWR_FN_CTRL.PENDING n)
      else s1
  else s

/-- PWR_FN_ENABLE (R58). -/
def execPwrFnEnable (_iss : Issuer) (n : Nat) (s : State) : Out := act s fun s => s.fnEnable n

/-- PWR_FN_DISABLE (R58, R59). -/
def execPwrFnDisable (iss : Issuer) (n : Nat) (s : State) : Out := act s fun s => s.fnDisable iss n

/-- The network bits of HST_STATUS (R364). -/
def State.netBits (s : State) : State :=
  (s.put HST_STATUS.NET_A (b2n (s.lowUp 0).isSome)).put HST_STATUS.NET_B (b2n (s.lowUp 1).isSome)

/-- An Ethernet port leaves UP for a state (R364). -/
def State.ethLeave (s : State) (e st : Nat) : State :=
  if s.ethUp e then
    let s1 := (((s.put (HST_PORT_STATUS.STATE e) st).incSat (HST_PORT_STATUS.DOWNS e)).raise 0
      { unit := unitId 4 e, cls := 1, reason := 0x0CFF, ctx := 0, detail := netOf e + st * 256 }).netBits
    if (s1.lowUp (netOf e)).isNone then
      (s1.setF (if netOf e = 0 then HST_EVENT.NET_A_DOWN else HST_EVENT.NET_B_DOWN)).alert MGT_ALERT.NET
    else s1
  else s.put (HST_PORT_STATUS.STATE e) st

/-- The CLAIMED bits follow the loaded images; a Wardrobe port in service is claimed anyway (R59). -/
def State.claims (s : State) : State :=
  let mask := ((s.resident.map (fun i => i.man.powerClaim)).getD 0) ||| ((s.staged.map (fun i => i.man.powerClaim)).getD 0)
  (List.range 192).foldl (fun s n =>
    if fnListed n then
      s.put (PWR_FN_CTRL.CLAIMED n) (b2n (bit mask n || (s.on WRD_STATUS.IN_SERVICE && decide (64 ≤ n) && decide (n < 96) && s.wrdPorts.contains (n - 64))))
    else s) s

/-- A Wardrobe port is READY; the last bonded port to be so puts the Wardrobe into service (Table 07.2 steps 9 to 11). -/
def State.portUp (s : State) (p : Nat) : State :=
  let s1 := ((s.put (WRD_PORT_STATUS.STATE p) 4).put WRD_STATUS.READY (s.get WRD_STATUS.READY ||| 2 ^ p)).modWport p
    (fun w => { w with step := 9, fails := 0, selfRef := false })
  if s.on WRD_STATUS.IN_SERVICE then s1
  else if s.wrdPorts.all (fun q => bit (s1.get WRD_STATUS.READY) q) then
    (((s1.setF WRD_STATUS.IN_SERVICE).put FAB_WRD_LIMIT.LIMIT (s.wrdEnd - 2 ^ 30)).put GLB_BOOT.STAGE 3).claims
  else s1

/-- Port p is no longer READY. -/
def State.unready (s : State) (p : Nat) : State :=
  let r := s.get WRD_STATUS.READY
  s.put WRD_STATUS.READY (if bit r p then r - 2 ^ p else r)

/-- A Wardrobe port enters self-refresh (R60, R191). -/
def State.portSleep (s : State) (p : Nat) : State :=
  ((s.put (WRD_PORT_STATUS.STATE p) 6).unready p).modWport p (fun w => { w with selfRef := true })

/-- What a function does when it reaches ON: a link port trains (Table 11.2), an Ethernet port brings its link up. -/
def State.fnOn (s : State) (n : Nat) : State :=
  if 96 ≤ n ∧ n < 144 then s.trainStart (n - 96)
  else if 144 ≤ n ∧ n < 152 then s.put (HST_PORT_STATUS.STATE (n - 144)) 1
  else if 64 ≤ n ∧ n < 96 then
    if s.get (WRD_PORT_STATUS.STATE (n - 64)) = 6 then s.portUp (n - 64) else s
  else s

/-- What a function does when it reaches OFF (Table 02.5). -/
def State.fnOff (s : State) (n : Nat) : State :=
  if 96 ≤ n ∧ n < 144 then
    if (s.link (n - 96)).out then s else s.linkStop (n - 96) 0
  else if 144 ≤ n ∧ n < 152 then s.ethLeave (n - 144) 0
  else if 64 ≤ n ∧ n < 96 then
    if s.get (WRD_PORT_STATUS.STATE (n - 64)) = 4 then s.portSleep (n - 64) else s
  else s

/-- A transition completes (Table 02.4). A Bench group waits for a wake slot (R55); a link port drains only once its
retry buffer is empty (Table 02.5). -/
def State.fnDone (s : State) (n : Nat) : State :=
  if s.fnHere n then
    let st := s.get (PWR_FN_CTRL.STATUS n)
    if st = 1 then
      if n < 32 then s.modPwr (fun p => { p with waking := if p.waking.contains n then p.waking else p.waking ++ [n] })
      else if s.on (PWR_FN_CTRL.PENDING n) then ((s.put (PWR_FN_CTRL.STATUS n) 3).clrF (PWR_FN_CTRL.PENDING n)).fnOn n
      else (s.put (PWR_FN_CTRL.STATUS n) 2).fnOn n
    else if st = 3 then
      if 96 ≤ n ∧ n < 144 ∧ (s.link (n - 96)).retry.isEmpty = false then s
      else
        let s1 := s.fnOff n
        if s1.on (PWR_FN_CTRL.PENDING n) then (s1.put (PWR_FN_CTRL.STATUS n) 1).clrF (PWR_FN_CTRL.PENDING n)
        else s1.put (PWR_FN_CTRL.STATUS n) 0
    else s
  else s

/-- POWER_TRANSITION_DONE (R58). -/
def execPowerTransitionDone (n : Nat) (s : State) : Out := act s fun s => s.fnDone n

/-! ## Thermal limits and rails -/

/-- THERMAL_SAMPLE (R62, R64). -/
def execThermalSample (tj : BitVec 16) (s : State) : Out :=
  act s fun s =>
    let t := signed 16 tj.toNat
    let s1 := s.put PWR_SENSE.TJ_MAX tj.toNat
    let th := s.getS PWR_THERM.THROTTLE_T
    let al := s.getS PWR_THERM.ALERT_T
    let s2 := if th ≤ t then
        (if s1.pwr.throttling then s1 else (s1.setF PWR_EVENT.THROTTLED).alert MGT_ALERT.THROTTLED).modPwr
          (fun p => { p with throttling := true })
      else if t ≤ th - 32 then s1.modPwr (fun p => { p with throttling := false }) else s1
    let s3 := if al ≤ t then
        (if s2.pwr.alerting then s2 else (s2.setF PWR_EVENT.ALERT).alert MGT_ALERT.THERMAL).modPwr
          (fun p => { p with alerting := true })
      else if t ≤ al - 32 then s2.modPwr (fun p => { p with alerting := false }) else s2
    s3.put PWR_POWER.EFFECTIVE s3.effective

/-- THERMTRIP (R63, R466): 115 °C or more on any sensor; no reset and no lost rail affects it (R475). -/
def execThermtrip (tj : BitVec 16) (s : State) : Out :=
  .next (if 1840 ≤ signed 16 tj.toNat then { s with tripped := true } else s)

/-- VDD_CORE_CHANGE (R41, R472). A removed rail (0 mV) releases THERMTRIP_N (R63), also where rails have been lost, of which
nothing else is guaranteed then (R466, R475). -/
def execVddCoreChange (mv : Nat) (s : State) : Out :=
  if s.railsOk then
    .next { s.put PWR_SENSE.VDD_CORE_MV (min 65535 mv) with
      dip := decide (mv < 450), tripped := s.tripped && decide (0 < mv) }
  else .next { s with tripped := s.tripped && decide (0 < mv) }

/-- RAIL_LOSS (R475): nothing but the pins is guaranteed until the power-up sequence. A removal of VDD_CORE comes as
VDD_CORE_CHANGE. -/
def execRailLoss (s : State) : Out := .next { s with railsOk := false }

end Sys2Proof.Machine
end

