-- ==== Sys2Proof/Machine/Links.lean ====
section
/-! DEFINITION. The links: training, flits, reassembly, replay, coordinates and routes (chapter 11). -/

namespace Sys2Proof.Machine

/-! ## CRC and flits -/

/-- One bit step of the reflected Castagnoli polynomial (R309). -/
def crcStep (c : Nat) : Nat := if c % 2 = 1 then (c / 2) ^^^ 0x82F63B78 else c / 2

/-- One byte of CRC-32C. -/
def crcByte (c : Nat) (b : Byte) : Nat :=
  crcStep (crcStep (crcStep (crcStep (crcStep (crcStep (crcStep (crcStep (c ^^^ b.toNat))))))))

/-- CRC-32C of a byte string: reflected, initial value 0xFFFF_FFFF, final complement (R309). -/
def crc32c (l : List Byte) : Nat := (l.foldl crcByte 0xFFFFFFFF) ^^^ 0xFFFFFFFF

/-- A 256-byte flit from its header word and payload (R309). -/
def mkFlit (hdr : Nat) (pay : List Byte) : List Byte :=
  let body := leBytes 8 hdr ++ padTo 244 pay
  body ++ leBytes 4 (crc32c body)

/-- The header word of a flit (Table 11.4). -/
def flitHdr (ack lseq bseq vcl crVcl credits len ty : Nat) : Nat :=
  ack * 2 ^ 52 + lseq * 2 ^ 40 + bseq * 2 ^ 24 + vcl * 2 ^ 21 + crVcl * 2 ^ 18 + credits * 2 ^ 12 + len * 16 + ty

/-- The credits that the next flit returns: the lowest channel owed, at most 63 (R314). -/
def Bundle.creditOut (b : Bundle) : Nat × Nat :=
  match List.find? (fun (x : Nat × Nat) => decide (x.1 < 8)) b.owed with
  | some x => (x.1, min 63 x.2)
  | none => (0, 0)

/-- The bundle after it returned credits of a channel. -/
def Bundle.paid (b : Bundle) (c n : Nat) : Bundle := { b with owed := SMap.set b.owed 0 c (SMap.get b.owed 0 c - n) }

/-- The bundle after its partner returned `n` credits of a channel. -/
def Bundle.refund (b : Bundle) (c n : Nat) : Bundle := { b with spent := SMap.set b.spent 0 c (SMap.get b.spent 0 c - n) }

/-- Puts a NULL or NAK flit on the wire of link `l` (R309, R310): type 2 is a NAK; a NULL carries tunnel credits. -/
def State.sendCtl (s : State) (l ty : Nat) : State :=
  let d := l / 8
  let b := s.bundle d
  let k := s.link l
  let (c, n) := b.creditOut
  let t := if ty = 0 then min 244 (SMap.get b.owed 0 8) else 0
  (s.setBundle d ((b.paid c n).paid 8 t)).setLink l { k with
    wire := mkFlit (flitHdr k.ackd 0 0 0 c n t ty) [], nakked := k.nakked || ty == 2, since := if ty = 0 then 0 else min 63 (k.since + 1) }

/-- A NAK after a discard, unless one has gone since the last acceptance (R310). -/
def State.nak (s : State) (l : Nat) : State := if (s.link l).nakked then s else s.sendCtl l 2

/-- An ACK removes the flits it covers from the retry buffer (R310). -/
def State.applyAck (s : State) (l ack : Nat) : State :=
  let k := s.link l
  let covered := fun (f : TxFlit) => decide ((ack + 4096 - f.lseq) % 4096 < 2048)
  if k.retry.any covered then
    s.setLink l { k with retry := k.retry.filter (fun f => !(covered f)), replay := k.replay.filter (fun f => !(covered f)), replays := 0 }
  else s

/-- A replay starts: every buffered flit is sent again in LSEQ order (R310). -/
def State.startReplay (s : State) (l : Nat) : State :=
  let k := s.link l
  if k.retry.isEmpty then s
  else (s.setLink l { k with retry := k.retry.map (fun f => { f with sent := s.now }), replay := k.retry, replays := k.replays + 1 }).incSat
    (LNK_PORT_ERR.REPLAYS l)

/-! ## Reassembly and delivery -/

/-- Whether a packet's transport type, fields and body are those of Tables 11.8 and 11.9 (R322). -/
def packetOk (p : List Byte) : Bool :=
  let t := leAt p 4 1
  let f := fun (o n : Nat) => leAt p (16 + o) n
  let body := p.length - 32
  leAt p 5 1 == 0 &&
    (match t with
     | 0x01 => body == 0 && decide (f 0 1 < 64) && decide (f 1 1 ≤ 1) && decide (f 2 2 ≤ 1024)
     | 0x02 | 0x05 => body == 0 && decide (f 0 1 < 64)
     | 0x03 => body == 0 && decide (f 0 1 < 64) && decide (f 1 1 ≤ 1)
     | 0x04 => decide (f 0 1 < 64) && decide (0 < body) && decide (body ≤ 4096) && body % 64 == 0
     | 0x08 => decide (f 0 2 < 1024) && decide (f 2 1 < 64) && decide (f 3 1 < 64) && decide (f 12 2 < 1024) && decide (body ≤ 4096)
     | 0x09 => body == 0 && decide (f 0 2 < 1024) && decide (f 2 1 < 64) && decide (f 3 1 < 64) && decide (f 12 2 < 1024)
     | 0x0A => body == 0 && decide (f 0 2 < 1024) && decide (f 2 1 < 64)
     | 0x10 => decide (f 0 1 < 16) && ((f 1 1 == 0 && body == 128) || (f 1 1 == 1 && decide (0 < body) && decide (body ≤ 4080)))
     | 0x18 => body == 0
     | 0x19 => decide (body ≤ 4096) && body == f 6 2
     | 0x1A => decide (f 2 1 ≤ 4) && decide (body ≤ 4096)
     | 0x20 => decide (f 0 1 ≤ 2) && body == 32
     | 0x28 => decide (f 0 1 < 64) && body == 0
     | 0x30 => decide (f 0 1 < 6) && decide (f 1 1 < 6) && decide (1 ≤ f 2 1) && decide (f 2 1 ≤ 3) && decide (body ≤ 4096)
     | _ => false)

/-- A packet whose last flit a bundle has released: it is handed to this device's units, or discarded where no route leads
on (R318, R320, R322). One for another device has gone on as its flits came (R321). -/
def State.released (s : State) (d ch : Nat) (p : List Byte) : State :=
  let here := if packetOk p then { s with lnkIn := s.lnkIn ++ [(d, p)] } else s.linkRecord (8 * d) 1 0x0AFF
  if ch = 8 then here
  else match s.routeOf (leAt p 0 2) with
    | none => here
    | some (_, dir) =>
      if dir = 0 then here
      else if dir = 3 then (s.setF LNK_EVENT.UNROUTABLE).linkRecord (8 * d) 1 0x0A09
      else s

/-- The output bundle and channel that a packet in transit takes (R318, R319, R321). -/
def State.transit (s : State) (d ch : Nat) (p : List Byte) : Option (Nat × Nat) :=
  if ch = 8 then none
  else (s.routeOf (leAt p 0 2)).bind (fun x =>
    let o := 2 * x.1 + (x.2 - 1)
    if x.2 = 1 ∨ x.2 = 2 then some (o, 2 * (ch / 2) + s.laneOn o (if x.1 = d / 2 then ch % 2 else 0)) else none)

/-- A released flit of a packet in transit goes to its output bundle at once: with the packet's header it opens the packet
there, and later flits follow (R321). `p`: the packet so far, `pay`: the flit, `full`: whether it is the last. -/
def State.forwardFlit (s : State) (d ch : Nat) (p pay : List Byte) (full : Bool) : Option State :=
  let key := 16 * d + ch
  let src := if full then none else some key
  match (List.range 6).find? (fun o => (s.bundle o).queue.any (fun x => x.src == some key)) with
  | some o => some ((s.modBundle o (fun b => { b with
      queue := b.queue.map (fun x => if x.src = some key then { x with flits := x.flits ++ [pay], src := src } else x) })).pumpOn o)
  | none =>
    if p.length - pay.length < 32 ∧ 32 ≤ p.length then
      (s.transit d ch p).map (fun x => (s.modBundle x.1 (fun b => { b with
        queue := b.queue ++ [{ input := d, ch := x.2, flits := chunk244 (p.length + 1) p, src := src }] })).pumpOn x.1)
    else none

/-- Releases the flits of a channel in BSEQ order; a complete packet goes on (R313, R322). -/
def State.releaseAll : Nat → State → Nat → Nat → State
  | 0, s, _, _ => s
  | f + 1, s, d, ch =>
    let b := s.bundle d
    let rel := SMap.get b.relSeq 0 ch
    match SMap.find? b.held (ch * 65536 + rel) with
    | none => s
    | some pay =>
      let p := SMap.get b.part [] ch ++ pay
      let full := decide (32 ≤ p.length) && decide (32 + leAt p 6 2 ≤ p.length)
      let s1 := s.setBundle d { b with
        held := SMap.erase b.held (ch * 65536 + rel)
        relSeq := SMap.set b.relSeq 0 ch ((rel + 1) % 65536)
        owed := SMap.set b.owed 0 ch (SMap.get b.owed 0 ch + 1)
        part := SMap.set b.part [] ch (if full then [] else p) }
      State.releaseAll f (match s1.forwardFlit d ch p pay full with
        | some t => t
        | none => if full then s1.released d ch p else s1) d ch

/-- Whether a bundle has released or holds a flit of a channel (R313). -/
def Bundle.known (b : Bundle) (ch bseq : Nat) : Bool :=
  decide (32768 ≤ (bseq + 65536 - SMap.get b.relSeq 0 ch) % 65536) || (SMap.find? b.held (ch * 65536 + bseq)).isSome

/-- A flit enters a bundle's reassembly buffer; one already held or released is discarded and counted on the link it
came by, if any (R313). -/
def State.reassemble (s : State) (d ch bseq : Nat) (pay : List Byte) (l : Option Nat) : State :=
  let b := s.bundle d
  if b.known ch bseq then
    match l with
    | some l => s.incSat (LNK_PORT_ERR.DUPLICATES l)
    | none => s
  else
    let s1 := s.setBundle d { b with held := SMap.insert b.held (ch * 65536 + bseq) pay }
    State.releaseAll ((s1.bundle d).held.length + 1) s1 d ch

/-- What the FEC of a flit's codewords counts (R309); class P has none. -/
def State.fecCount (s : State) (l : Nat) (fec : Option Nat) : State :=
  match fec with
  | none => s.incSat (LNK_PORT_FEC.UNCORRECTABLE l)
  | some n => if (s.link l).cls = 0 then s else s.incSat (LNK_PORT_FEC.CORRECTED l) n

/-- Whether a flit is discarded: an uncorrectable codeword, a bad CRC or a reserved TYPE (R309). -/
def flitBad (raw : List Byte) (fec : Option Nat) : Bool :=
  fec.isNone || raw.length != 256 || leAt raw 252 4 != crc32c (raw.take 252) || decide (5 ≤ leAt raw 0 8 % 16)

/-- A flit at link `l`: FEC counts; a bad one is discarded and counted, with a NAK; otherwise `k` acts on its header word and
payload (R309, R310). A link that is not UP accepts nothing (R311). -/
def State.rxFlit (s : State) (l : Nat) (raw : List Byte) (fec : Option Nat) (ty : Nat)
    (k : State → Nat → List Byte → State) : State :=
  if s.get (LNK_PORT_STATUS.STATE l) ≠ 2 then s
  else
    let s1 := s.fecCount l fec
    let h := leAt raw 0 8
    if flitBad raw fec then (s1.incSat (LNK_PORT_ERR.CRC l)).nak l
    else if h % 16 = ty then k s1 h ((raw.drop 8).take 244)
    else s1

/-- The channel of an accepted flit's header. -/
def flitChannel (h : Nat) : Nat := if h % 16 = 3 then 8 else bits h 21 3

/-- A DATA or TUNNEL flit: accepted in LSEQ order, else discarded with a NAK (R310). The credits of a flit whose BSEQ is
known have come with it before (R313, R334). -/
def State.rxSeq (s : State) (l h : Nat) (pay : List Byte) : State :=
  let s1 := s.applyAck l (bits h 52 12)
  let k := s1.link l
  if bits h 40 12 = (k.ackd + 1) % 4096 then
    let s2 := s1.setLink l { k with ackd := bits h 40 12, nakked := false }
    let s3 := s2.modBundle (l / 8) (fun b => if b.known (flitChannel h) (bits h 24 16) then b else b.refund (bits h 18 3) (bits h 12 6))
    s3.reassemble (l / 8) (flitChannel h) (bits h 24 16) (pay.take (bits h 4 8)) (some l)
  else s1.nak l

/-! ## Meanings: training -/

/-- LINK_LANES_LOCKED (step 1 of Table 11.2). -/
def execLinkLanesLocked (l : Nat) (s : State) : Out :=
  act s fun s => if (s.link l).train = .pattern ∧ l < 48 then s.modLink l (fun k => { k with train := .locked }) else s

/-- LINK_EQ_ADAPTED (step 2 of Table 11.2; classes B, C and O). -/
def execLinkEqAdapted (l : Nat) (s : State) : Out :=
  act s fun s => if (s.link l).train = .locked ∧ (s.link l).cls ≠ 0 ∧ l < 48
    then s.modLink l (fun k => { k with train := .adapted }) else s

/-- LINK_FRAME_LOCKED (steps 3 and 4 of Table 11.2): IDENT flits go out once coordinates are valid. -/
def execLinkFrameLocked (l : Nat) (s : State) : Out :=
  act s fun s =>
    let from_ := if (s.link l).cls = 0 then Train.locked else Train.adapted
    if (s.link l).train = from_ ∧ l < 48 then
      s.modLink l (fun k => { k with
        train := .framed
        wire := if s.on LNK_COORD.VALID then
            mkFlit (flitHdr 0 0 0 0 0 0 0 4) (leBytes 2 s.coord ++ leBytes 1 (l / 8) ++ leBytes 1 (l % 8) ++
              leBytes 1 k.cls ++ leBytes 8 (s.get GLB_SERIAL.SERIAL))
          else k.wire })
    else s

/-- Whether a partner's IDENT passes the check of R306. -/
def State.identOk (s : State) (l : Nat) (id : Ident) : Bool :=
  id.coord == s.partner (l / 8) && id.dir == opposite (l / 8) && id.pos == l % 8 &&
    id.cls == (s.link l).cls

/-- Whether a packet is tunnel traffic of direction `d` that this device has wrapped and not begun to send. -/
def OutPk.tunnels (p : OutPk) (d : Nat) : Bool :=
  p.ch == 8 && !p.started && (p.flits.head?).any (fun x => leAt x 4 1 == 0x30 && leAt x 16 1 == d && leAt x 18 1 == 1)

/-- An output bundle when bundle `d` meets a new partner: it holds no tunnel traffic for the old one, and a forwarded packet
whose other flits went with the reassembly buffer ends where it stands (R308; log 46). -/
def Bundle.cutOff (b : Bundle) (d : Nat) : Bundle :=
  let keep := (b.queue.filter (fun p => !(p.tunnels d))).map (fun p => if p.src.any (fun k => k / 16 == d) then { p with src := none } else p)
  { b with queue := keep.filter (fun p => !(p.flits.isEmpty && p.src.isNone)) }

/-- What R308 does when a bundle meets a new partner: everything held for the old one is discarded. -/
def State.newPartner (s : State) (l : Nat) (serial : Nat) : State :=
  let d := l / 8
  let old := s.get (LNK_PARTNER_SERIAL.SERIAL d)
  let s1 := s.put (LNK_PARTNER_SERIAL.SERIAL d) serial
  if old = 0 ∨ old = serial then s1
  else
    let s2 := (((List.range 6).filter (· != d)).foldl (fun s e => s.modBundle e (fun b => b.cutOff d)) s1).setBundle d { reports := (s.bundle d).reports }
    let s3 := (List.range 8).foldl (fun s p => s.modLink (8 * d + p) (fun k => { k with retry := [], replay := [] })) s2
    let s4 := if s3.on HST_BUDDY.VALID && s3.partner d == s3.get HST_BUDDY.COORD then s3.modCkp (fun c => { c with again := true }) else s3
    (s4.setF LNK_EVENT.PARTNER_CHANGED).linkRecord l 1 0x0A03

/-- IDENT_FLIT (steps 5 and 6 of Table 11.2, R306, R308); one with a bad codeword or CRC is discarded and counted (R309). -/
def execIdentFlit (l : Nat) (id : Ident) (s0 : State) : Out :=
  act s0 fun s0 =>
    let s := if l < 48 ∧ (s0.link l).train = .framed then s0.fecCount l id.fec else s0
    if (s.link l).train = .framed ∧ l < 48 ∧ (id.fec.isNone = true ∨ id.crc = false) then s.incSat (LNK_PORT_ERR.CRC l)
    else if (s.link l).train = .framed ∧ s.on LNK_COORD.VALID = true ∧ l < 48 then
      let s1 := s.put (LNK_BUNDLE_STATUS.PARTNER (l / 8)) id.coord
      if s.identOk l id then (s1.newPartner l id.serial).linkJoin l
      else (((s1.put (LNK_PORT_STATUS.STATE l) 5).modLink l (fun k => { k with train := .none })).setF
        LNK_EVENT.MISMATCH).linkRecord l 1 0x0A02
    else s

/-- The retrain time of a class in rack ticks (Table 11.1). -/
def retrainTicks (cls : Nat) : Nat :=
  if cls = 0 then 8000 else if cls = 1 then 20000 else if cls = 2 then 40000 else 400000

/-- LINK_TRAIN_TIMEOUT (R307). -/
def execLinkTrainTimeout (l : Nat) (s : State) : Out :=
  act s fun s =>
    let k := s.link l
    if k.train ≠ .none ∧ k.began + 2 * retrainTicks k.cls ≤ s.now ∧ l < 48
    then s.trainFail l else s

/-- RETRAIN_GAP_EXPIRE (R307): a link that has just gone DOWN waits for no gap. -/
def execRetrainGapExpire (l : Nat) (s : State) : Out :=
  act s fun s =>
    let ready := match (s.link l).gapFrom with
      | none => true
      | some t => decide (t + s.get LNK_RETRY_CTRL.RETRAIN_GAP ≤ s.now)
    if s.get (LNK_PORT_STATUS.STATE l) = 3 ∧ ready = true ∧ l < 48 then s.trainStart l else s

/-- A write of LNK_PORT_CTRL.RETRAIN (R307): TRIES clears and an attempt starts now. -/
def State.retrain (s : State) (l : Nat) : State :=
  if s.get (PWR_FN_CTRL.STATUS (96 + l)) = 2 ∧ (s.link l).out = false ∧ l < 48 then
    ((if s.get (LNK_PORT_STATUS.STATE l) = 2 then s.linkDown l else s).put (LNK_PORT_STATUS.TRIES l) 0).trainStart l
  else s

/-- PORT_RETRAIN (R307). -/
def execPortRetrain (_iss : Issuer) (l : Nat) (s : State) : Out := act s fun s => s.retrain l

/-- A write of LNK_PORT_CTRL.FENCE (R335). -/
def State.fencePort (s : State) (l : Nat) : State :=
  if l < 48 ∧ (s.link l).out = false then (s.setF (LNK_PORT_CTRL.FENCE l)).portOut l else s

/-- PORT_FENCE (R335). -/
def execPortFence (_iss : Issuer) (l : Nat) (s : State) : Out := act s fun s => s.fencePort l

/-- PORT_LOGIC_ERROR (R335). -/
def execPortLogicError (l : Nat) (s : State) : Out :=
  act s fun s => if l < 48 ∧ (s.link l).out = false then s.portOut l else s

/-- LANE_LOCK_LOST (R305, R311). -/
def execLaneLockLost (l ticks : Nat) (s : State) : Out :=
  act s fun s =>
    if s.get (LNK_PORT_STATUS.STATE l) = 2 ∧ 40 < ticks ∧ l < 48 then s.linkDown l
    else if (s.link l).train ≠ .none ∧ l < 48 then s.trainFail l
    else s

/-- PARTNER_SILENT (R311). -/
def execPartnerSilent (l ticks : Nat) (s : State) : Out :=
  act s fun s => if s.get (LNK_PORT_STATUS.STATE l) = 2 ∧ 4000 ≤ ticks ∧ l < 48 then s.linkDown l else s

/-! ## Meanings: flits -/

/-- TUNNEL_FLIT (R310, R313). -/
def execTunnelFlit (l : Nat) (raw : List Byte) (fec : Option Nat) (s : State) : Out :=
  act s fun s => s.rxFlit l raw fec 3 (fun s h p => s.rxSeq l h p)

/-- NULL_FLIT (R309, R314): ACK, credits and tunnel credits. -/
def execNullFlit (l : Nat) (raw : List Byte) (fec : Option Nat) (s : State) : Out :=
  act s fun s => s.rxFlit l raw fec 0 (fun s h _ =>
    (s.applyAck l (bits h 52 12)).modBundle (l / 8) (fun b =>
      (b.refund (bits h 18 3) (bits h 12 6)).refund 8 (bits h 4 8)))

/-- NAK_FLIT (R310). -/
def execNakFlit (l : Nat) (raw : List Byte) (fec : Option Nat) (s : State) : Out :=
  act s fun s => s.rxFlit l raw fec 2 (fun s h _ =>
    ((s.applyAck l (bits h 52 12)).modBundle (l / 8) (fun b => b.refund (bits h 18 3) (bits h 12 6))).startReplay l)

/-- Whether R316 gives the output to a channel: tunnel first, then VC3, then VC0 to VC2 round-robin. -/
def Bundle.turn (b : Bundle) (ch : Nat) : Bool :=
  if ch = 8 then true
  else if b.canSend 8 then false
  else if ch / 2 = 3 then true
  else if b.canSend 6 || b.canSend 7 then false
  else
    match [1, 2, 3].find? (fun i => b.canSend (2 * ((b.rrVc + i) % 3)) || b.canSend (2 * ((b.rrVc + i) % 3) + 1)) with
    | some i => ch / 2 == (b.rrVc + i) % 3
    | none => false

/-- The image of a flit on the wire with the credits it returns (Table 11.4). -/
def txImage (k : Link) (f : TxFlit) (c n : Nat) : List Byte :=
  mkFlit (flitHdr k.ackd f.lseq f.bseq (if f.ch = 8 then 0 else f.ch) c n f.pay.length (if f.ch = 8 then 3 else 1)) f.pay

/-- Whether a link has nothing but NULL flits to send: no channel may send, or its retry buffer is full, or the port is not
ON (R309, R310). -/
def State.linkIdle (s : State) (l : Nat) : Bool :=
  (List.range 9).all (fun c => !((s.bundle (l / 8)).canSend c)) || decide (512 ≤ (s.link l).retry.length) || s.get (PWR_FN_CTRL.STATUS (96 + l)) != 2

/-- A flit of a channel leaves on a link: a new flit takes the credits the bundle owes, and one sent again keeps those it had
(R313, R314, R334). -/
def State.sendFlit (s : State) (l ch : Nat) : State :=
  let k := s.link l
  match (s.bundle (l / 8)).next ch with
  | none => s
  | some (f, b) =>
    let cr := if f.cr.2 = 0 then b.creditOut else f.cr
    let n := (k.lseq + 1) % 4096
    let f1 : TxFlit := { f with lseq := n, cr := cr, sent := s.now, raw := [] }
    let image := txImage k f1 cr.1 cr.2
    (s.setBundle (l / 8) (if f.cr.2 = 0 then b.paid cr.1 cr.2 else b)).setLink l { k with
      lseq := n, retry := k.retry ++ [{ f1 with raw := image }], wire := image, since := min 63 (k.since + 1) }

/-- FLIT_SEND (R309, R310, R313, R314, R316): a NULL where one is due for tunnel credits, a flit of a replay, a flit of the
channel whose turn it is, or a NULL where nothing else is to be sent. -/
def execFlitSend (l ch : Nat) (s : State) : Out :=
  act s fun s =>
    let k := s.link l
    let b := s.bundle (l / 8)
    if s.get (LNK_PORT_STATUS.STATE l) = 2 ∧ k.out = false ∧ l < 48 then
      if 0 < SMap.get b.owed 0 8 ∧ 63 ≤ k.since then s.sendCtl l 0
      else match k.replay with
        | f :: fs => s.setLink l { k with
            replay := fs, wire := f.raw, since := min 63 (k.since + 1)
            retry := k.retry.map (fun g => if g.lseq = f.lseq then { g with sent := s.now } else g) }
        | [] => if s.linkIdle l then s.sendCtl l 0 else if b.canSend ch && b.turn ch then s.sendFlit l ch else s
    else s

/-- ACK_TIMEOUT (R310, R311): the link replays, or goes DOWN once LIMIT replays in a row have passed. -/
def execAckTimeout (l : Nat) (s : State) : Out :=
  act s fun s =>
    let k := s.link l
    if s.get (LNK_PORT_STATUS.STATE l) = 2 ∧ l < 48 ∧ k.retry.head?.any (fun f => decide (f.sent + s.get LNK_RETRY_CTRL.ACK_TIMEOUT ≤ s.now)) = true then
      if max 1 (s.get LNK_RETRY_CTRL.LIMIT) ≤ k.replays then s.linkDown l else s.startReplay l
    else s

/-! ## Meanings: coordinates and routes -/

/-- The record of a refused coordinate or route write (R317, R320). -/
def State.coordRefused (s : State) (iss : Issuer) : State :=
  s.raise (issTag iss) { unit := unitId 3 0xFFF, cls := 1, reason := 0x0AFF, ctx := 0, detail := 0 }

/-- Whether dimensions and coordinates are those R317 allows. -/
def torusOk (dims c : Nat) : Bool :=
  let d := fun a => bits dims (6 * a) 6
  (List.range 3).all (fun a => decide (1 ≤ d a) && decide (d a ≤ 32) && decide (axisOf c a < d a)) &&
    decide (d 0 * d 1 * d 2 ≤ 8192)

/-- A performed change of coordinates: VALID, default routes, every link retrained (R317). -/
def State.coordApplied (s : State) : State :=
  let s1 := (s.setF LNK_COORD.VALID).defaultRoutes
  (List.range 48).foldl (fun s l =>
    if s.get (LNK_PORT_STATUS.STATE l) = 0 ∨ (s.link l).out = true then s
    else (if s.get (LNK_PORT_STATUS.STATE l) = 2 then s.linkDown l else s).trainStart l) s1

/-- A write to LNK_COORD or LNK_TORUS (R317). -/
def State.coordWrite (s : State) (iss : Issuer) (torus : Bool) (v : Word) : State :=
  let dims := if torus then v.toNat % 2 ^ 18 else (s.word LNK_TORUS.reg).toNat
  let c := if torus then s.coord else v.toNat % 2 ^ 15
  let same := if torus then v.toNat % 2 ^ 18 == (s.word LNK_TORUS.reg).toNat else v.toNat % 2 ^ 15 == s.coord
  if s.on FAB_STATUS.IDLE && torusOk dims c then
    (if torus then s.setWord LNK_TORUS.reg (BitVec.ofNat 64 dims)
     else s.setWord LNK_COORD.reg (fput (s.word LNK_COORD.reg) 14 0 c)).coordApplied
  else if same then s
  else s.coordRefused iss

/-- LNK_COORD_WRITE (R317). -/
def execLnkCoordWrite (iss : Issuer) (torus : Bool) (v : Word) (s : State) : Out := act s fun s => s.coordWrite iss torus v

/-- A write to LNK_ROUTE (R320). -/
def State.routeWrite (s : State) (iss : Issuer) (a : Nat) (v : Word) : State :=
  if 3 ≤ a then s
  else if s.on FAB_STATUS.IDLE then s.setWord (LNK_ROUTE.reg a) v
  else if s.word (LNK_ROUTE.reg a) = v then s
  else s.coordRefused iss

/-- LNK_ROUTE_WRITE (R320). -/
def execLnkRouteWrite (iss : Issuer) (a : Nat) (v : Word) (s : State) : Out := act s fun s => s.routeWrite iss a v

/-! ## Meanings: neighbours and tunnels -/

/-- LINK_STATUS (R333, R336): the neighbour's report may open or close a tunnel path. -/
def execLinkStatus (d up : Nat) (s : State) : Out :=
  act s fun s =>
    if d < 6 then
      (s.modBundle d (fun b => { b with reports := up % 64 })).retunnelAll
    else s

/-- The records of a TUNNEL packet reach the bundle they were meant for (Table 11.11). -/
def State.unwrap : Nat → State → Nat → List Byte → State
  | 0, s, _, _ => s
  | n + 1, s, d, l =>
    let h := leAt l 0 8
    if h % 4 = 0 then
      State.unwrap n (s.reassemble d (bits h 2 3) (bits h 5 16) ((l.drop 8).take (bits h 21 8)) none) d (l.drop 252)
    else if h % 4 = 1 then State.unwrap n (s.modBundle d (fun b => b.refund (bits h 2 3) (bits h 5 6))) d (l.drop 8)
    else State.unwrap n s d (l.drop 8)

/-- A tunnel packet goes on through bundle `o`; with no link UP there it waits, and the bundle is marked (R337). -/
def State.hop (s : State) (o d : Nat) (p : List Byte) : State :=
  let s1 := s.enqueue o d 8 p
  if s1.bundleUp o || s1.get (LNK_BUNDLE_STATUS.TUNNEL o) == 2 then s1
  else ((s1.put (LNK_BUNDLE_STATUS.TUNNEL o) 2).setF LNK_EVENT.NO_TUNNEL).linkRecord (8 * o) 1 0x0A05

/-- The bytes of a TUNNEL packet (Tables 11.7 and 11.9). -/
def tunnelBytes (td te hop : Nat) (records : List Byte) (f : TunnelFrame) : List Byte :=
  padTo 16 f.header ++ [BitVec.ofNat 8 td, BitVec.ofNat 8 te, BitVec.ofNat 8 hop, BitVec.ofNat 8 f.count] ++ List.replicate 12 0 ++ records

/-- TUNNEL (R336): a TUNNEL packet is forwarded with the next HOP, or its records are released at B. -/
def execTunnel (d td te hop : Nat) (records : List Byte) (f : TunnelFrame) (s : State) : Out :=
  act s fun s =>
    if hop = 1 ∧ td < 6 ∧ te < 6 then s.hop td d (tunnelBytes td te 2 records f)
    else if hop = 2 ∧ td < 6 ∧ te < 6 then s.hop (opposite te) d (tunnelBytes td te 3 records f)
    else if hop = 3 ∧ td < 6 then
      let s1 := State.unwrap f.count s (opposite td) records
      if s1.bundleUp (opposite td) || !(s1.hadPartner (opposite td)) then s1 else s1.retunnel (opposite td)
    else s

end Sys2Proof.Machine
end

