-- ==== Sys2Proof/Machine/Num.lean ====
section
/-! DEFINITION. The number formats, their roundings, the exact arithmetic behind them, the counter generator and the
correctly rounded functions of the vector unit (chapters 04 and 05). -/

namespace Sys2Proof.Machine

/-! ## Exact values -/

/-- A value: NaN, an infinity, or (−1)^neg × m × 2^e. Zeros keep their sign. -/
inductive Val where
  | nan
  | inf (neg : Bool)
  | fin (neg : Bool) (m : Nat) (e : Int)
  deriving DecidableEq, Repr

/-- Bits of a magnitude. -/
def blen (m : Nat) : Nat := if m = 0 then 0 else Nat.log2 m + 1

/-- A magnitude m × 2^k for an integer k ≥ 0. -/
def upTo (m : Nat) (k : Int) : Nat := m * 2 ^ k.toNat

/-- Whether m × 2^e exceeds m' × 2^e'. -/
def gtMag (m : Nat) (e : Int) (m' : Nat) (e' : Int) : Bool :=
  if m = 0 then false
  else if m' = 0 then true
  else
    let a := e + blen m
    let b := e' + blen m'
    if a ≠ b then decide (b < a) else if e ≤ e' then decide (upTo m' (e' - e) < m) else decide (m' < upTo m (e - e'))

def Val.isNan : Val → Bool
  | .nan => true
  | _ => false

def Val.isZero : Val → Bool
  | .fin _ m _ => m == 0
  | _ => false

def Val.finite : Val → Bool
  | .fin _ _ _ => true
  | _ => false

def Val.neg? : Val → Bool
  | .nan => false
  | .inf n => n
  | .fin n _ _ => n

def Val.negate : Val → Val
  | .nan => .nan
  | .inf n => .inf (!n)
  | .fin n m e => .fin (!n) m e

def Val.abs : Val → Val
  | .nan => .nan
  | .inf _ => .inf false
  | .fin _ m e => .fin false m e

/-- An integer as a value. -/
def Val.ofInt (i : Int) : Val := .fin (decide (i < 0)) i.natAbs 0

/-- The exact product; infinity × 0 is NaN (R106). -/
def Val.mul : Val → Val → Val
  | .nan, _ => .nan
  | _, .nan => .nan
  | .inf a, b => if b.isZero then .nan else .inf (xor a b.neg?)
  | a, .inf b => if a.isZero then .nan else .inf (xor a.neg? b)
  | .fin s m e, .fin t n f => .fin (xor s t) (m * n) (e + f)

/-- The signed integer of a value's magnitude in units of 2^q, for q at or below its exponent. -/
def signedAt (s : Bool) (m : Nat) (e q : Int) : Int := if s then -(upTo m (e - q) : Int) else upTo m (e - q)

/-- The exact sum; an exact zero of operands of opposite sign is +0, of two −0 is −0 (R105). -/
def Val.add : Val → Val → Val
  | .nan, _ => .nan
  | _, .nan => .nan
  | .inf a, .inf b => if a = b then .inf a else .nan
  | .inf a, _ => .inf a
  | _, .inf b => .inf b
  | .fin s m e, .fin t n f =>
    if m = 0 ∧ n = 0 then .fin (s && t) 0 0
    else if m = 0 then .fin t n f
    else if n = 0 then .fin s m e
    else
      let q := min e f
      let i := signedAt s m e q + signedAt t n f q
      .fin (decide (i < 0)) i.natAbs q

/-- Strict order of two values that are not NaN. -/
def Val.lt : Val → Val → Bool
  | .nan, _ => false
  | _, .nan => false
  | .inf a, .inf b => a && !b
  | .inf a, _ => a
  | _, .inf b => !b
  | .fin s m e, .fin t n f =>
    if m = 0 ∧ n = 0 then false
    else if m = 0 then !t
    else if n = 0 then s
    else if s ≠ t then s
    else if s then gtMag m e n f else gtMag n f m e

/-! ## Formats and roundings -/

/-- A binary format: exponent bits, bias, fraction bits, and its special values: 0 as IEEE, 1 as E4M3, 2 none
(Table 04.3). -/
structure FpFmt where
  eb   : Nat
  bias : Nat
  fb   : Nat
  kind : Nat
  deriving DecidableEq, Repr

def fFp32 : FpFmt := ⟨8, 127, 23, 0⟩
def fBf16 : FpFmt := ⟨8, 127, 7, 0⟩
def fHalf : FpFmt := ⟨5, 15, 10, 0⟩
def fE4m3 : FpFmt := ⟨4, 7, 3, 1⟩
def fE5m2 : FpFmt := ⟨5, 15, 2, 0⟩
def fE3m2 : FpFmt := ⟨3, 3, 2, 2⟩
def fE2m3 : FpFmt := ⟨2, 1, 3, 2⟩
def fE2m1 : FpFmt := ⟨2, 1, 1, 2⟩
/-- FW40 (R108). -/
def fFw40 : FpFmt := ⟨8, 127, 31, 0⟩
/-- ACC64 without its reserved bit [0] (R104). -/
def fAcc : FpFmt := ⟨10, 511, 52, 0⟩

/-- Exponent of the last bit of a subnormal. -/
def FpFmt.emin (f : FpFmt) : Int := 1 - (f.bias : Int) - f.fb

/-- The largest finite magnitude, as significand and exponent (Table 04.3). -/
def FpFmt.maxFin (f : FpFmt) : Nat × Int :=
  if f.kind = 0 then (2 ^ (f.fb + 1) - 1, (2 ^ f.eb - 2 : Int) - f.bias - f.fb)
  else if f.kind = 1 then (2 ^ (f.fb + 1) - 2, (2 ^ f.eb - 1 : Int) - f.bias - f.fb)
  else (2 ^ (f.fb + 1) - 1, (2 ^ f.eb - 1 : Int) - f.bias - f.fb)

/-- The bits of a representable magnitude m × 2^q with its sign. -/
def FpFmt.encode (f : FpFmt) (neg : Bool) (m : Nat) (q : Int) : Nat :=
  let s := b2n neg * 2 ^ (f.eb + f.fb)
  if m < 2 ^ f.fb then s + m
  else
    let (m', q') := if m = 2 ^ (f.fb + 1) then (2 ^ f.fb, q + 1) else (m, q)
    s + (q' + f.fb + f.bias).toNat * 2 ^ f.fb + (m' - 2 ^ f.fb)

/-- The bits of an infinity. -/
def FpFmt.infBits (f : FpFmt) (neg : Bool) : Nat := b2n neg * 2 ^ (f.eb + f.fb) + (2 ^ f.eb - 1) * 2 ^ f.fb

/-- The canonical NaN (R93, Table 04.3). -/
def FpFmt.nanBits (f : FpFmt) : Nat :=
  if f = fE5m2 ∨ f.kind = 1 then 0x7F else (2 ^ f.eb - 1) * 2 ^ f.fb + 2 ^ (f.fb - 1)

/-- The value of an encoding, subnormals intact (R92). -/
def FpFmt.decode (f : FpFmt) (x : Nat) : Val :=
  let neg := bit x (f.eb + f.fb)
  let e := bits x f.fb f.eb
  let m := x % 2 ^ f.fb
  if f.kind = 0 ∧ e = 2 ^ f.eb - 1 then (if m = 0 then .inf neg else .nan)
  else if f.kind = 1 ∧ e = 2 ^ f.eb - 1 ∧ m = 2 ^ f.fb - 1 then .nan
  else if e = 0 then .fin neg m f.emin
  else .fin neg (m + 2 ^ f.fb) (f.emin + e - 1)

/-- Rounding modes (R91). -/
def rne : Nat := 0
def rtz : Nat := 1
def rst : Nat := 2

/-- A magnitude cut at the unit 2^q, rounded in a mode with random bits ρ (R114). -/
def cutAt (mode rho : Nat) (m : Nat) (e q : Int) : Nat :=
  if q ≤ e then upTo m (e - q)
  else
    let d := (q - e).toNat
    let lo := m / 2 ^ d
    let rem := m % 2 ^ d
    if mode = 1 then lo
    else if mode = 2 then (if rem * 2 ^ 16 / 2 ^ d + rho ≥ 2 ^ 16 then lo + 1 else lo)
    else if 2 * rem > 2 ^ d ∨ (2 * rem = 2 ^ d ∧ lo % 2 = 1) then lo + 1 else lo

/-- The unit of the last place to which a magnitude rounds in a format with unbounded exponent above. -/
def FpFmt.unit (f : FpFmt) (m : Nat) (e : Int) : Int := max f.emin (e + blen m - (f.fb + 1))

/-- The result of a rounding: its bits and what it counts (R119). -/
structure Rnd where
  bits : Nat
  ovf  : Bool := false
  ufl  : Bool := false
  gen  : Bool := false
  deriving DecidableEq, Repr

/-- Rounds a value into a floating-point format under SAT and a mode (R111, R113). -/
def FpFmt.store (f : FpFmt) (sat : Bool) (mode rho : Nat) : Val → Rnd
  | .nan => ⟨f.nanBits, false, false, false⟩
  | .inf n =>
    if sat || f.kind == 2 then ⟨f.encode n f.maxFin.1 f.maxFin.2, false, false, false⟩
    else if f.kind = 1 then ⟨f.nanBits, false, false, true⟩
    else ⟨f.infBits n, false, false, false⟩
  | .fin n m e =>
    if m = 0 then ⟨f.encode n 0 f.emin, false, false, false⟩
    else
      let q := f.unit m e
      let r := cutAt mode rho m e q
      if gtMag r q f.maxFin.1 f.maxFin.2 then
        if sat || mode == 1 || f.kind == 2 then ⟨f.encode n f.maxFin.1 f.maxFin.2, true, false, false⟩
        else if f.kind = 1 then ⟨f.nanBits, true, false, true⟩
        else ⟨f.infBits n, true, false, false⟩
      else ⟨f.encode n r q, false, r == 0, false⟩

/-- Rounds a value into a two's-complement integer of `w` bits; it saturates, and NaN stores 0 (R112). -/
def storeInt (w mode rho : Nat) : Val → Rnd
  | .nan => ⟨0, false, false, false⟩
  | .inf n => ⟨if n then 2 ^ (w - 1) else 2 ^ (w - 1) - 1, true, false, false⟩
  | .fin n m e =>
    let r := cutAt mode rho m e 0
    if n then (if r > 2 ^ (w - 1) then ⟨2 ^ (w - 1), true, false, false⟩ else ⟨wrap w (-(r : Int)), false, false, false⟩)
    else if r > 2 ^ (w - 1) - 1 then ⟨2 ^ (w - 1) - 1, true, false, false⟩ else ⟨r, false, false, false⟩

/-- Rounds to FW40, to nearest even (R109). -/
def toFw (v : Val) : Rnd := fFw40.store false rne 0 v

/-- The value of an FW40 word. -/
def ofFw (x : Nat) : Val := fFw40.decode x

/-- Rounds to ACC64, to nearest even; bit [0] is zero (R104, R105). -/
def toAcc (v : Val) : Rnd := let r := fAcc.store false rne 0 v; { r with bits := 2 * r.bits }

/-- The value of an ACC64 word; bit [0] is ignored (R104). -/
def ofAcc (x : Nat) : Val := fAcc.decode (x / 2)

/-! ## Format codes (Table 04.2) -/

/-- Whether a code is an operand format. -/
def operandFmt (c : Nat) : Bool := (1 ≤ c && c ≤ 7) || (0x10 ≤ c && c ≤ 0x15)

/-- Whether a code is an MX format. -/
def isMx (c : Nat) : Bool := 0x10 ≤ c && c ≤ 0x15

/-- Bits of an element. -/
def elemBits (c : Nat) : Nat :=
  if c = 1 then 32
  else if c = 2 ∨ c = 3 then 16
  else if c = 4 ∨ c = 5 ∨ c = 6 ∨ c = 0x10 ∨ c = 0x11 ∨ c = 0x15 then 8
  else if c = 7 ∨ c = 0x14 then 4
  else if c = 0x12 ∨ c = 0x13 then 6
  else if c = 0x20 then 64
  else if c = 0x21 then 40
  else 0

/-- Bytes of a row of 32 elements (R138). -/
def rowBytes (c : Nat) : Nat := 4 * elemBits c

/-- Bytes of a 32 × 32 block (R99). -/
def blockBytes (c : Nat) : Nat := 32 * rowBytes c + (if isMx c then 32 else 0)

/-- The class of a code: 0 double, 1 single, 2 half, 3 FP32 (Table 04.2). -/
def fmtClass (c : Nat) : Nat :=
  if c = 1 then 3 else if c = 2 ∨ c = 3 then 2 else if c = 7 ∨ c = 0x12 ∨ c = 0x13 ∨ c = 0x14 then 0 else 1

/-- Whether a pair of operand formats is allowed (R90). -/
def pairOk (a b : Nat) : Bool :=
  operandFmt a && operandFmt b && ((a == 1) == (b == 1)) && ((a == 6 || a == 7) == (b == 6 || b == 7))

/-- The class of an allowed pair (R90). -/
def pairClass (a b : Nat) : Nat :=
  if a = 1 then 3
  else if fmtClass a = 2 ∨ fmtClass b = 2 then 2
  else if fmtClass a = 0 ∧ fmtClass b = 0 then 0 else 1

/-- The element format of a floating-point code. -/
def fpOf (c : Nat) : Option FpFmt :=
  if c = 1 then some fFp32
  else if c = 2 then some fBf16
  else if c = 3 then some fHalf
  else if c = 4 ∨ c = 0x10 then some fE4m3
  else if c = 5 ∨ c = 0x11 then some fE5m2
  else if c = 0x12 then some fE3m2
  else if c = 0x13 then some fE2m3
  else if c = 0x14 then some fE2m1
  else if c = 0x21 then some fFw40
  else none

/-- The value of an element's bits before any scale (R92, R94). -/
def elemVal (c x : Nat) : Val :=
  match fpOf c with
  | some f => f.decode x
  | none =>
    if c = 0x20 then ofAcc x
    else if c = 0x15 then .fin (decide (signed 8 x < 0)) (signed 8 x).natAbs (-6)
    else
      let i := signed (elemBits c) x
      .fin (decide (i < 0)) i.natAbs 0

/-- The value of an MX element under its scale byte (R96). -/
def mxVal (c x scale : Nat) : Val :=
  if scale = 0xFF then .nan
  else match elemVal c x with
    | .fin n m e => .fin n m (e + scale - 127)
    | v => v

/-- Element `n` of packed bytes (R94). -/
def elemAt (c : Nat) (bytes : List Byte) (n : Nat) : Nat :=
  let w := elemBits c
  bits (leNat ((bytes.drop (n * w / 8)).take ((w + 14) / 8))) (n * w % 8) w

/-- Packs elements of `w` bits, ascending (R94). -/
def packElems (w : Nat) (l : List Nat) : List Byte :=
  leBytes (l.length * w / 8) (l.foldr (fun x acc => x % 2 ^ w + acc * 2 ^ w) 0)

/-- Rounds a value into a storage format that is not MX (R110 to R112). -/
def storeAs (c : Nat) (sat : Bool) (mode rho : Nat) (v : Val) : Rnd :=
  match fpOf c with
  | some f => f.store sat mode rho v
  | none => storeInt (elemBits c) mode rho v

/-- emax of an MX element format (R97). -/
def mxEmax (c : Nat) : Int :=
  if c = 0x10 then 8 else if c = 0x11 then 15 else if c = 0x12 then 4 else if c = 0x13 then 2 else if c = 0x14 then 2 else 0

/-- floor(log2) of the largest magnitude of a block, if any is nonzero. -/
def maxLog (vs : List Val) : Option Int :=
  vs.foldl (fun a v =>
    match v with
    | .fin _ m e => if m = 0 then a else
        let k := e + blen m - 1
        match a with
        | none => some k
        | some b => some (max b k)
    | _ => a) none

/-- Rounds one element of an MX block whose scale exponent is `x` (R97, step 4). -/
def storeMxElem (c mode rho : Nat) (x : Int) (v : Val) : Rnd :=
  let w := match v with
    | .fin n m e => Val.fin n m (e - x)
    | u => u
  match fpOf c with
  | some f => f.store true mode rho w
  | none =>
    storeInt 8 mode rho (match w with
      | .fin n m e => .fin n m (e + 6)
      | u => u)

/-- Stores a block of values in an MX format: the scale byte and the elements (R97). `rho` gives the random bits of
each element. -/
def storeMx (c mode : Nat) (rho : List Nat) (vs : List Val) : Nat × List Rnd :=
  if vs.any (fun v => !v.finite) then (0xFF, vs.map (fun _ => ⟨0, false, false, false⟩))
  else
    let x := match maxLog vs with
      | none => -127
      | some k => max (-127) (min 127 (k - mxEmax c))
    ((x + 127).toNat, (vs.zip (rho ++ List.replicate vs.length 0)).map (fun p => storeMxElem c mode p.2 x p.1))

/-! ## The counter generator (R116) -/

def rotl32 (v n : Nat) : Nat := (v * 2 ^ n + v / 2 ^ (32 - n)) % 2 ^ 32

/-- The rotations of round `r`. -/
def cgRot (r : Nat) : Nat × Nat :=
  [(7, 19), (13, 24), (21, 9), (5, 16), (27, 11), (15, 3), (18, 29), (12, 22)].getD r (0, 0)

/-- One round, with the key injection after rounds 3 and 7. -/
def cgRound (ks : List Nat) (x : Nat × Nat × Nat × Nat) (r : Nat) : Nat × Nat × Nat × Nat :=
  let (x0, x1, x2, x3) := x
  let (a, b) := cgRot r
  let y0 := (x0 + x1) % 2 ^ 32
  let y1 := rotl32 x1 a ^^^ y0
  let y2 := (x2 + x3) % 2 ^ 32
  let y3 := rotl32 x3 b ^^^ y2
  if r % 4 = 3 then
    let s := r / 4 + 1
    let k := fun i => ks.getD ((s + i) % 5) 0
    ((y0 + k 0) % 2 ^ 32, (y3 + k 1) % 2 ^ 32, (y2 + k 2) % 2 ^ 32, (y1 + k 3 + s) % 2 ^ 32)
  else (y0, y3, y2, y1)

/-- The generator: four key words, four counter words, 128 bits of output with x[0] lowest (R116). -/
def cg (k0 k1 k2 k3 c0 c1 c2 c3 : Nat) : Nat :=
  let ks := [k0, k1, k2, k3, 0x3A9E51C7 ^^^ k0 ^^^ k1 ^^^ k2 ^^^ k3]
  let x0 := ((c0 + k0) % 2 ^ 32, (c1 + k1) % 2 ^ 32, (c2 + k2) % 2 ^ 32, (c3 + k3) % 2 ^ 32)
  let (a, b, c, d) := (List.range 8).foldl (cgRound ks) x0
  a + b * 2 ^ 32 + c * 2 ^ 64 + d * 2 ^ 96

/-- The 16 random bits of element `e` of a use (R115): `seed` the 64-bit seed, `use` the use index. -/
def cgBits (seed step mb use e tile layer purpose : Nat) : Nat :=
  bits (cg (seed % 2 ^ 32) (seed / 2 ^ 32) (step % 2 ^ 32) (mb % 2 ^ 32) ((use % 2 ^ 25) * 128 + e / 8 % 128) (tile % 2 ^ 32) (layer % 2 ^ 32)
    (purpose * 2 ^ 24)) (16 * (e % 8)) 16

/-! ## Roots and quotients, with a sticky bit -/

/-- The integer square root by bits from 2^(k-1) down. -/
def isqrtFrom : Nat → Nat → Nat → Nat
  | 0, _, r => r
  | k + 1, n, r => isqrtFrom k n (if (r + 2 ^ k) * (r + 2 ^ k) ≤ n then r + 2 ^ k else r)

def isqrt (n : Nat) : Nat := isqrtFrom (Nat.log2 n / 2 + 1) n 0

/-- The quotient of two nonzero magnitudes to 120 bits and more, with the remainder as a sticky bit. -/
def quot (m : Nat) (e : Int) (n : Nat) (f : Int) : Nat × Int :=
  let a := m * 2 ^ (120 + blen n)
  (2 * (a / n) + b2n (a % n != 0), e - f - (120 + blen n : Nat) - 1)

/-- The square root of a nonzero magnitude, with a sticky bit. -/
def rootMag (m : Nat) (e : Int) : Nat × Int :=
  let (m1, e1) := if e % 2 = 0 then (m, e) else (2 * m, e - 1)
  let n := m1 * 2 ^ 240
  let r := isqrt n
  (2 * r + b2n (r * r != n), e1 / 2 - 121)

/-- The quotient of two values; its rounding to any format here is exact (R137, R251). -/
def Val.div (a b : Val) : Val :=
  match a, b with
  | .nan, _ => .nan
  | _, .nan => .nan
  | .inf _, .inf _ => .nan
  | .inf s, b => .inf (xor s b.neg?)
  | a, .inf t => .fin (xor a.neg? t) 0 0
  | .fin s m e, .fin t n f =>
    if n = 0 then (if m = 0 then .nan else .inf (xor s t))
    else if m = 0 then .fin (xor s t) 0 0
    else let (q, x) := quot m e n f; .fin (xor s t) q x

/-- The square root; of a negative number NaN, of −0 −0 (R137). -/
def Val.sqrt : Val → Val
  | .nan => .nan
  | .inf n => if n then .nan else .inf false
  | .fin n m e => if m = 0 then .fin n 0 0 else if n then .nan else let (q, x) := rootMag m e; .fin false q x

/-! ## Functions by fixed-point intervals

Each function gives, for a precision of P bits, an interval [lo, hi] × 2^e that holds the exact magnitude; the rounding
is settled at the first precision whose two ends round alike. -/

/-- A magnitude interval. -/
structure Ival where
  lo : Nat
  hi : Nat
  e  : Int
  deriving DecidableEq, Repr

/-- An interval of half width `err` around `a`. -/
def around (a err : Nat) (e : Int) : Ival := ⟨a - err, a + err, e⟩

/-- The bound on the error of every series below, in units of the last place. -/
def serErr : Nat := 2 ^ 24

/-- Rounds an interval at rising precision; the last one stands. -/
def settle (neg : Bool) (f : Nat → Ival) : List Nat → Rnd
  | [] => toFw (.fin neg 0 0)
  | [p] => let i := f p; toFw (.fin neg (i.lo + (i.hi - i.lo) / 2) i.e)
  | p :: ps =>
    let i := f p
    let a := toFw (.fin neg i.lo i.e)
    if a = toFw (.fin neg i.hi i.e) then a else settle neg f ps

/-- The precisions tried. -/
def precs : List Nat := [128, 192, 320, 640]

/-- Σ t^n / n! in fixed point of P bits. -/
def expSer (p t : Nat) : Nat → Nat → Nat → Nat → Nat
  | 0, _, _, acc => acc
  | fuel + 1, n, term, acc => if term = 0 then acc else expSer p t fuel (n + 1) (term * t / 2 ^ p / (n + 1)) (acc + term)

/-- ln 2 in fixed point of P bits. -/
def ln2Fix (p : Nat) : Nat := ((List.range (p + 2)).foldl (fun a k => a + 2 ^ (p + 16) / ((k + 1) * 2 ^ (k + 1))) 0) / 2 ^ 16

/-- Σ z^(2n+1) / (2n+1) in fixed point of P bits. -/
def atanhSer (p z2 : Nat) : Nat → Nat → Nat → Nat → Nat
  | 0, _, _, acc => acc
  | fuel + 1, n, term, acc => if term = 0 then acc else atanhSer p z2 fuel (n + 2) (term * z2 / 2 ^ p) (acc + term / n)

/-- arctan(1/x) in fixed point of P bits. -/
def atanInv (p x : Nat) : Int :=
  ((List.range p).foldl (fun (a : Nat × Int) k =>
    (a.1 / (x * x), if k % 2 = 0 then a.2 + (a.1 / (2 * k + 1) : Nat) else a.2 - (a.1 / (2 * k + 1) : Nat))) (2 ^ p / x, 0)).2

/-- π in fixed point of P bits (Machin). -/
def piFix (p : Nat) : Nat := ((16 * atanInv (p + 16) 5 - 4 * atanInv (p + 16) 239) / 2 ^ 16).toNat

/-- Σ (−1)^n t^(2n) / ((s+1)(s+2)…) in fixed point: the series of cos t (s = 0) or of sin t / t (s = 1). -/
def trigSer (p t2 : Nat) : Nat → Nat → Bool → Nat → Int → Int
  | 0, _, _, _, acc => acc
  | fuel + 1, s, sub, term, acc =>
    if term = 0 then acc
    else trigSer p t2 fuel (s + 2) (!sub) (term * t2 / 2 ^ p / ((s + 1) * (s + 2))) (if sub then acc - term else acc + term)

/-- 2^(f × 2^−P) for 0 ≤ f < 2^P, in fixed point. -/
def exp2Frac (p f : Nat) : Nat := expSer p (f * ln2Fix p / 2 ^ p) (2 * p) 0 (2 ^ p) 0

/-- A value's floor of x × 2^P for a magnitude m × 2^e. -/
def fixOf (p m : Nat) (e : Int) : Nat := cutAt 1 0 m e (-(p : Int))

/-- e^y for y = ±m × 2^e with |y| < 1,024: (a, n) stands for a × 2^(n − P), 1 ≤ a × 2^−P < 2. -/
def expVal (p : Nat) (neg : Bool) (m : Nat) (e : Int) : Nat × Int :=
  let y : Int := (fixOf (p + 16) m e * 2 ^ (p + 16) / ln2Fix (p + 16) : Nat)
  let z : Int := (if neg then -y else y) / 2 ^ 16
  (exp2Frac p (z % 2 ^ p).toNat, z / 2 ^ p)

/-- 2^x (R137). -/
def fwExp2 : Val → Rnd
  | .nan => toFw .nan
  | .inf n => toFw (if n then .fin false 0 0 else .inf false)
  | .fin n m e =>
    if m = 0 then toFw (.fin false 1 0)
    else if gtMag m e 1024 0 then toFw (.fin false 1 (if n then -1024 else 1024))
    else
      let k := (max 0 (-e)).toNat
      let x : Int := signedAt n m e (min e 0)
      let i := x / 2 ^ k
      let f := (x % 2 ^ k).toNat
      if f = 0 then toFw (.fin false 1 i)
      else settle false (fun p => around (exp2Frac p (f * 2 ^ p / 2 ^ k)) serErr (i - p)) precs

/-- log2 x for a positive magnitude, with the sign of the result. -/
def log2Ival (p : Nat) (m : Nat) (e : Int) : Bool × Ival :=
  let l := blen m
  let n := e + l - 1
  let y := m * 2 ^ p / 2 ^ (l - 1)
  let z := (y - 2 ^ p) * 2 ^ p / (y + 2 ^ p)
  let ln := 2 * atanhSer p (z * z / 2 ^ p) (2 * p) 1 z 0
  let r : Int := n * 2 ^ p + (ln * 2 ^ p / ln2Fix p : Nat)
  (decide (r < 0), around r.natAbs serErr (-(p : Int)))

/-- Whether a nonzero magnitude is a power of two. -/
def pow2? (m : Nat) : Bool := m == 2 ^ (blen m - 1)

/-- log2 x (R137); none is an exact zero, whose sign the manual does not state. -/
def fwLog2 : Val → Option Rnd
  | .nan => some (toFw .nan)
  | .inf n => some (if n then { toFw .nan with gen := true } else toFw (.inf false))
  | .fin n m e =>
    if m = 0 then some (toFw (.inf true))
    else if n then some { toFw .nan with gen := true }
    else if pow2? m then
      let k := e + blen m - 1
      if k = 0 then none else some (toFw (Val.ofInt k))
    else some (settle (log2Ival 128 m e).1 (fun p => (log2Ival p m e).2) precs)

/-- 1 ÷ (1 + e^−x). -/
def fwSigm : Val → Rnd
  | .nan => toFw .nan
  | .inf n => toFw (if n then .fin false 0 0 else .fin false 1 0)
  | .fin n m e =>
    if m = 0 then toFw (.fin false 1 (-1))
    else if gtMag m e 512 0 then
      (if n then toFw (.fin false 1 (-700)) else settle false (fun p => ⟨2 ^ p - 1, 2 ^ p, -(p : Int)⟩) precs)
    else settle false (fun p =>
      let (a, k) := expVal p true m e
      let u := a / 2 ^ (-k).toNat
      if n then around (a * 2 ^ p / (2 ^ p + u)) serErr (k - p)
      else around (2 ^ (2 * p) / (2 ^ p + u)) serErr (-(p : Int))) precs

/-- tanh x. -/
def fwTanh : Val → Rnd
  | .nan => toFw .nan
  | .inf n => toFw (.fin n 1 0)
  | .fin n m e =>
    if m = 0 then toFw (.fin n 0 0)
    else if gtMag m e 64 0 then settle n (fun p => ⟨2 ^ p - 1, 2 ^ p, -(p : Int)⟩) precs
    else if gtMag 1 (-40) m e then settle n (fun _ => ⟨m * 2 ^ 80 - m, m * 2 ^ 80, e - 80⟩) precs
    else settle n (fun p =>
      let (a, k) := expVal p true m (e + 1)
      let u := a / 2 ^ (-k).toNat
      around ((2 ^ p - u) * 2 ^ p / (2 ^ p + u)) serErr (-(p : Int))) precs

/-- Σ (2t)^n / (2n+1)!! in fixed point, with t = x². -/
def erfSer (p t : Nat) : Nat → Nat → Nat → Nat → Nat
  | 0, _, _, acc => acc
  | fuel + 1, n, term, acc => if term = 0 then acc else erfSer p t fuel (n + 1) (term * (2 * t) / 2 ^ p / (2 * n + 3)) (acc + term)

/-- erf x. -/
def fwErf : Val → Rnd
  | .nan => toFw .nan
  | .inf n => toFw (.fin n 1 0)
  | .fin n m e =>
    if m = 0 then toFw (.fin n 0 0)
    else if gtMag m e 6 0 then settle n (fun p => ⟨2 ^ p - 2 ^ (p - 50), 2 ^ p, -(p : Int)⟩) precs
    else settle n (fun p0 =>
      let p := p0 + 64
      let t := fixOf p (m * m) (2 * e)
      let s := erfSer p t (p + 400) 0 (2 ^ p) 0
      let (a, k) := expVal p true (m * m) (2 * e)
      let r := s * a * 2 / isqrt (piFix p * 2 ^ p) / 2 ^ (-k).toNat
      let g := serErr * 2 ^ 16
      ⟨(r - g) * m, (r + g) * m, e - p⟩) precs

/-- sin(π r × 2^−k) for r in [0, 2^(k+1)), k ≥ 1: none is an exact zero, of unstated sign. -/
def sinPiRed (neg : Bool) (r k : Nat) : Option Rnd :=
  let h := 2 ^ (k - 1)
  let (s, r1) := if r ≥ 2 * h then (!neg, r - 2 * h) else (neg, r)
  let r2 := if r1 > h then 2 * h - r1 else r1
  if r2 = 0 then none
  else if r2 = h then some (toFw (.fin s 1 0))
  else if 2 * r2 ≤ h then
    some (settle s (fun p =>
      let t := r2 * piFix p / 2 ^ k
      let c := (trigSer p (t * t / 2 ^ p) p 1 false (2 ^ p) 0).toNat * piFix p / 2 ^ p
      ⟨(c - serErr) * r2, (c + serErr) * r2, -(p : Int) - k⟩) precs)
  else
    some (settle s (fun p =>
      let t := (h - r2) * piFix p / 2 ^ k
      around (trigSer p (t * t / 2 ^ p) p 0 false (2 ^ p) 0).toNat serErr (-(p : Int))) precs)

/-- sin(π x); ±0 gives itself. -/
def fwSinPi : Val → Option Rnd
  | .nan => some (toFw .nan)
  | .inf _ => some { toFw .nan with gen := true }
  | .fin n m e =>
    if m = 0 then some (toFw (.fin n 0 0))
    else if e ≥ 0 then none
    else
      let k := (-e).toNat
      sinPiRed n (m % 2 ^ (k + 1)) k

/-- cos(π x). -/
def fwCosPi : Val → Option Rnd
  | .nan => some (toFw .nan)
  | .inf _ => some { toFw .nan with gen := true }
  | .fin _ m e =>
    if m = 0 then some (toFw (.fin false 1 0))
    else if e ≥ 1 then some (toFw (.fin false 1 0))
    else
      let (m1, k) := if e = 0 then (2 * m, 1) else (m, (-e).toNat)
      sinPiRed false ((m1 + 2 ^ (k - 1)) % 2 ^ (k + 1)) k

/-- x rounded to an integer: FN 0 nearest even, 1 toward zero, 2 toward −∞, 3 toward +∞ (Table 05.3, R113). -/
def rintVal (fn : Nat) : Val → Val
  | .fin n m e =>
    if e ≥ 0 then .fin n m e
    else
      let lo := cutAt 1 0 m e 0
      let up := cutAt 1 0 m e 0 + b2n (m % 2 ^ (-e).toNat != 0)
      .fin n (if fn = 0 then cutAt 0 0 m e 0 else if fn = 1 then lo else if (fn = 2) = n then up else lo) 0
  | v => v

/-! ## FP32 arithmetic of the Sideboard and the adders (R251, R283) -/

/-- A value rounded to FP32, to nearest even. -/
def toF32 (v : Val) : Nat := (fFp32.store false rne 0 v).bits
def ofF32 (x : Nat) : Val := fFp32.decode x
def fAdd (a b : Nat) : Nat := toF32 ((ofF32 a).add (ofF32 b))
def fSub (a b : Nat) : Nat := toF32 ((ofF32 a).add (ofF32 b).negate)
def fMul (a b : Nat) : Nat := toF32 ((ofF32 a).mul (ofF32 b))
def fDiv (a b : Nat) : Nat := toF32 ((ofF32 a).div (ofF32 b))
def fSqrt (a : Nat) : Nat := toF32 (ofF32 a).sqrt
def fFma (a b c : Nat) : Nat := toF32 (((ofF32 a).mul (ofF32 b)).add (ofF32 c))
def fNeg (a : Nat) : Nat := if (ofF32 a).isNan then fFp32.nanBits else a ^^^ 0x80000000
def fOne : Nat := 0x3F800000
def fFinite (a : Nat) : Bool := (ofF32 a).finite
/-- a > b. -/
def fGt (a b : Nat) : Bool := (ofF32 b).lt (ofF32 a)

end Sys2Proof.Machine
end

