-- ==== Sys2Proof/Machine/Image.lean ====
section
/-! DEFINITION. Varern images and Bench records as bytes, and the checks of a load on their contents (chapters 03 to
06, 08, 10 to 12). -/

namespace Sys2Proof.Machine

/-! ## Bench records -/

/-- A byte range of a memory. -/
structure View where
  mem  : Mem
  base : Nat

/-- The little-endian field of `n` bytes at an offset. -/
def View.n (v : View) (off n : Nat) : Nat := Mem.le v.mem (v.base + off) n

/-- A sub-range. -/
def View.sub (v : View) (off : Nat) : View := ⟨v.mem, v.base + off⟩

def View.mode (v : View) : Nat := v.n 0 1
def View.fmtA (v : View) : Nat := v.n 1 1
def View.fmtB (v : View) : Nat := v.n 2 1
def View.round (v : View) : Nat := v.n 3 1
def View.proEntry (v : View) : Nat := v.n 4 2
def View.epiEntry (v : View) : Nat := v.n 6 2
def View.routes (v : View) : Nat := v.n 8 1
def View.sources (v : View) : Nat := v.n 9 1
def View.queueBinds (v : View) : Nat := v.n 0xA 1
def View.syncBinds (v : View) : Nat := v.n 0xB 1
def View.tokenIn (v : View) : Nat := v.n 0x10 8
def View.tokenOut (v : View) : Nat := v.n 0x18 8
def View.flags (v : View) : Nat := v.n 0x20 8
def View.strict (v : View) : Bool := bit v.flags 0
def View.deferred (v : View) : Bool := bit v.flags 1
def View.onChip (v : View) : Bool := bit v.flags 2

/-- A route entry (Table 11.10); entries not read are unused. -/
def View.route (v : View) (i : Nat) : View := v.sub (0x100 + 16 * i)
def View.rKind (v : View) (i : Nat) : Nat := if i < v.routes then (v.route i).n 0 1 else 0
def View.rPeerEntry (v : View) (i : Nat) : Nat := (v.route i).n 1 1
def View.rTile (v : View) (i : Nat) : Nat := (v.route i).n 2 2
def View.rPeer (v : View) (i : Nat) : Nat := (v.route i).n 4 2
def View.rTarget (v : View) (i : Nat) : Nat := (v.route i).n 6 1
def View.rParam (v : View) (i : Nat) : Nat := (v.route i).n 8 8

/-- An operand source descriptor (Table 04.4). -/
def View.src (v : View) (i : Nat) : View := v.sub (0x500 + 32 * i)
def View.sKind (v : View) (i : Nat) : Nat := if i < v.sources then (v.src i).n 0 1 else 0
def View.sRole (v : View) (i : Nat) : Nat := (v.src i).n 1 1
def View.sFormat (v : View) (i : Nat) : Nat := (v.src i).n 2 1
def View.sTranspose (v : View) (i : Nat) : Bool := bit ((v.src i).n 3 1) 0
def View.sScaleCols (v : View) (i : Nat) : Bool := bit ((v.src i).n 3 1) 1
def View.sRoute (v : View) (i : Nat) : Nat := (v.src i).n 4 1
def View.sPrologue (v : View) (i : Nat) : Bool := (v.src i).n 5 1 == 1
def View.sBase (v : View) (i : Nat) : Nat := (v.src i).n 8 8
def View.sK (v : View) (i : Nat) : Nat := (v.src i).n 0x10 2
def View.sMn (v : View) (i : Nat) : Nat := (v.src i).n 0x12 2
def View.sStrideK (v : View) (i : Nat) : Nat := (v.src i).n 0x14 4
def View.sStrideMn (v : View) (i : Nat) : Nat := (v.src i).n 0x18 4

/-- Sources in use with a role, in descriptor order. -/
def View.roleSrcs (v : View) (role : Nat) : List Nat :=
  (List.range v.sources).filter (fun i => v.sKind i != 0 && v.sRole i == role)

/-- A queue binding (Table 08.1). -/
def View.qb (v : View) (i : Nat) : View := v.sub (0x900 + 8 * i)
def View.qQueue (v : View) (i : Nat) : Nat := (v.qb i).n 0 1
def View.qRole (v : View) (i : Nat) : Nat := if i < v.queueBinds then (v.qb i).n 1 1 else 0
def View.qRoute (v : View) (i : Nat) : Nat := (v.qb i).n 2 1

/-- A sync binding (Table 12.4). -/
def View.yb (v : View) (i : Nat) : View := v.sub (0xB00 + 8 * i)
def View.yVid (v : View) (i : Nat) : Nat := (v.yb i).n 0 2
def View.yCtx (v : View) (i : Nat) : Nat := (v.yb i).n 2 1
def View.yRole (v : View) (i : Nat) : Nat := if i < v.syncBinds then (v.yb i).n 3 1 else 0
def View.yRemote (v : View) (i : Nat) : Bool := bit ((v.yb i).n 4 1) 7
def View.yDie (v : View) (i : Nat) : Nat := (v.yb i).n 4 1 % 16
def View.yN (v : View) (i : Nat) : Nat := (v.yb i).n 6 2

/-- The epilogue parameters (Table 05.4). -/
def View.par (v : View) : View := v.sub 0xD00
def View.layer (v : View) : Nat := v.par.n 0 4
def View.tileBase (v : View) : Nat := v.par.n 4 4
def View.tileRowStride (v : View) : Nat := v.par.n 8 4
def View.rowBase (v : View) : Nat := v.par.n 0xC 4
def View.colBase (v : View) : Nat := v.par.n 0x10 4
def View.defer1 (v : View) : Nat := v.par.n 0x14 2
def View.defer2 (v : View) : Nat := v.par.n 0x16 2
def View.aInit (v : View) (n : Nat) : Nat := v.par.n (0x20 + 8 * n) 8
def View.inFormat (v : View) (s : Nat) : Nat := v.par.n (0x60 + s) 1
def View.proRowBase (v : View) (s : Nat) : Nat := v.par.n (0x80 + 8 * s) 4
def View.proColBase (v : View) (s : Nat) : Nat := v.par.n (0x84 + 8 * s) 4
def View.konst (v : View) (k : Nat) : Nat := v.par.n (0x180 + 8 * k) 5

/-- An instruction word of the program store. -/
def View.prog (v : View) (pc : Nat) : Nat := v.n (0x1000 + 4 * pc) 4

/-- A transfer descriptor (Table 06.3). -/
def View.desc (v : View) (d : Nat) : View := v.sub (0x2000 + 64 * d)
def View.dOp (v : View) (d : Nat) : Nat := (v.desc d).n 0 1
def View.dTrigger (v : View) (d : Nat) : Nat := (v.desc d).n 1 1
def View.dWait (v : View) (d : Nat) : Nat := (v.desc d).n 2 1
def View.dDone (v : View) (d : Nat) : Nat := (v.desc d).n 3 1
def View.dWindow (v : View) (d : Nat) : Nat := (v.desc d).n 4 1
def View.dSrcSpace (v : View) (d : Nat) : Nat := (v.desc d).n 5 1
def View.dDstSpace (v : View) (d : Nat) : Nat := (v.desc d).n 6 1
def View.dSrc (v : View) (d : Nat) : Nat := (v.desc d).n 8 8
def View.dDst (v : View) (d : Nat) : Nat := (v.desc d).n 0x10 8
def View.dLength (v : View) (d : Nat) : Nat := (v.desc d).n 0x18 4
def View.dCredit (v : View) (d : Nat) : Nat := (v.desc d).n 0x1C 4
def View.dPeer (v : View) (d : Nat) : Nat := (v.desc d).n 0x20 4
def View.dWinOff (v : View) (d : Nat) : Nat := (v.desc d).n 0x24 4
def View.dWinBytes (v : View) (d : Nat) : Nat := (v.desc d).n 0x28 4

/-! ## Instruction words (R134 to R136) -/

def wOp (w : Nat) : Nat := bits w 26 6
def wVd (w : Nat) : Nat := bits w 20 6
def wVa (w : Nat) : Nat := bits w 14 6
def wVb (w : Nat) : Nat := bits w 8 6
def wVc (w : Nat) : Nat := bits w 2 6
def wFn (w : Nat) : Nat := bits w 0 2
def wFmt (w : Nat) : Nat := bits w 14 6
def wSat (w : Nat) : Nat := bits w 13 1
def wMode (w : Nat) : Nat := bits w 11 2
def wAreg (w : Nat) : Nat := bits w 8 3
def wX (w : Nat) : Nat := bits w 7 1
def wImm7 (w : Nat) : Nat := bits w 0 7
def wImm20 (w : Nat) : Nat := bits w 0 20

def fnNone (w : Nat) : Bool := wFn w == 0
def vbNone (w : Nat) : Bool := wVb w == 0
def vcNone (w : Nat) : Bool := wVc w == 0

/-- MODE and SAT of a store-like instruction: with MODE 3 both come from ROUND (R135). -/
def modeOk (w : Nat) : Bool := wMode w != 3 || wSat w == 0

/-- Whether a word is an instruction whose unused fields are zero and whose fields hold no reserved value (R132, R135,
R136, R138, R140, R142, R143, R147). -/
def wordOk (w : Nat) : Bool :=
  let op := wOp w
  if op ≤ 2 then wVd w == 0 && wImm20 w == 0
  else if op ∈ [4, 5, 6, 8, 9, 0x10] then vcNone w && fnNone w
  else if op = 7 then fnNone w
  else if op ∈ [0xA, 0xB, 0xF, 0x11, 0x12, 0x13, 0x14, 0x15, 0x16, 0x17, 0x18, 0x19, 0x1A, 0x1C, 0x1D, 0x1E] then
    vbNone w && vcNone w && fnNone w
  else if op = 0xC then true
  else if op = 0xD then vbNone w && vcNone w
  else if op = 0xE then wVb w ≤ 4 && vcNone w && fnNone w
  else if op = 0x1F then wImm20 w ≤ 2
  else if op = 0x20 then wImm20 w < 48
  else if op = 0x21 then wImm20 w < 256
  else if op = 0x22 then (operandFmt (wFmt w) || wFmt w == 0x20 || wFmt w == 0x21) && wSat w == 0 && wMode w == 0
  else if op = 0x23 then bits w 0 20 == 0
  else if op = 0x24 then wFmt w ≤ 6 && modeOk w && wAreg w ≤ 1 && wX w == 0
  else if op = 0x25 then (operandFmt (wFmt w) || wFmt w == 0x21) && modeOk w && (wX w == 0 || isMx (wFmt w))
  else if op = 0x26 then wFmt w == 0 && wMode w ≤ 1 && wAreg w == 0 && wX w == 0 && wImm7 w == 0
  else if op = 0x27 then
    (operandFmt (wFmt w) || wFmt w == 0x20 || wFmt w == 0x21) && modeOk w && (wX w == 0 || isMx (wFmt w)) && wVd w ≤ 1
  else if op = 0x28 then 1 ≤ wFmt w && wFmt w ≤ 6 && modeOk w && wAreg w == 0 && wX w == 0
  else if op = 0x29 then wVd w ≤ 7
  else false

/-- The V registers a word names and its address register, if any. -/
def wordRegs (w : Nat) : List Nat × Option Nat :=
  let op := wOp w
  if op ≤ 2 then ([], none)
  else if op ∈ [4, 5, 6, 8, 9, 0x10] then ([wVd w, wVa w, wVb w], none)
  else if op = 7 ∨ op = 0xC then ([wVd w, wVa w, wVb w, wVc w], none)
  else if op ≤ 0x1E then ([wVd w, wVa w], none)
  else if op = 0x22 ∨ op = 0x25 then ([wVd w], some (wAreg w))
  else if op = 0x27 then ([], some (wAreg w))
  else if op = 0x29 then ([], some (wVd w))
  else ([wVd w], none)

/-- Whether a word names only registers of its program's set (R127). -/
def regsOk (pro : Bool) (w : Nat) : Bool :=
  let (vs, a) := wordRegs w
  vs.all (fun r => if pro then decide (48 ≤ r) else decide (r ≤ 47)) &&
    (match a with
     | none => true
     | some n => if pro then decide (6 ≤ n) else decide (n ≤ 5))

/-- Row-bound instructions, which a tail may not hold (R132). -/
def rowBound (w : Nat) : Bool :=
  wOp w ∈ [0x24, 0x27, 0x23, 0x26, 0x25, 0x1C, 0x1D, 0x1E, 0x28] ||
    (wOp w == 0x22 && wX w == 1) || (wOp w == 0x1F && wImm20 w ≤ 1)

/-- The words of a program from an entry, to the ENDR or ENDT that ends the part, with the index after it. -/
def View.part (v : View) (stop : Nat) : Nat → Nat → Option (List Nat × Nat)
  | 0, _ => none
  | f + 1, pc =>
    if pc ≥ 1024 then none
    else
      let w := v.prog pc
      if wOp w = stop then some ([w], pc + 1)
      else if wOp w = 1 ∨ wOp w = 2 then none
      else (v.part stop f (pc + 1)).map (fun r => (w :: r.1, r.2))

/-- The body and the tail of the program at an entry (R131). -/
def View.program (v : View) (entry : Nat) : Option (List Nat × List Nat) :=
  match v.part 1 1025 entry with
  | none => none
  | some (body, pc) => (v.part 2 1025 pc).map (fun r => (body, r.1))

/-- The route entry of a SPACE 2 address, and the SPACE of an address word. -/
def aSpace (a : Nat) : Nat := bits a 62 2
def aAddr (a : Nat) : Nat := a % 2 ^ 48

/-- A store through an address register whose A_INIT names a route (R132, last case). -/
def View.storeOk (v : View) (w : Nat) : Bool :=
  if wOp w = 0x25 ∨ wOp w = 0x27 then
    let a := v.aInit (wAreg w)
    if aSpace a = 2 then operandFmt (wFmt w) && (v.rKind (a % 64) != 6 || wFmt w == 1) else true
  else true

/-- Whether the program at an entry passes R127 and R132. `pro`: it is a prologue. Words of the store that no entry reaches
are no instruction of a program and are not judged (DESIGN CHOICE, log 63). -/
def View.programOk (v : View) (pro : Bool) (entry : Nat) : Bool :=
  if entry = 0xFFFF then true
  else match v.program entry with
    | none => false
    | some (body, tail) =>
      (body ++ tail).all (fun w => wordOk w && regsOk pro w && v.storeOk w &&
        (if pro then !(wOp w ∈ [0x24, 0x27, 0x25, 0x21]) else !(wOp w ∈ [0x23, 0x26]))) &&
      tail.all (fun w => !(rowBound w))

/-- Whether an epilogue is a gate epilogue (R144). -/
def View.gate (v : View) : Bool :=
  if v.epiEntry = 0xFFFF then false
  else match v.program v.epiEntry with
    | none => false
    | some (body, _) => body.any (fun w => (wOp w == 0x24 && wAreg w == 1) || (wOp w == 0x27 && wVd w == 1))

/-! ## What a plane is checked against -/

/-- The facts of an image and the device that record checks use. -/
structure PlaneCtx where
  man   : Manifest
  kind  : Nat
  coord : Nat
  dims  : Nat × Nat × Nat

/-- Whether coordinates lie in the torus. -/
def PlaneCtx.inTorus (c : PlaneCtx) (p : Nat) : Bool :=
  decide (p < 2 ^ 15) && decide (bits p 0 5 < c.dims.1) && decide (bits p 5 5 < c.dims.2.1) && decide (bits p 10 5 < c.dims.2.2)

/-- R89, R91, Table 03.4: the control block. -/
def View.controlOk (v : View) : Bool :=
  decide (v.mode ≤ 3) &&
  (if v.mode = 1 then pairOk v.fmtA v.fmtB else v.fmtA == 0 && v.fmtB == 0) &&
  decide (v.round < 8) && v.round % 4 != 3 && decide (v.routes ≤ 64) && decide (v.sources ≤ 32) &&
  decide (v.queueBinds ≤ 64) && decide (v.syncBinds ≤ 64) && v.n 0xC 4 == 0 && decide (v.flags < 8) && v.n 0x28 216 == 0 &&
  (List.range 64).all (fun i =>
    (!(bit v.tokenIn i) || v.rKind i == 1) &&
    (!(bit v.tokenOut i) || (v.rKind i != 0 && v.rKind i != 1 && v.rKind i != 6)))

/-- R98, R95, R140, R141: an operand source descriptor. -/
def View.srcOk (v : View) (i : Nat) : Bool :=
  let d := v.src i
  let k := v.sKind i
  if k = 0 then true
  else
    decide (k ≤ 3) && decide (v.sRole i ≤ 2) &&
    v.sFormat i == (if v.sRole i = 0 then v.fmtA else if v.sRole i = 1 then v.fmtB else 0x20) &&
    decide (d.n 3 1 < 4) && (if k = 3 then v.rKind (v.sRoute i) == 1 && v.rTarget (v.sRoute i) != 1 else v.sRoute i == 0) &&
    decide (d.n 5 1 ≤ 1) && d.n 6 2 == 0 && d.n 0x1C 4 == 0 && v.sStrideK i % 32 == 0 && v.sStrideMn i % 32 == 0 &&
    (!(isMx (v.sFormat i)) || v.sPrologue i || v.sScaleCols i == xor (v.sRole i == 1) (v.sTranspose i)) &&
    (!(v.sPrologue i) ||
      (!(isMx (v.sFormat i)) && v.sRole i != 2 && v.proEntry != 0xFFFF &&
        (operandFmt (v.inFormat i) || (v.inFormat i == 0x21 && k == 1 && v.onChip))))

/-- R328: a route entry. -/
def View.routeOk (v : View) (c : PlaneCtx) (i : Nat) : Bool :=
  let k := v.rKind i
  let r := v.route i
  let t := v.rTarget i
  let toTile := k == 2 || k == 5 || (k == 1 && t != 1)
  let peer := k == 4 || k == 5 || (k == 1 && t == 2)
  if k = 0 then true
  else
    decide (k ≤ 6) && r.n 7 1 == 0 &&
    (if k = 1 then decide (t ≤ 2) else if k = 3 ∨ k = 4 then decide (t < 64) else if k = 6 then decide (t < 16) else t == 0) &&
    (if toTile then decide (v.rTile i < 1024) else v.rTile i == 0) &&
    (toTile || v.rPeerEntry i == 0) &&
    (if peer then c.inTorus (v.rPeer i) && v.rPeer i != c.coord else v.rPeer i == 0) &&
    (if k = 6 then bit c.man.redChannels t else v.rParam i == 0) &&
    (if toTile && k == 1 then ((List.range v.sources).countP (fun s => v.sKind s == 3 && v.sRoute s == i)) == 1 else true)

/-- R219, R328: a queue binding. -/
def View.qbOk (v : View) (c : PlaneCtx) (i : Nat) : Bool :=
  let ro := v.qRole i
  if ro = 0 then true
  else
    decide (ro ≤ 2) && decide (v.qQueue i < 64) && bit c.man.queueMask (v.qQueue i) && decide (v.qRoute i < v.routes) &&
    (v.qb i).n 3 5 == 0 &&
    (if ro = 1 then v.rKind (v.qRoute i) == 1 && v.rTarget (v.qRoute i) == 1
     else v.rKind (v.qRoute i) == 3 && v.rTarget (v.qRoute i) == v.qQueue i)

/-- The route carries data of a PRODUCE binding. -/
def View.produces (v : View) (r : Nat) : Bool := (List.range v.queueBinds).any (fun i => v.qRole i == 2 && v.qRoute i == r)

/-- The CONSUME binding of a route, if any. -/
def View.consumes (v : View) (r : Nat) : Option Nat :=
  (List.range v.queueBinds).find? (fun i => v.qRole i == 1 && v.qRoute i == r)

/-- R348: a sync binding by itself. -/
def View.ybOk (v : View) (c : PlaneCtx) (i : Nat) : Bool :=
  let ro := v.yRole i
  let d := (v.yb i).n 4 1
  if ro = 0 then true
  else
    decide (ro ≤ 3) && (v.yb i).n 5 1 == 0 && (if v.yRemote i then bits d 4 3 == 0 && ro == 1 else d == 0) &&
    (if ro = 1 then v.yN i == 0 else if ro = 2 then v.yN i == 1 else 1 ≤ v.yN i && v.yN i ≤ 4096) &&
    (v.yRemote i || decide (v.yCtx i < c.man.contexts)) && decide (v.yCtx i < 16)

/-- Whether [a, a + n) lies in [b, b + m). -/
def inside (a n b m : Nat) : Bool := decide (b ≤ a) && decide (a + n ≤ b + m)

/-- A range of a descriptor's or a store's space 0, 1 or 3 (R143, R176). -/
def PlaneCtx.rangeOk (c : PlaneCtx) (tile space a n : Nat) : Bool :=
  if space = 0 then decide (a + n ≤ c.man.scratch.getD tile 0)
  else if space = 1 then inside a n c.man.shelfBase c.man.shelfBytes
  else if space = 3 then inside a n c.man.wrdBase c.man.wrdBytes
  else false

/-- R174, R176, R219, R277, R328, R348: a transfer descriptor. -/
def View.descOk (v : View) (c : PlaneCtx) (tile d : Nat) : Bool :=
  let o := v.dOp d
  let x := v.desc d
  if o = 0 then true
  else
    let bind := fun b => decide (b < v.syncBinds) && v.yRole b != 0
    decide (o ≤ 3) && decide (v.dTrigger d ≤ 2) && (if v.dTrigger d = 1 then bind (v.dWait d) else v.dWait d == 0) &&
    (v.dDone d == 0xFF || bind (v.dDone d)) && x.n 7 1 == 0 && x.n 0x2C 20 == 0 && decide (v.dWindow d ≤ 7) &&
    (if o = 1 then
      let ss := v.dSrcSpace d
      let ds := v.dDstSpace d
      decide (ss ≤ 3) && decide (ds ≤ 4) && (ds == 4 || v.dWindow d == 0) && 0 < v.dLength d && v.dLength d % 16 == 0 &&
      v.dCredit d == 0 && v.dPeer d == 0 && v.dWinOff d == 0 && v.dWinBytes d == 0 &&
      (if ss = 2 then decide (v.dSrc d < v.routes) && (v.consumes (v.dSrc d)).isSome && (ds == 0 || ds == 1 || ds == 3)
       else c.rangeOk tile ss (v.dSrc d) (v.dLength d)) &&
      (if ds = 2 then
        let k := v.rKind (v.dDst d)
        decide (v.dDst d < v.routes) && k != 0 && k != 1 &&
        ((k != 4 && !(v.produces (v.dDst d))) || decide (v.dLength d ≤ 65536))
       else if ds = 4 then decide (v.dDst d < 2 ^ 52) && inside (v.dDst d % 2 ^ 48) 1 spBase (1024 * 0x100000)
       else c.rangeOk tile ds (v.dDst d) (v.dLength d))
     else if o = 2 then
      v.dSrcSpace d == 0 && v.dDstSpace d == 0 && v.dSrc d == 0 && v.dDst d == 0 && v.dLength d == 0 &&
      decide (16 ≤ v.dCredit d) && decide (v.dCredit d ≤ 786432) && bits (v.dPeer d) 10 6 == 0 && decide (v.dPeer d < 2 ^ 20) &&
      v.dWinOff d % 16 == 0 && 0 < v.dWinBytes d && v.dWinBytes d % 16 == 0 &&
      decide (v.dWinOff d + v.dWinBytes d ≤ c.man.scratch.getD tile 0)
     else
      v.dSrcSpace d == 0 && v.dDstSpace d == 0 && v.dSrc d == 0 && v.dDst d == 0 && v.dLength d == 0 && v.dCredit d == 0 &&
      v.dPeer d == 0 && v.dWinOff d == 0 && v.dWinBytes d == 0)

/-- R139, R150: the epilogue parameters. -/
def View.parOk (v : View) : Bool :=
  v.par.n 0x18 8 == 0 && (List.range 8).all (fun n => bits (v.aInit n) 48 14 == 0) &&
  (List.range 48).all (fun k => v.par.n (0x185 + 8 * k) 3 == 0) && (!v.deferred || v.defer1 != 0xFFFF)

/-- Whether a Bench record passes every check that concerns it alone. -/
def View.recordOk (v : View) (c : PlaneCtx) (tile : Nat) : Bool :=
  if v.mode = 0 then true
  else
    v.controlOk && (List.range v.sources).all v.srcOk && (List.range v.routes).all (v.routeOk c) &&
    (List.range v.queueBinds).all (v.qbOk c) && (List.range v.syncBinds).all (v.ybOk c) &&
    (List.range 64).all (v.descOk c tile) && v.parOk && v.programOk true v.proEntry && v.programOk false v.epiEntry &&
    v.programOk false v.defer1 && v.programOk false v.defer2 && (!v.onChip || c.kind == 3 || c.kind == 4) &&
    (!v.gate ||
      ((v.roleSrcs 0).length == 1 && (v.roleSrcs 1).length == 2 && v.sMn ((v.roleSrcs 1).getD 0 0) == v.sMn ((v.roleSrcs 1).getD 1 0)))

/-! ## Images -/

/-- A section table entry (R65). -/
structure Section where
  type   : Nat
  drawer : Nat
  off    : Nat
  len    : Nat
  target : Nat
  zero   : Bool

/-- The image header and table of an image in the Wardrobe. -/
def View.magicOk (v : View) : Bool := v.n 0 4 == 0x494E5256 && v.n 4 2 == 1 && v.n 6 2 == 256
def View.imageId (v : View) : Nat := v.n 8 8
def View.imageLength (v : View) : Nat := v.n 0x10 8
def View.secTable (v : View) : Nat := v.n 0x18 8
def View.secCount (v : View) : Nat := v.n 0x20 4

/-- A section of the table. -/
def View.section (v : View) (i : Nat) : Section :=
  let e := v.sub (v.secTable + 32 * i)
  { type := e.n 0 2, drawer := e.n 2 1, zero := e.n 3 1 == 0 && e.n 4 4 == 0, off := e.n 8 8, len := e.n 0x10 8, target := e.n 0x18 8 }

def View.sections (v : View) : List Section := (List.range v.secCount).map v.section

/-- Whether two byte ranges overlap. -/
def overlap (a n b m : Nat) : Bool := decide (0 < n) && decide (0 < m) && decide (a < b + m) && decide (b < a + n)

/-- The header and the placement of the section table (Table 03.1). -/
def View.headerOk (v : View) : Bool :=
  v.imageId != 0 && decide (448 ≤ v.imageLength) && v.n 0x24 4 == 0 && v.n 0x28 8 == v.imageLength - 192 && v.n 0x38 200 == 0 &&
  decide (1 ≤ v.secCount) && decide (v.secCount ≤ 64) && v.secTable % 64 == 0 &&
  inside v.secTable (32 * v.secCount) 256 (v.imageLength - 448)

/-- Whether a section table entry is well formed and overlaps no earlier part (R65, Table 03.2). -/
def View.sectionOk (v : View) (i : Nat) : Bool :=
  let e := v.section i
  e.zero && (e.type == 2 || e.drawer == 0) && decide (e.drawer ≤ 3) && (e.type == 3 || e.target == 0) && e.off % 64 == 0 &&
  inside e.off e.len 256 (v.imageLength - 448) && !(overlap e.off e.len v.secTable (32 * v.secCount)) &&
  (List.range i).all (fun j => !(overlap e.off e.len (v.section j).off (v.section j).len)) &&
  (if e.type = 1 then e.len == 0x1100 && (List.range i).all (fun j => (v.section j).type != 1)
   else if e.type = 2 then e.len == 0xC00000 && (List.range i).all (fun j => (v.section j).type != 2 || (v.section j).drawer != e.drawer)
   else if e.type = 3 then e.len % 64 == 0
   else e.type == 4)

/-- The index of the manifest's section. -/
def View.manIndex (v : View) : Option Nat := (List.range v.secCount).find? (fun i => (v.section i).type == 1)

/-- The manifest (Table 03.5). -/
def View.manifest (v : View) : Manifest :=
  match v.manIndex with
  | none => {}
  | some i =>
    let m := v.sub (v.section i).off
    { planeMask := m.n 4 1, partMask := m.n 5 1, loadKind := m.n 6 1, contexts := m.n 7 1,
      planeKind := (List.range 4).map (fun d => m.n (8 + d) 1), rowWidth := (List.range 32).map (fun t => m.n (0x10 + t) 1),
      shelfBase := m.n 0x30 8, shelfBytes := m.n 0x38 8, wrdBase := m.n 0x40 8, wrdBytes := m.n 0x48 8,
      chestBase := m.n 0x50 8, chestBytes := m.n 0x58 8, queueMask := m.n 0x60 8, linkMask := m.n 0x68 8,
      qstoreUnits := m.n 0x70 2, syncObjects := m.n 0x72 2, redChannels := m.n 0x74 2, maxMb := m.n 0x78 4,
      powerClaim := m.n 0x80 32, scratch := (List.range 1024).map (fun t => m.n (0x100 + 4 * t) 4) }

/-- Whether the index of a power function is one that Table 02.5 lists is judged by the caller's function (R68). -/
def View.manifestOk (v : View) (listed : Nat → Bool) : Bool :=
  match v.manIndex with
  | none => false
  | some i =>
    let m := v.sub (v.section i).off
    let a := v.manifest
    m.n 0xC 4 == 0 && m.n 0x76 2 == 0 && m.n 0x7C 4 == 0 && m.n 0xA0 96 == 0 && decide (a.planeMask < 16) && decide (a.partMask < 4) &&
    decide (1 ≤ a.contexts) && decide (a.contexts ≤ 16) && decide (a.linkMask < 2 ^ 48) && decide (a.qstoreUnits ≤ 128) &&
    decide (a.syncObjects ≤ 4096) && a.rowWidth.all (fun w => decide (w ≤ 32)) &&
    [a.shelfBase, a.shelfBytes, a.wrdBase, a.wrdBytes, a.chestBase, a.chestBytes].all (fun x => x % 4096 == 0) &&
    (List.range 4).all (fun d =>
      let k := a.planeKind.getD d 0
      decide (k ≤ 4) && ((k == 0) == !(bit a.planeMask d))) &&
    (List.range 256).all (fun n => !(bit a.powerClaim n) || listed n) &&
    (List.range 4).all (fun d => !(bit a.planeMask d) || v.sections.any (fun e => e.type == 2 && e.drawer == d))

/-- A Bench record of a plane section. -/
def View.record (v : View) (e : Section) (tile : Nat) : View := v.sub (e.off + tile * 0x3000)

/-- DEFINE bindings of one record: (ctx, vid, role, N). -/
def View.defines (v : View) : List (Nat × Nat × Nat × Nat) :=
  if v.mode = 0 then []
  else (List.range v.syncBinds).filterMap (fun i =>
    if v.yRole i = 2 ∨ v.yRole i = 3 then some (v.yCtx i, v.yVid i, v.yRole i, v.yN i) else none)

/-- Plane sections in ascending drawer, with their section index. -/
def View.planes (v : View) : List (Nat × Section) :=
  ((List.range 4).map (fun d => (List.range v.secCount).filterMap (fun i =>
    let e := v.section i
    if e.type = 2 ∧ e.drawer = d then some (i, e) else none))).flatten

/-- All DEFINE bindings of the image, in the order of R351. -/
def View.allDefines (v : View) : List (Nat × Nat × Nat × Nat) :=
  (v.planes.map (fun p => ((List.range 1024).map (fun t => (v.record p.2 t).defines)).flatten)).flatten

/-- The distinct objects that a list of definitions names. -/
def distinctObjs (l : List (Nat × Nat × Nat × Nat)) : List (Nat × Nat) :=
  (l.foldl (fun acc d => if acc.contains (d.1, d.2.1) then acc else (d.1, d.2.1) :: acc) []).reverse

/-- The benches of a plane that hold a CONSUME binding for a queue. -/
def View.consumersIn (v : View) (e : Section) (q : Nat) : Nat :=
  (List.range 1024).countP (fun t =>
    let r := v.record e t
    r.mode != 0 && (List.range r.queueBinds).any (fun i => r.qRole i == 1 && r.qQueue i == q))

/-- Whether a plane section passes every check of its records (R68, R219, R348 and the record checks). -/
def View.planeOk (v : View) (c : PlaneCtx) (e : Section) : Bool :=
  let defs := v.allDefines
  decide ((c.man.planeMask / 2 ^ e.drawer) % 2 = 1) &&
  (List.range 1024).all (fun t =>
    let r := v.record e t
    (r.mode == 0 || decide (t % 32 < c.man.rowWidth.getD (t / 32) 0)) &&
    r.recordOk { c with kind := c.man.planeKind.getD e.drawer 0 } t &&
    (r.mode == 0 || (List.range r.syncBinds).all (fun i =>
      let ro := r.yRole i
      if ro = 0 ∨ r.yRemote i = true then true
      else if ro = 1 then defs.any (fun d => d.1 == r.yCtx i && d.2.1 == r.yVid i)
      else match defs.find? (fun d => d.1 == r.yCtx i && d.2.1 == r.yVid i) with
        | none => false
        | some d => d.2.2.1 == ro && d.2.2.2 == r.yN i))) &&
  (List.range 64).all (fun q => decide (v.consumersIn e q ≤ 32))

/-- Whether a DATA section's target lies wholly in the image's own memory. -/
def dataOk (m : Manifest) (e : Section) : Bool :=
  inside e.target e.len (shelfBase + m.shelfBase) m.shelfBytes || inside e.target e.len m.wrdBase m.wrdBytes ||
    (decide (spBase ≤ e.target) && decide (e.target < qstBase) &&
      decide ((e.target - spBase) / 0x100000 < 1024) &&
      decide ((e.target - spBase) % 0x100000 + e.len ≤ m.scratch.getD ((e.target - spBase) / 0x100000) 0))

/-- Checks 4 and 5 (Table 03.6) in the stages of R484: the code and DETAIL of the first that fails. -/
def View.formCheck (v : View) (listed : Nat → Bool) (coord : Nat) (dims : Nat × Nat × Nat) : Option (Nat × Nat) :=
  if !v.magicOk then some (0x03, 0)
  else if !v.headerOk then some (0x04, 0xFFFFFFFF)
  else match (List.range v.secCount).find? (fun i => !(v.sectionOk i)) with
    | some i => some (0x04, i)
    | none =>
      match v.manIndex with
      | none => some (0x04, 0xFFFFFFFF)
      | some mi =>
        if v.n (v.imageLength - 192 + 129) 63 ≠ 0 then some (0x04, 0xFFFFFFFF)
        else if (v.sub (v.section mi).off).n 0 4 ≠ 1 then some (0x03, 0)
        else if !(v.manifestOk listed) then some (0x04, mi)
        else
          let c : PlaneCtx := ⟨v.manifest, 0, coord, dims⟩
          match (List.range v.secCount).find? (fun i =>
              let e := v.section i
              (e.type == 2 && !(v.planeOk c e)) || (e.type == 3 && !(dataOk c.man e))) with
          | some i => some (0x04, i)
          | none => if (distinctObjs v.allDefines).length > c.man.syncObjects then some (0x04, mi) else none

/-- The signature block: key, signature and key slot (R66). -/
def View.sigKey (v : View) : List Byte := Mem.rdN v.mem (v.base + v.imageLength - 192) 64
def View.sigRs (v : View) : List Byte := Mem.rdN v.mem (v.base + v.imageLength - 128) 64
def View.sigSlot (v : View) : Nat := v.n (v.imageLength - 64) 1
def View.signed (v : View) : List Byte := Mem.rdN v.mem v.base (v.imageLength - 192)

end Sys2Proof.Machine
end

