-- ==== Sys2Proof/Machine/Mesh.lean ====
section
/-! DEFINITION. The on-die mesh: stops, attach stops, routing, arbitration and backpressure (chapter 01). -/

namespace Sys2Proof.Machine

/-- The number of a face: the inputs and outputs of a stop (R20); 4 is the local side. -/
def faceNum : Face → Nat
  | .north => 0
  | .east => 1
  | .south => 2
  | .west => 3
  | .here => 4

/-- Mesh hops between two stops, numbered row × 33 + column (R22). -/
def hops (a b : Nat) : Nat :=
  (if a / 33 ≤ b / 33 then b / 33 - a / 33 else a / 33 - b / 33) +
    (if a % 33 ≤ b % 33 then b % 33 - a % 33 else a % 33 - b % 33)

/-- The stop of a sync cell (R338). -/
def cellStop (c : Nat) : Nat := c / 32 % 32 * 33 + c % 32

/-- The edge agents (Table 01.3). `linkComplex` stands for the 48 link ports together, behind which the crossbar joins
them (R27; log 62). -/
inductive Agent where
  | desk
  | link (l : Nat)
  | sideboard
  | eth (e : Nat)
  | rackTime
  | wrdPort (p : Nat)
  | queueStore
  | linkComplex
  deriving DecidableEq, Repr

/-- An agent's attach stops with the outward face there (R25). -/
def Agent.stops : Agent → List (Nat × Face)
  | .desk => [0, 1, 2, 3].map (fun c => (31 * 33 + c, Face.north))
  | .link l => if l < 24 then [(31 * 33 + l + 4, .north)] else [(l - 20, .south)]
  | .sideboard => [28, 29, 30, 31, 32].map (fun c => (31 * 33 + c, Face.north))
  | .eth e => if e < 4 then [(e, .south)] else [(e + 25, .south)]
  | .rackTime => [(28, .south)]
  | .wrdPort p => if p < 16 then [(2 * p * 33, .west)] else [(2 * (p - 16) * 33 + 32, .east)]
  | .linkComplex => (List.range 24).map (fun l => (31 * 33 + l + 4, Face.north)) ++ (List.range 24).map (fun l => (l + 4, Face.south))
  | .queueStore => (List.range 16).flatMap (fun i => [((2 * i + 1) * 33, Face.west), ((2 * i + 1) * 33 + 32, Face.east)])

/-- Whether stop `a` comes before stop `b` in a tie: the lower column, then the lower row (R26). -/
def tieLt (a b : Nat) : Bool := decide (a % 33 < b % 33) || (a % 33 == b % 33 && decide (a / 33 < b / 33))

/-- The attach stop a source uses: the fewest hops (R26). -/
def Agent.attach (g : Agent) (src : Nat) : Nat × Face :=
  g.stops.foldl (fun best x =>
    if hops src x.1 < hops src best.1 ∨ (hops src x.1 = hops src best.1 ∧ tieLt x.1 best.1 = true) then x else best)
    (g.stops.headD (0, .here))

/-- The virtual channel that a message's traffic class selects (Table 01.2, R21). -/
def Msg.vc : Msg → Nat
  | .winWrite .. => 0
  | .shelfData .. | .winAnswer .. => 1
  | .block .. | .token .. | .notice .. | .words .. | .packet .. | .away .. | .stream .. | .tokenOut .. | .reduce .. => 2
  | .sync .. | .release .. | .done .. | .strCredit .. | .winCredit .. => 3

/-- The logical tile by whose number a message is addressed, if one (R22, R86). -/
def Msg.tile? : Msg → Option Nat
  | .winWrite w => some w.tile
  | .winAnswer t _ _ | .block t _ _ _ | .token t _ | .notice t _ _ _ | .words t _ _ _ _ | .strCredit t _ _ _ | .winCredit t _ => some t
  | _ => none

/-- The generation that a RELEASE of a cell carries (R355). -/
def Msg.release? (cell : Nat) : Msg → Option Nat
  | .release c gen => if c = cell then some gen else none
  | _ => none

/-- The logical tile whose Bench sent a message that carries work of a micro-batch away from it (R76). -/
def Msg.from? : Msg → Option Nat
  | .packet _ t _ _ | .away _ _ t _ _ | .stream t _ _ _ | .tokenOut t _ _ | .reduce t _ _ _ => some t
  | _ => none

/-- The output a flit takes at a stop: along the row to the destination's column, then along the column (R22). -/
def Flit.out (f : Flit) (stop : Nat) : Face :=
  if stop % 33 < f.dst % 33 then .east
  else if f.dst % 33 < stop % 33 then .west
  else if stop / 33 < f.dst / 33 then .north
  else if f.dst / 33 < stop / 33 then .south
  else f.exit.getD .here

/-- The key of a stop's input buffer. -/
def bufKey (stop input vc : Nat) : Nat := stop * 32 + input * 4 + vc

/-- The flits in an input buffer, oldest first. -/
def Mesh.at_ (m : Mesh) (stop input vc : Nat) : List Flit := SMap.get m.buf [] (bufKey stop input vc)

/-- Every flit that has been sent and that its receiver has not taken up. -/
def Mesh.flits (m : Mesh) : List Flit := (m.buf.flatMap (·.2)) ++ (m.hold.flatMap (·.2)) ++ m.got.map (·.2)

/-- The neighbouring stop of an output and the input face it arrives by; none where the face leads out of the mesh. -/
def neighbour (stop : Nat) : Face → Option (Nat × Nat)
  | .north => if stop / 33 < 31 then some (stop + 33, 2) else none
  | .south => if 0 < stop / 33 then some (stop - 33, 0) else none
  | .east => if stop % 33 < 32 then some (stop + 1, 3) else none
  | .west => if 0 < stop % 33 then some (stop - 1, 1) else none
  | .here => none

/-! ## Merging (R354, R77) -/

/-- A flit with another merged into it, when both are ARRIVEs for one cell with one tag, or DONE reports of one RUN. -/
def Flit.join (g f : Flit) : Option Flit :=
  match g.msg, f.msg with
  | .sync 0 c x v t l, .sync 0 c' x' v' t' l' =>
    if c = c' ∧ x = x' ∧ v = v' ∧ t = t' then some { g with srcs := g.srcs ++ f.srcs, msg := .sync 0 c x v t (l ++ l') } else none
  | .done r l, .done r' l' => if r = r' then some { g with srcs := g.srcs ++ f.srcs, msg := .done r (l ++ l') } else none
  | _, _ => none

/-- The parts of which a merged flit consists, in the order in which they joined. -/
def Flit.parts (f : Flit) : List Flit :=
  match f.msg with
  | .sync 0 c x v t l => (f.srcs.zip l).map (fun y => { f with srcs := [y.1], msg := .sync 0 c x v t [y.2] })
  | .done r l => (f.srcs.zip l).map (fun y => { f with srcs := [y.1], msg := .done r [y.2] })
  | _ => [f]

/-- A list of waiting flits with `f` merged into the first of them that takes it. -/
def joinIn (f : Flit) : List Flit → Option (List Flit)
  | [] => none
  | g :: t => match g.join f with
    | some h => some (h :: t)
    | none => (joinIn f t).map (g :: ·)

/-- Whether two flits come from one source stop and go to one stop, so that their order holds (R23, R356). -/
def Flit.follows (f g : Flit) : Bool := g.dst == f.dst && f.srcs.any g.srcs.contains

/-- One part enters a stop. It keeps behind what its own source sent to the same stop, in whichever buffer that waits;
otherwise it merges with a flit that waits for the same output, or takes the last place of its input. -/
def Mesh.enter1 (m : Mesh) (stop input : Nat) (f : Flit) : Mesh :=
  let vc := f.msg.vc
  let set := fun (i : Nat) (l : List Flit) => { m with buf := SMap.set m.buf [] (bufKey stop i vc) l }
  match [0, 1, 2, 3, 4].find? (fun i => (m.at_ stop i vc).any f.follows) with
  | some i =>
    let l := m.at_ stop i vc
    let late := (l.reverse.takeWhile (fun g => !(f.follows g))).reverse
    let k := l.length - late.length - 1
    set i (l.take k ++ (joinIn f (l.drop k)).getD (l.drop k ++ [f]))
  | none =>
    match [0, 1, 2, 3, 4].findSome? (fun i => (joinIn f (m.at_ stop i vc)).map (fun l => (i, l))) with
    | some (i, l) => set i l
    | none => set input (m.at_ stop input vc ++ [f])

/-- A flit enters a stop by an input, part by part. -/
def Mesh.enter (m : Mesh) (stop input : Nat) (f : Flit) : Mesh := f.parts.foldl (fun m g => m.enter1 stop input g) m

/-! ## Backpressure (R24) -/

/-- Whether an input buffer has room; its depth is open (log 8). -/
def Mesh.hasRoom (m : Mesh) (stop input vc : Nat) : Bool := decide ((m.at_ stop input vc).length < Config.meshDepth + 1)

/-- A source sends a flit into a stop: it enters, or its source holds it while the stop accepts no more (R24). -/
def Mesh.send (m : Mesh) (stop : Nat) (f : Flit) : Mesh :=
  let k := bufKey stop f.input f.msg.vc
  let held := SMap.get m.hold [] k
  if held.isEmpty && m.hasRoom stop f.input f.msg.vc then m.enter stop f.input f else { m with hold := SMap.set m.hold [] k (held ++ [f]) }

/-- The sources at an input of a stop send what they hold, as far as there is room. -/
def Mesh.refill : Nat → Mesh → Nat → Nat → Nat → Mesh
  | 0, m, _, _, _ => m
  | n + 1, m, stop, input, vc =>
    match SMap.get m.hold [] (bufKey stop input vc) with
    | [] => m
    | f :: rest =>
      if m.hasRoom stop input vc then
        Mesh.refill n ({ m with hold := SMap.set m.hold [] (bufKey stop input vc) rest }.enter stop input f) stop input vc
      else m

/-- What every source at a stop holds goes in, as far as there is room. -/
def Mesh.refillAll (m : Mesh) (stop vc : Nat) : Mesh :=
  [0, 1, 2, 3, 4].foldl (fun m i => Mesh.refill (SMap.get m.hold [] (bufKey stop i vc)).length m stop i vc) m

/-- A flit without the requesters that `p` picks out of a sync operation; nothing if none is left. -/
def Flit.without (p : Nat × Nat → Bool) (f : Flit) : Option Flit :=
  match f.msg with
  | .sync o c x v t l =>
    let keep := (f.srcs.zip l).filter (fun y => !(p y.2))
    if keep.isEmpty then none else some { f with srcs := keep.map (·.1), msg := .sync o c x v t (keep.map (·.2)) }
  | _ => some f

/-- The sync operations of the requesters that `p` picks out are no longer on the mesh. -/
def Mesh.withdraw (m : Mesh) (p : Nat × Nat → Bool) : Mesh :=
  let thin := fun (b : SMap (List Flit)) => (b.map (fun e => (e.1, e.2.filterMap (Flit.without p)))).filter (fun e => !e.2.isEmpty)
  { m with buf := thin m.buf, hold := thin m.hold, got := m.got.filterMap (fun e => (e.2.without p).map (fun f => (e.1, f))) }

/-- Only the messages that `p` picks out stay on the mesh; the arbiters stand where they stood. -/
def Mesh.keep (m : Mesh) (p : Msg → Bool) : Mesh :=
  let thin := fun (b : SMap (List Flit)) => (b.map (fun e => (e.1, e.2.filter (fun f => p f.msg)))).filter (fun e => !e.2.isEmpty)
  { m with buf := thin m.buf, hold := thin m.hold, got := m.got.filter (fun e => p e.2.msg) }

/-- Every message on the mesh is changed in place. -/
def Mesh.mapMsg (m : Mesh) (g : Msg → Msg) : Mesh :=
  let on := fun (f : Flit) => { f with msg := g f.msg }
  { m with buf := m.buf.map (fun e => (e.1, e.2.map on)), hold := m.hold.map (fun e => (e.1, e.2.map on)), got := m.got.map (fun e => (e.1, on e.2)) }

/-! ## Sending (R22, R25, R26) -/

/-- A Bench sends a message to a stop. -/
def State.toStop (s : State) (p dst : Nat) (g : Msg) : State :=
  { s with mesh := s.mesh.send p { srcs := [p], input := 4, dst := dst, msg := g } }

/-- A Bench sends a message to an edge agent, by the attach stop with the fewest hops (R26). -/
def State.toAgent (s : State) (p : Nat) (a : Agent) (g : Msg) : State :=
  let x := a.attach p
  { s with mesh := s.mesh.send p { srcs := [p], input := 4, dst := x.1, exit := some x.2, msg := g } }

/-- An edge agent sends a message to a stop, by its attach stop with the fewest hops (R25; log 62). -/
def State.fromAgent (s : State) (a : Agent) (dst : Nat) (g : Msg) : State :=
  let x := a.attach dst
  { s with mesh := s.mesh.send x.1 { srcs := [x.1], input := faceNum x.2, dst := dst, msg := g } }

/-- The oldest message that a stop has delivered and that `p` picks out. -/
def State.arrived (s : State) (p : Nat → Msg → Bool) : Option (Nat × Flit) := s.mesh.got.find? (fun x => p x.1 x.2.msg)

/-- Its receiver takes a delivered message up. -/
def State.takeUp (s : State) (x : Nat × Flit) : State := { s with mesh := { s.mesh with got := s.mesh.got.erase x } }

/-- Whether a message that `p` picks out is on the mesh or has not been taken up. -/
def State.onMesh (s : State) (p : Msg → Bool) : Bool := s.mesh.flits.any (fun f => p f.msg)

/-! ## Arbitration (R24) -/

/-- The head flit of an input on a virtual channel that wants an output. -/
def Mesh.head (m : Mesh) (stop vc : Nat) (out : Face) (input : Nat) : Option Flit :=
  match m.at_ stop input vc with
  | f :: _ => if f.out stop = out then some f else none
  | [] => none

/-- Whether the output may take a flit of a virtual channel: its downstream buffer has room. -/
def Mesh.room (m : Mesh) (stop vc : Nat) (out : Face) : Bool :=
  match neighbour stop out with
  | none => true
  | some (n, face) => m.hasRoom n face vc

/-- The input that an output serves next on a virtual channel, round-robin. -/
def Mesh.pick (m : Mesh) (stop vc : Nat) (out : Face) : Option Nat :=
  if m.room stop vc out then
    let last := SMap.get m.rrIn 4 (stop * 32 + faceNum out * 4 + vc)
    ([1, 2, 3, 4, 5].map (fun i => (last + i) % 5)).find? (fun i => (m.head stop vc out i).isSome)
  else none

/-- The virtual channel that an output serves next: VC3 first, else VC0 to VC2 round-robin. -/
def Mesh.pickVc (m : Mesh) (stop : Nat) (out : Face) : Option (Nat × Nat) :=
  match m.pick stop 3 out with
  | some i => some (3, i)
  | none =>
    let last := SMap.get m.rrVc 2 (stop * 8 + faceNum out)
    ([1, 2, 3].map (fun i => (last + i) % 3)).findSome? (fun v => (m.pick stop v out).map (fun i => (v, i)))

/-- The stops to which a release that stands at a stop goes on: the tree spans the cell's row, and from it every
column (R355; log 61). -/
def releaseNext (root stop : Nat) : List Nat :=
  let col := fun (x : Nat) => (if root / 33 ≤ x / 33 then (neighbour x .north).toList else []) ++ (if x / 33 ≤ root / 33 then (neighbour x .south).toList else [])
  let row := fun (x : Nat) => (if root % 33 ≤ x % 33 then (neighbour x .east).toList else []) ++ (if x % 33 ≤ root % 33 then (neighbour x .west).toList else [])
  ((if stop / 33 = root / 33 then row stop else []) ++ col stop).map (·.1)

/-- The output serves one flit (R22, R24): it moves on to the neighbour, or it is delivered and the answer holds it. -/
def Mesh.serve (m : Mesh) (stop : Nat) (out : Face) : Mesh × Option Flit :=
  match m.pickVc stop out with
  | none => (m, none)
  | some (vc, i) =>
    match m.at_ stop i vc with
    | [] => (m, none)
    | f :: rest =>
      let m1 : Mesh := { m with
        buf := SMap.set m.buf [] (bufKey stop i vc) rest
        rrIn := SMap.set m.rrIn 4 (stop * 32 + faceNum out * 4 + vc) i
        rrVc := if vc = 3 then m.rrVc else SMap.set m.rrVc 2 (stop * 8 + faceNum out) vc }
      match neighbour stop out with
      | some (n, face) => ((m1.refillAll stop vc).enter n face f, none)
      | none => (m1.refillAll stop vc, some f)

end Sys2Proof.Machine
end

