-- ==== Sys2Proof/Machine/Sync.lean ====
section
/-! DEFINITION. Sync objects: cells, operations, translation, slots, waits and operations between dies (chapter 12). -/

namespace Sys2Proof.Machine

/-! ## Translation -/

/-- The valid cell with a physical context and a virtual ID (R350). -/
def State.findCell (s : State) (ctx vid : Nat) : Option Nat :=
  (List.find? (fun (x : Nat × Cell) => x.2.valid && x.2.ctx == ctx && x.2.vid == vid) s.cells).map (·.1)

/-- The physical context of an image context of image `i` (0 resident, 1 staged; R351). -/
def State.physCtx (s : State) (i k : Nat) : Nat := bits (s.word (SYN_IMAGE_CTX.reg i)).toNat (4 * (k % 16)) 4

/-- Whether a board die index is this die's own. -/
def State.ownDie (s : State) (d : Nat) : Bool := d == s.get WRD_BOARD.DIE

/-- The coordinates of a board die, if its entry is valid (R205). -/
def State.dieCoord (s : State) (d : Nat) : Option Nat :=
  if s.on (WRD_DIE_COORD.VALID d) then some (fget (s.word (WRD_DIE_COORD.reg d)) 14 0) else none

/-! ## Records -/

/-- DETAIL of a sync record (Table 12.7). -/
def syncDetail (c : Cell) (known : Bool) (reason req : Nat) : Nat :=
  (if known then c.vid + c.ctx * 2 ^ 16 + b2n c.barrier * 2 ^ 23 else 0) + reason * 2 ^ 24 + req * 2 ^ 32 +
    (if known then c.count * 2 ^ 48 + c.next * 2 ^ 64 + c.last * 2 ^ 80 + c.gen * 2 ^ 96 + c.n * 2 ^ 112 else 0)

/-- The event bit of a reason (SYN_EVENT): TIMEOUT, UNDERFLOW, UNKNOWN, and GEN_ERROR for the rest. -/
def syncBit (reason : Nat) : Nat := if reason = 1 then 0 else if reason = 2 then 1 else if reason = 6 then 3 else 2

/-- A sync error: its flag, its count and its record (R342, R345, R350, R359). -/
def State.syncErr (s : State) (cell : Option Nat) (reason req tag : Nat) : State :=
  let b := syncBit reason
  let s1 := s.put ⟨SYN_EVENT.reg, b, b⟩ 1
  let s2 := s1.incSat (if b = 0 then SYN_ERR_COUNT.TIMEOUTS else if b = 1 then SYN_ERR_COUNT.UNDERFLOWS
                       else if b = 3 then SYN_ERR_COUNT.UNKNOWN else SYN_ERR_COUNT.GEN_ERRORS)
  let c := (cell.map s.cell).getD {}
  s2.raise tag { unit := unitId 6 (cell.getD 0xFFF), cls := 1, reason := 0x0B00 + b,
                 ctx := if cell.isSome then 0x80 + c.ctx else 0, detail := syncDetail c cell.isSome reason req }

/-- OP_TAG of a sync requester (R340): a Bench's RUN, a Desk core, or a BCT channel's command. -/
def State.reqTag (s : State) (req : Nat) : Nat :=
  if req / 2 ^ 14 = 0 then s.runTag else if req / 2 ^ 14 = 1 then deskTag else 0

/-! ## Cells -/

/-- A release of a BARRIER: GEN advances and COUNT takes NEXT (R343). -/
def Cell.release (c : Cell) : Cell :=
  { c with gen := (c.gen + 1) % 65536, count := c.next, next := 0, waiters := 0, remote := 0, names := [] }

/-- What arrivals at a cell come to: the cell after them, the releases they cause, how many are accepted, and the reason
of Table 12.7 for which the rest are rejected. -/
structure Arrival where
  cell  : Cell
  rels  : Nat
  taken : Nat
  why   : Nat

/-- `k` ARRIVEs with one tag (Tables 12.2 and 12.3, R343, R354). -/
def Cell.arrive (c : Cell) (tag k req : Nat) : Arrival :=
  if !c.barrier then
    if c.count = 0 then
      ⟨{ c with count := 1, gen := (c.gen + 1) % 65536, last := req, waiters := 0, remote := 0, names := [],
                setLost := min 65535 (c.setLost + (k - 1)) }, 1, k, 0⟩
    else ⟨{ c with last := req, setLost := min 65535 (c.setLost + k) }, 0, k, 0⟩
  else
    let d := (tag + 4 - c.gen % 4) % 4
    if d = 0 then
      let n := min k (c.n - c.count)
      let c1 := { c with count := c.count + n, last := if n = 0 then c.last else req }
      if c1.count = c1.n then
        let c2 := c1.release
        if c2.count = c2.n then ⟨c2.release, 2, n, 5⟩ else ⟨c2, 1, n, 5⟩
      else ⟨c1, 0, n, 5⟩
    else if d = 1 then
      let n := min k (c.n - c.next)
      ⟨{ c with next := c.next + n, last := if n = 0 then c.last else req }, 0, n, 5⟩
    else ⟨c, 0, 0, if d = 2 then 3 else 4⟩

/-- Whether a WAIT passes on a cell (Table 12.2, R344). -/
def Cell.passes (c : Cell) (tag : Nat) : Bool :=
  if c.barrier then decide (2 ≤ (tag + 4 - c.gen % 4) % 4) else c.count == 1

/-- A CLEAR: the cell after it, or the reason for which it is rejected (Table 12.2, R345). -/
def Cell.clear (c : Cell) (req : Nat) : Cell × Option Nat :=
  if c.barrier then (c, some 7)
  else if c.count = 0 then (c, some 2)
  else ({ c with count := 0, last := req }, none)

/-- Whether a cell holds the object of a key (R345). -/
def Cell.holds (c : Cell) (ctx vid : Nat) : Bool := c.valid && c.ctx == ctx && c.vid == vid

/-- A cell cleared with its key kept (R353). -/
def Cell.wipe (c : Cell) : Cell :=
  { valid := c.valid, ctx := c.ctx, vid := c.vid, barrier := c.barrier, n := c.n }

/-- The body of a sync message (Table 12.6). -/
def State.syncBody (s : State) (m : SyncMsg) : List Byte :=
  [BitVec.ofNat 8 m.op, BitVec.ofNat 8 m.tag, BitVec.ofNat 8 (b2n m.phys * 128 + m.ctx), 0] ++ leBytes 2 m.vid ++
    leBytes 2 m.count ++ leBytes 2 m.req ++ leBytes 2 m.cell ++ leBytes 2 m.gen ++ [BitVec.ofNat 8 m.reason, 0] ++
    leBytes 8 s.compact ++ List.replicate 8 0

/-- Sends a sync message to coordinates (R333, R357). -/
def State.syncSend (s : State) (dst : Nat) (m : SyncMsg) : State :=
  s.flpOr (unitId 6 0xFFF) 0 dst 0x20 [0] (s.syncBody m)

/-- A cell sends its release: down the tree, which starts at its own stop, and to every die with a wait (R355). -/
def State.sendRelease (s : State) (cell gen : Nat) (c : Cell) : State :=
  let s1 := s.toStop (cellStop cell) (cellStop cell) (.release cell gen)
  c.names.foldl (fun s x => match s.dieCoord x.1 with
    | some d => s.syncSend d { op := 5, tag := 0, phys := x.2.1, ctx := x.2.2, vid := c.vid, count := 1, req := 0,
                               cell := cell, gen := gen, reason := 0, flag := !c.barrier }
    | none => s) s1

/-! ## Slots -/

/-- The slot number of a channel's SYNC command; 0 to 8 are the SYN_OP slots. -/
def chanSlot (ch : Nat) : Nat := 1000 + ch

/-- The edge agent that issues a requester's slot operations (R340; log 62). -/
def slotAgent (req : Nat) : Agent := if req % 1024 = 0x3FF ∧ req / 2 ^ 14 = 2 then .rackTime else .desk

/-- The queued operations of a slot, oldest first. -/
def State.slot (s : State) (n : Nat) : List SlotOp := SMap.get s.slots [] n

/-- The state with a slot's queue, shown in SYN_OP_STATUS. -/
def State.setSlot (s : State) (n : Nat) (l : List SlotOp) : State :=
  let s1 := { s with slots := SMap.set s.slots [] n l }
  if n ≤ 8 then s1.put (SYN_OP_STATUS.DEPTH n) l.length else s1

/-- The oldest operation of a slot completes with a result (SYN_OP_STATUS; R385 for a SYNC command). -/
def State.slotResult (s : State) (n result gen : Nat) : State :=
  let s1 := s.setSlot n ((s.slot n).drop 1)
  if n ≤ 8 then
    ((s1.incMod (SYN_OP_STATUS.COMPLETED n)).put (SYN_OP_STATUS.HEAD n) 0).put (SYN_OP_STATUS.RESULT n) result
  else if n < 1000 then s1
  else
    match s.hst.recs.find? (fun r => r.ch == n - 1000 && r.st == 2 && r.op == 0x28) with
    | some r => s1.finish r.ch r.seq (if result = 1 then 0 else if result = 2 then 0x38 else if result = 4 ∨ result = 5 then 0x30
                                      else 0x39) gen
    | none => s1

/-- Issues a slot's oldest operation: a miss or an unreachable die ends it with ERROR; an operation for a cell of this
die travels to it; one for another die goes out as a message (R349, R350, R357). -/
def State.slotIssue : Nat → State → Nat → State
  | 0, s, _ => s
  | f + 1, s, n =>
    match s.slot n with
    | [] => s
    | o :: _ =>
      let head := fun (s : State) (h : Nat) => if n ≤ 8 then s.put (SYN_OP_STATUS.HEAD n) h else s
      if o.remote && !(s.ownDie o.die) then
        match s.dieCoord o.die with
        | none => State.slotIssue f ((s.syncErr none 6 o.req (s.reqTag o.req)).slotResult n 3 0) n
        | some c =>
          let s1 := s.syncSend c { op := o.op, tag := o.tag, phys := o.phys, ctx := o.ctx, vid := o.vid, count := 1,
                                   req := o.req, cell := 0, gen := 0, reason := 0, flag := false }
          if o.op = 1 ∨ o.op = 2 then
            head { s1 with waits := s1.waits ++ [{ req := o.req, on := .far o.die o.phys o.ctx o.vid, tag := o.tag, stamp := s.now,
                                                   slot := n, stop := ((slotAgent o.req).attach 0).1, op := o.op }] } 1
          else State.slotIssue f (s1.slotResult n 1 0) n
      else
        let ctx := if o.remote && !o.phys then s.physCtx 0 o.ctx else o.ctx
        match s.findCell ctx o.vid with
        | none => State.slotIssue f ((s.syncErr none 6 o.req (s.reqTag o.req)).slotResult n 3 0) n
        | some cell =>
          let s1 := if o.op = 1 ∨ o.op = 2 then
              { s with waits := s.waits ++ [{ req := o.req, on := .cell cell, tag := o.tag, stamp := s.now, slot := n,
                                              stop := ((slotAgent o.req).attach (cellStop cell)).1, op := o.op }] }
            else s
          head (s1.fromAgent (slotAgent o.req) (cellStop cell) (.sync o.op cell ctx o.vid o.tag [(o.req, n)])) 1

/-- A slot's oldest operation completes, and the next is issued. -/
def State.slotDone (s : State) (n result gen : Nat) : State := State.slotIssue 17 (s.slotResult n result gen) n

/-- Ends the operation of a requester's slot that has reached its cell; a Bench has none. -/
def State.slotEnd (s : State) (r : Nat × Nat) (result gen : Nat) : State := if r.2 = 9 then s else s.slotDone r.2 result gen

/-! ## Waiters -/

/-- The key of a sync object in a Bench's A and W counters (R346). -/
def objKey (remote : Bool) (die ctx vid : Nat) : Nat := b2n remote * 2 ^ 32 + die * 2 ^ 24 + ctx * 2 ^ 16 + vid

/-- A Bench's WAIT passes: its W counter advances and its engine goes on, at once or in its wake slot (R346, R358). -/
def State.benchPass (s : State) (tile key : Nat) : State :=
  match s.phys tile with
  | none => s
  | some p =>
    let w := (s.bench p).waiting.isSome
    (if w then s.put (BEN_DMA_STATUS.STATE p) 2 else s).modBench p (fun b => { b with
      tagW := SMap.set b.tagW 0 key ((SMap.get b.tagW 0 key + 1) % 4), waiting := none, started := b.started || w,
      asking := b.asking || b.lending })

/-- A waiter's WAIT passes. -/
def State.passWaiter (s : State) (w : Waiter) (gen : Nat) : State :=
  let s1 := { s with waits := s.waits.erase w }
  if w.slot = 9 then s1.benchPass (w.req % 1024) w.key else s1.slotDone w.slot 1 gen

/-! ## Operations at a cell -/

/-- The operation that a cell accepts next: the oldest that the mesh has delivered for it (R341, R361). -/
def State.nextOp (s : State) (cell : Nat) : Option (Nat × Flit) :=
  s.arrived (fun _ g => match g with | .sync _ c _ _ _ _ => c == cell | _ => false)

/-- The cell accepts the operation that a row names, if that is the next: the key and the requesters it carries. -/
def State.accept (s : State) (op cell tag count req : Nat) : Option (State × Nat × Nat × List (Nat × Nat)) :=
  (s.nextOp cell).bind (fun x => match x.2.msg with
    | .sync o _ ctx vid t l =>
      if o = op ∧ t = tag ∧ l.length = count ∧ (l.getLast?.map (·.1)) = some req then some (s.takeUp x, ctx, vid, l) else none
    | _ => none)

/-- Raises the error of each of `n` operations of one message. -/
def State.syncErrs (s : State) (cell : Option Nat) (reason req n : Nat) : State :=
  (List.range n).foldl (fun s _ => s.syncErr cell reason req (s.reqTag req)) s

/-- `k` ARRIVEs of a message reach a cell, with the releases they cause; the answer says how many are accepted (R341 to
R343, R354, R355). -/
def State.arriveCell (s : State) (cell tag k req : Nat) : State × Nat :=
  let c := s.cell cell
  let a := c.arrive tag k req
  let s1 := s.setCell cell a.cell
  let s2 := if a.rels = 0 then s1 else s1.sendRelease cell ((c.gen + 1) % 65536) c
  let s3 := if a.rels = 2 then s2.sendRelease cell a.cell.gen { a.cell with names := [] } else s2
  (s3.syncErrs (some cell) a.why req (k - a.taken), a.taken)

/-- The requesters of a message reach a cell with their ARRIVEs; one whose key does not match misses (R345, R350). -/
def State.arriveAt (s : State) (cell ctx vid tag : Nat) (l : List (Nat × Nat)) : State × Nat :=
  if (s.cell cell).holds ctx vid then s.arriveCell cell tag l.length ((l.getLast?.map (·.1)).getD 0)
  else (l.foldl (fun s r => s.syncErr none 6 r.1 (s.reqTag r.1)) s, 0)

/-- ARRIVE (R342, R354). -/
def execArrive (cell tag count req : Nat) (s : State) : Out :=
  act s fun s =>
    match s.accept 0 cell tag count req with
    | none => s
    | some (s0, ctx, vid, l) =>
      let (s1, n) := s0.arriveAt cell ctx vid (tag % 4) l
      (l.zipIdx).foldl (fun s x => s.slotEnd x.1 (if x.2 < n then 1 else 3) ((s.cell cell).gen)) s1

/-- The waiter of a WAIT that is on its way to a cell, if it has not been withdrawn (R359). -/
def State.waiterOf (s : State) (cell tag : Nat) (r : Nat × Nat) : Option Waiter :=
  s.waits.find? (fun w => w.on == .cell cell && w.req == r.1 && w.slot == r.2 && w.tag == tag && !w.placed)

/-- A waiter's entry takes another value. -/
def State.setWaiter (s : State) (w x : Waiter) : State := { s with waits := s.waits.map (fun y => if y = w then x else y) }

/-- A WAIT at a cell of this die: it passes, it is registered, or it misses (R344, R350, R355). -/
def State.waitAt (s : State) (cell ctx vid tag : Nat) (r : Nat × Nat) : State :=
  match s.waiterOf cell tag r with
  | none => s
  | some w =>
    let c := s.cell cell
    if !(c.holds ctx vid) then
      let s1 := s.syncErr none 6 r.1 (s.reqTag r.1)
      if r.2 = 9 then s1.setWaiter w { w with on := .nothing } else ({ s1 with waits := s1.waits.erase w } : State).slotEnd r 3 0
    else if c.passes (tag % 4) then s.passWaiter w c.gen
    else
      let s1 := (s.setCell cell { c with waiters := c.waiters + 1 }).setWaiter w { w with placed := true }
      if r.2 ≤ 8 then s1.put (SYN_OP_STATUS.HEAD r.2) 2 else s1

/-- WAIT (R341, R344). -/
def execWait (cell tag req : Nat) (s : State) : Out :=
  act s fun s =>
    match s.accept 1 cell tag 1 req with
    | some (s1, ctx, vid, r :: _) => s1.waitAt cell ctx vid tag r
    | _ => s

/-- ARRIVE_WAIT (R341): both are applied in one step; after an ARRIVE that is rejected or misses, a slot performs no WAIT
(R349). A WAIT that its timeout has withdrawn is not performed (R359). -/
def execArriveWait (cell tag req : Nat) (s : State) : Out :=
  act s fun s =>
    match s.accept 2 cell tag 1 req with
    | some (s0, ctx, vid, r :: _) =>
      let (s1, n) := s0.arriveAt cell ctx vid (tag % 4) [r]
      match s1.waiterOf cell tag r with
      | none => s1
      | some w =>
        if n = 0 then ({ s1 with waits := s1.waits.erase w } : State).slotEnd r 3 ((s1.cell cell).gen)
        else if (s1.cell cell).barrier then s1.waitAt cell ctx vid tag r
        else s1.passWaiter w ((s1.cell cell).gen)
    | _ => s

/-- A CLEAR at a cell of this die (R341, R345). -/
def State.clearCell (s : State) (cell req : Nat) : State × Option Nat :=
  match (s.cell cell).clear req with
  | (c1, none) => (s.setCell cell c1, none)
  | (_, some r) => (s.syncErr (some cell) r req (s.reqTag req), some r)

/-- CLEAR (R341, R345). -/
def execClear (cell req : Nat) (s : State) : Out :=
  act s fun s =>
    match s.nextOp cell with
    | some (_, { msg := .sync _ _ _ _ tag _, .. }) =>
      match s.accept 3 cell tag 1 req with
      | some (s0, ctx, vid, r :: _) =>
        if (s0.cell cell).holds ctx vid then
          let (s1, rej) := s0.clearCell cell req
          s1.slotEnd r (if rej.isSome then 3 else 1) ((s1.cell cell).gen)
        else (s0.syncErr none 6 req (s0.reqTag req)).slotEnd r 3 0
      | _ => s
    | _ => s

/-- Whether a waiter judges that its WAIT passes at a release (R344, R355). -/
def Waiter.judges (w : Waiter) (flag : Bool) (gen : Nat) : Bool := flag || decide (2 ≤ (w.tag + 4 - gen % 4) % 4)

/-- SYNC_RELEASE (R355): the oldest RELEASE of a cell that has reached a stop is taken up, and every waiter there on the cell
judges its WAIT. -/
def execSyncRelease (stop cell : Nat) (s : State) : Out :=
  act s fun s =>
    match s.arrived (fun st g => st == stop && (g.release? cell).isSome) with
    | none => s
    | some x =>
      let gen := (x.2.msg.release? cell).getD 0
      let s1 := s.takeUp x
      (s1.waits.filter (fun w => w.on == .cell cell && w.placed && w.stop == stop && w.judges (!(s.cell cell).barrier) gen)).foldl
        (fun s w => s.passWaiter w gen) s1

/-- REMOTE_SYNC_OP (R357): translated here, applied, and answered. `src` is the requester's die. -/
def execRemoteSyncOp (src : Nat) (m : SyncMsg) (s : State) : Out :=
  act s fun s =>
    let ctx := if m.phys then m.ctx else s.physCtx 0 m.ctx
    let reply := fun (s : State) (op cell gen reason : Nat) =>
      match s.dieCoord src with
      | some c => s.syncSend c { op := op, tag := m.tag, phys := m.phys, ctx := m.ctx, vid := m.vid, count := 1, req := m.req,
                                 cell := cell, gen := gen, reason := reason, flag := false }
      | none => s
    if 4 ≤ m.op then s
    else
      match s.findCell ctx m.vid with
      | none => reply (s.syncErr none 6 m.req 0) 6 0 0 6
      | some cell =>
        let waitPart := fun (s : State) =>
          let c := s.cell cell
          if c.passes (m.tag % 4) || (m.op == 2 && !c.barrier) then reply s 4 cell c.gen 0
          else s.setCell cell { c with remote := if bit c.remote src then c.remote else c.remote + 2 ^ src
                                       names := if c.names.contains (src, m.phys, m.ctx) then c.names else c.names ++ [(src, m.phys, m.ctx)] }
        if m.op = 1 then waitPart s
        else if m.op = 3 then
          let (s1, rej) := s.clearCell cell m.req
          match rej with
          | some r => reply s1 6 cell ((s1.cell cell).gen) r
          | none => s1
        else
          let k := if m.op = 0 then max 1 m.count else 1
          let (s1, n) := s.arriveCell cell (m.tag % 4) k m.req
          if n < k then reply s1 6 cell ((s1.cell cell).gen) (((s.cell cell).arrive (m.tag % 4) k m.req).why)
          else if m.op = 2 then waitPart s1 else s1

/-- Whether a waiter waits on the object of another die that an answer names (R357; log 61). -/
def Waiter.named (w : Waiter) (src : Nat) (m : SyncMsg) : Bool := w.on == .far src m.phys m.ctx m.vid

/-- SYNC_ANSWER (R357): PASS and RELEASE pass the waits they answer; ERROR ends a slot's operation, and leaves a Bench's
WAIT unresolved (R350). -/
def execSyncAnswer (src : Nat) (m : SyncMsg) (s : State) : Out :=
  act s fun s =>
    if m.op = 4 then
      match s.waits.find? (fun w => w.named src m && w.req == m.req && w.tag % 4 == m.tag % 4) with
      | some w => s.passWaiter w m.gen
      | none => s
    else if m.op = 5 then
      (s.waits.filter (fun w => w.named src m && w.judges m.flag m.gen)).foldl (fun s w => s.passWaiter w m.gen) s
    else if m.op = 6 then
      match s.waits.find? (fun w => w.named src m && w.req == m.req && (m.reason == 6 || w.op == 2)) with
      | some w =>
        if w.slot = 9 then s.setWaiter w { w with on := .nothing }
        else ({ s with waits := s.waits.erase w } : State).slotDone w.slot 3 m.gen
      | none => s
    else s

/-- The cell of this die that a waiter waits on. -/
def Waiter.cell (w : Waiter) : Option Nat :=
  match w.on with
  | .cell c => some c
  | _ => none

/-- SYNC_WAIT_TIMEOUT (R359), counted from the WAIT's issue. -/
def execSyncWaitTimeout (req : Nat) (s : State) : Out :=
  act s fun s =>
    match s.waits.find? (fun w => w.req == req && !w.told && decide (w.stamp + s.get SYN_TIMEOUT.TICKS ≤ s.now)) with
    | none => s
    | some w =>
      let s1 := s.syncErr w.cell 1 req (s.reqTag req)
      if w.slot = 9 then s1.setWaiter w { w with told := true }
      else
        let s2 := { s1 with waits := s1.waits.erase w }
        let s3 := match w.cell with
          | some c => if w.placed then s2.modCell c (fun x => { x with waiters := x.waiters - 1 }) else s2
          | none => s2
        s3.slotDone w.slot 2 ((w.cell.map (fun c => (s.cell c).gen)).getD 0)

/-! ## Clears of contexts -/

/-- The slots whose oldest operation is pending on a cell that `hit` selects: on its way to it, or registered there. -/
def State.slotsOn (s : State) (hit : Nat → Bool) : List Nat :=
  ((s.waits.filterMap (fun w => if w.slot ≠ 9 ∧ (w.cell.any hit) = true then some w.slot else none)) ++
   s.mesh.flits.flatMap (fun f => match f.msg with
     | .sync _ c _ _ _ l => if hit c then (l.filter (fun r => r.2 != 9)).map (·.2) else []
     | _ => [])).eraseDups

/-- The operations of the given slots are over: none of them is on its way or registered, and each completes with a
result (R352, R353). -/
def State.endSlots (s : State) (l : List Nat) (result : Nat) : State :=
  let s1 := { s with waits := s.waits.filter (fun w => !(l.contains w.slot)), mesh := s.mesh.withdraw (fun r => l.contains r.2) }
  l.foldl (fun s n => s.slotDone n result 0) s1

/-- Every Bench's A and W counters at zero, for the objects that `hit` selects (R346). -/
def State.zeroTags (s : State) (hit : Nat → Bool) : State :=
  let zero := fun (b : Bench) =>
    ({ b with tagA := b.tagA.filter (fun e => !(hit e.1)), tagW := b.tagW.filter (fun e => !(hit e.1)) } : Bench)
  { s with benches := (List.map (fun (x : Nat × Bench) => (x.1, zero x.2)) s.benches).filter (fun x => x.2 != {}) }

/-- Clears the cells of the contexts in `cs`, keeping their keys, with the counters of their objects (R353, R362). -/
def State.wipeCells (s : State) (cs : List Nat) : State :=
  let s1 := s.zeroTags (fun k => k < 2 ^ 32 && cs.contains (k / 2 ^ 16 % 16))
  { s1 with cells := (s1.cells.map (fun (x : Nat × Cell) => (x.1, if cs.contains x.2.ctx then x.2.wipe else x.2))).filter (fun x => x.2 != {}) }

/-- The cells that hold an object of the contexts in `cs`. -/
def State.inCtx (s : State) (cs : List Nat) (c : Nat) : Bool := (s.cell c).valid && cs.contains (s.cell c).ctx

/-- The contexts that an image owns (1 resident, 2 staged). -/
def State.ctxOf (s : State) (owner : Nat) : List Nat :=
  (List.range 16).filter (fun x => s.get (SYN_CTX_STATE.OWNER x) == owner)

/-- A context is switched out: its cells and its key are freed, and what is pending on them completes CLEARED (R352). -/
def State.switchOut (s : State) (owner : Nat) : State :=
  let cs := s.ctxOf owner
  let s1 := { s with cells := s.cells.filter (fun (x : Nat × Cell) => !(cs.contains x.2.ctx)) }
  (cs.foldl (fun s x => (s.put (SYN_CTX_STATE.OWNER x) 0).put (SYN_CTX_STATE.CELLS x) 0) s1).endSlots (s.slotsOn (s.inCtx cs)) 4

/-- A write of SYN_CTX_STATE.CLEAR (R353); one that is refused raises the record of R483. -/
def State.ctxClear (s : State) (iss : Issuer) (x : Nat) : State :=
  if x < 16 then
    if s.on FAB_STATUS.IDLE then (s.wipeCells [x]).endSlots (s.slotsOn (s.inCtx [x])) 4
    else (s.setF SYN_EVENT.REFUSED).regRefusal iss (SYN_CTX_STATE.reg x)
  else s

/-- SYN_CTX_CLEAR (R353). -/
def execSynCtxClear (iss : Issuer) (x : Nat) (s : State) : Out := act s fun s => s.ctxClear iss x

/-- Captures a cell into the debug registers. -/
def State.dbgCapture (s : State) (cell : Nat) : State :=
  let c := s.cell cell
  ((s.setWord SYN_DBG_KEY.reg (BitVec.ofNat 64 (b2n c.valid * 2 ^ 63 + b2n c.barrier * 2 ^ 48 + c.n * 2 ^ 32 + c.ctx * 2 ^ 16 + c.vid))).setWord
    SYN_DBG_STATE.reg (BitVec.ofNat 64 (c.gen * 2 ^ 48 + c.waiters * 2 ^ 32 + c.next * 2 ^ 16 + c.count))).setWord
    SYN_DBG_LAST.reg (BitVec.ofNat 64 (c.setLost * 2 ^ 48 + c.remote * 2 ^ 32 + c.last))

/-- SYN_DBG_SEL_WRITE (SYN_DBG_SEL, R338). -/
def execSynDbgSelWrite (_iss : Issuer) (cell : Nat) (s : State) : Out :=
  act s fun s => (s.put SYN_DBG_SEL.CELL cell).dbgCapture (cell % 4096)

/-- A write of SYN_DBG_FIND (R350). -/
def State.dbgFind (s : State) (ctx vid : Nat) : State :=
  match s.findCell (ctx % 16) (vid % 65536) with
  | some c => ((s.put SYN_DBG_SEL.MISS 0).put SYN_DBG_SEL.CELL c).dbgCapture c
  | none => s.put SYN_DBG_SEL.MISS 1

/-- SYN_DBG_FIND (R350). -/
def execSynDbgFind (_iss : Issuer) (ctx vid : Nat) (s : State) : Out := act s fun s => s.dbgFind ctx vid

/-- The requester of a SYN_OP write (R340). -/
def State.opReq (s : State) (iss : Issuer) : Nat :=
  let die := s.get WRD_BOARD.DIE * 1024
  match iss with
  | .desk c => 2 ^ 14 + die + c
  | .bct ch _ => 2 ^ 15 + die + ch
  | .i3c => 2 ^ 15 + die + 0x3FF
  | .die _ => 2 ^ 15 + die + 0x3FF

/-- Queues a sync operation in a slot and issues it when the slot was empty (R349). -/
def State.slotPush (s : State) (n : Nat) (o : SlotOp) : State :=
  let q := s.slot n
  let s1 := s.setSlot n (q ++ [o])
  if q.isEmpty then State.slotIssue 17 s1 n else s1

/-- A write to SYN_OP[slot] (R349, R482). Slot s serves Desk core s; slot 8 serves BCT and I3C. -/
def State.synOp (s : State) (iss : Issuer) (slot : Nat) (v : Word) : State :=
  let w := v.toNat
  if slot ≤ 8 then
    if 4 ≤ w % 8 then (s.put (SYN_OP_STATUS.RESULT slot) 6).regRefusal iss (SYN_OP.reg slot)
    else if 16 ≤ (s.slot slot).length then (s.setF SYN_EVENT.OP_FULL).put (SYN_OP_STATUS.RESULT slot) 6
    else s.slotPush slot { op := w % 8, tag := bits w 32 2, ctx := bits w 36 4, phys := bit w 34, remote := bit w 35,
                           die := bits w 40 4, vid := bits w 48 16, req := s.opReq iss }
  else s

/-- SYN_OP_WRITE (R349). -/
def execSynOpWrite (iss : Issuer) (slot : Nat) (v : Word) (s : State) : Out := act s fun s => s.synOp iss slot v

/-- BCT_SYNC (R385): the SYNC command's operation, with requester kind 2. -/
def execBctSync (ch : Nat) (s : State) : Out :=
  act s fun s => s.perform ch (fun r => r.op == 0x28) fun s r =>
    s.orReject r (decide (r.arg 0 1 < 4) && decide (r.arg 1 1 < 4) && bits (r.arg 2 1) 4 3 == 0 && bits (r.arg 3 1) 4 3 == 0 && r.zeros [(6, 42)]) (r.body == [])
      (s.slotPush (chanSlot ch) { op := r.arg 0 1, tag := r.arg 1 1, ctx := r.arg 2 1 % 16, phys := bit (r.arg 2 1) 7,
                                  remote := bit (r.arg 3 1) 7, die := r.arg 3 1 % 16, vid := r.arg 4 2,
                                  req := 2 ^ 15 + s.get WRD_BOARD.DIE * 1024 + ch })

/-- The sync side of an abort's boundary or of a warm reset (R362): every cell of every owned context is cleared, every A
and W counter is zero, and every pending slot operation completes ABORTED. -/
def State.syncAbort (s : State) : State :=
  let s1 := ({ s with waits := [], mesh := s.mesh.withdraw (fun _ => true) } : State).zeroTags (fun _ => true)
  let s2 := s1.wipeCells (s.ctxOf 1 ++ s.ctxOf 2)
  (s2.slots.map (·.1)).foldl (fun s n =>
    (List.range 17).foldl (fun s _ => if (s.slot n).isEmpty then s else s.slotResult n 5 0) s) s2

end Sys2Proof.Machine
end

