-- ==== Sys2Proof/Machine/Red.lean ====
section
/-! DEFINITION. The gradient reduction in the link ports: groups, buckets, exact and fixed-order partials, windows,
checksums, notices and the all-gather (chapter 10, R272 to R292, R301). -/

namespace Sys2Proof.Machine

/-! ## The group and the bucket table -/

def State.redSize (s : State) : Nat := s.get RED_GROUP.SIZE
def State.redRank (s : State) : Nat := s.get RED_GROUP.RANK
def State.perBoard (s : State) : Nat := s.get RED_GROUP.PER_BOARD

/-- first(r) (R273). -/
def State.shardFirst (s : State) (r : Nat) : Nat := r * s.get SBD_PARAMS.VALUE / s.redSize

/-- A bucket table entry as it stands in the Wardrobe (Table 10.1), and its flag byte. -/
def State.readEnt (s : State) (i : Nat) : BEnt × Nat :=
  let a := s.get RED_BUCKET_TABLE.ADDR + 32 * i
  let f := s.leA true (a + 1) 1
  ({ chan := s.leA true a 1, wvalid := bit f 0, window := signed 16 (s.leA true (a + 2) 2), deadline := s.leA true (a + 4) 4,
     first := s.leA true (a + 8) 8, count := s.leA true (a + 16) 8, stage := s.leA true (a + 24) 8 }, f)

def State.ent (s : State) (i : Nat) : BEnt := s.red.tab.getD i ⟨0, false, 0, 0, 0, 0, 0⟩
def State.bucket (s : State) (i : Nat) : Bucket := SMap.get s.red.buckets {} i
def State.setBucket (s : State) (i : Nat) (b : Bucket) : State :=
  s.modRed (fun r => { r with buckets := SMap.set r.buckets {} i b })
def State.modBucket (s : State) (i : Nat) (f : Bucket → Bucket) : State := s.setBucket i (f (s.bucket i))

/-- The table indices of a channel's buckets, in order (R274). -/
def State.chanBuckets (s : State) (c : Nat) : List Nat :=
  (List.range s.red.tab.length).filter (fun i => (s.ent i).chan == c)

/-- The bucket number of a table index on its channel. -/
def State.bucketNo (s : State) (i : Nat) : Nat := (s.red.tab.take i).countP (fun b => b.chan == (s.ent i).chan)

/-- The table index of a channel's bucket number. -/
def State.bucketIdx (s : State) (c k : Nat) : Option Nat := (s.chanBuckets c)[k]?

/-- The DETAIL of a record of unit class 9 (Table 14.3). -/
def State.redDetail (s : State) (chan bucket owner : Nat) : Nat :=
  chan % 256 + bucket * 2 ^ 32 + s.get RED_STATUS.ATTEMPT * 2 ^ 64 + owner * 2 ^ 80

/-- A device-level record of unit class 9. -/
def State.redRecord (s : State) (cls : Nat) (flag : Fld) (detail : Nat) : State :=
  (s.setF flag).raise s.runTag { unit := unitId 9 0xFFF, cls := cls, reason := 0x0900 + flag.lo, ctx := 0, detail := detail }

/-- Whether a range lies in the resident image's Wardrobe region. -/
def State.inRegion (s : State) (a n : Nat) : Bool :=
  match s.resident with
  | none => n == 0
  | some im => n == 0 || inside a n im.man.wrdBase im.man.wrdBytes

/-- The arrays of the banks and the gradient buffer (R249): address and bytes. -/
def State.sbdArrays (s : State) : List (Nat × Nat) :=
  let p := 2 * s.get SBD_PARAMS.VALUE
  let n := s.get SBD_SHARD_COUNT.VALUE
  [(s.get (SBD_WBANK.ADDR 0), p), (s.get (SBD_WBANK.ADDR 1), p), (s.get (SBD_MBANK.ADDR 0), 2 * n), (s.get (SBD_MBANK.ADDR 1), 2 * n),
   (s.get (SBD_VBANK.ADDR 0), 2 * n), (s.get (SBD_VBANK.ADDR 1), 2 * n), (s.get SBD_GRAD_BASE.ADDR, 4 * n)]

/-- Whether buckets cover [0, P) exactly once: each parameter range begins where another ends. -/
def coversOnce (p : Nat) (l : List (Nat × Nat)) : Bool :=
  (l.foldl (fun a x => a + x.2) 0) == p && l.all (fun x => decide (x.1 + x.2 ≤ p)) &&
    (List.range l.length).all (fun i => (List.range i).all (fun j =>
      let x := l.getD i (0, 0)
      let y := l.getD j (0, 0)
      !(overlap x.1 x.2 y.1 y.2)))

/-- A device's coordinate relative to the job's origin on an axis (R294). -/
def State.rel (s : State) (c a : Nat) : Nat := (axisOf c a + s.dim a - axisOf (s.get RED_JOB.ORIGIN) a) % s.dim a

/-- The job's extent on an axis. -/
def State.extent (s : State) (a : Nat) : Nat :=
  if a = 0 then s.get RED_JOB.NX else if a = 1 then s.get RED_JOB.NY else s.get RED_JOB.NZ

/-- The configuration check of R276, with R412's areas. -/
def State.redConfigOk (s : State) (tab : List (BEnt × Nat)) : Bool :=
  let mode := s.get RED_GROUP.MODE
  let n := s.redSize
  let m := s.perBoard
  let p := s.get SBD_PARAMS.VALUE
  let chans := (s.resident.map (fun im => im.man.redChannels)).getD 0
  (tab.isEmpty || mode == 1 || mode == 2) && (mode != 1 || decide (n ≤ 128)) &&
  (mode != 2 || ((m == 1 || m == 2 || m == 4 || m == 8 || m == 16) && n % m == 0)) &&
  decide (1 ≤ n) && decide (n ≤ 4096) && decide (s.redRank < n) && s.get RED_BUCKET_TABLE.ADDR % 4096 == 0 && decide (tab.length ≤ 4096) &&
  tab.all (fun e =>
    decide (e.1.chan ≤ 15) && bit chans e.1.chan && decide (e.2 ≤ 1) && decide (0 < e.1.deadline) && e.1.first % 1024 == 0 &&
    (!e.1.wvalid || (decide (-61 ≤ e.1.window) && decide (e.1.window ≤ 129))) &&
    decide (0 < e.1.count) && (e.1.count % 1024 == 0 || e.1.first + e.1.count == p) &&
    e.1.stage % 4096 == 0 && s.inRegion e.1.stage (16 * e.1.count) &&
    s.sbdArrays.all (fun x => !(overlap e.1.stage (16 * e.1.count) x.1 x.2))) &&
  (tab.isEmpty || coversOnce p (tab.map (fun e => (e.1.first, e.1.count)))) &&
  (List.range tab.length).all (fun i => (List.range i).all (fun j =>
    match tab[i]?, tab[j]? with
    | some x, some y => !(overlap x.1.stage (16 * x.1.count) y.1.stage (16 * y.1.count))
    | _, _ => true)) &&
  s.get SBD_SHARD_FIRST.VALUE == s.shardFirst s.redRank &&
  s.get SBD_SHARD_COUNT.VALUE == s.shardFirst (s.redRank + 1) - s.shardFirst s.redRank &&
  (!(s.on SBD_CLIP.EN) || bit chans (s.get SBD_CLIP.NORM_CHANNEL)) &&
  (List.range 3).all (fun a => decide (1 ≤ s.extent a) && decide (s.extent a ≤ 32) && decide (s.rel s.coord a < s.extent a)) &&
  s.inRegion (s.get RAS_CAPTURE.BASE) (s.get RAS_CAPTURE.MIB * 2 ^ 20) && s.inRegion (s.get RAS_DIGEST_TABLE.ADDR) 65536

/-- Makes the configuration check and reads the bucket table (R274, R276). -/
def State.redCheck (s : State) : State :=
  let tab := (List.range (s.get RED_BUCKET_TABLE.ENTRIES)).map s.readEnt
  let s1 := s.modRed (fun r => { r with tab := tab.map (·.1), checked := true })
  if s1.redConfigOk tab then s1.setF RED_STATUS.CONFIG_OK
  else (s1.clrF RED_STATUS.CONFIG_OK).redRecord 4 RED_EVENT.CONFIG_ERR 0

/-! ## Status -/

/-- Whether a bucket's segments have all been sent: one for every owner but this device. -/
def State.allSent (s : State) (i : Nat) : Bool := decide (s.redSize ≤ (s.bucket i).sentTo.length + 1) && (s.bucket i).opened

/-- The head of a channel: its first bucket not yet sent. -/
def State.chanHead (s : State) (c : Nat) : Option Nat := (s.chanBuckets c).find? (fun i => !(s.allSent i))

/-- The RED status registers follow the buckets. -/
def State.redSync (s : State) : State :=
  let s1 := s.put RED_STATUS.ACTIVE (b2n ((List.range s.red.tab.length).any (fun i =>
    let b := s.bucket i
    !b.closed && !b.incomplete && (!b.drained.isEmpty || !b.wait.isEmpty || !b.notices.isEmpty))))
  (List.range 16).foldl (fun t c =>
    let l := s.chanBuckets c
    let k := (s.chanHead c).map (fun i => s.bucketNo i)
    let held := l.countP (fun i => (s.bucket i).localAt.isSome && !(s.bucket i).opened && some i != s.chanHead c)
    let st := match s.chanHead c with
      | none => if s.on SBD_CLIP.EN && c == s.get SBD_CLIP.NORM_CHANNEL && s.red.normOwn && !s.red.normDone then 3 else 0
      | some i => if (s.bucket i).opened then 2 else if (s.bucket i).headSent then 1 else 0
    ((t.put (RED_CH_STATUS.HEAD c) (k.getD l.length)).put (RED_CH_STATUS.HELD c) held).put (RED_CH_STATUS.STATE c) st) s1

/-- This device's flags: REPEAT while the configuration check fails (R276, R296). -/
def State.myFlags (s : State) : Nat := if s.on RED_STATUS.CONFIG_OK then s.red.flags else s.red.flags ||| fRepeat

/-! ## The global norm (R255, R256, R293) -/

/-- Whether clipping is on: EN is 1 and MAX_NORM is finite and positive (R256). -/
def State.clipOn (s : State) : Bool :=
  s.on SBD_CLIP.EN && fFinite (s.get SBD_CLIP.MAX_NORM) && fGt (s.get SBD_CLIP.MAX_NORM) 0

/-- A device's children in the job tree (R294), as coordinates. -/
def State.children (s : State) : List Nat :=
  let c := s.coord
  let d := fun a => s.rel c a
  let nxt := fun a => withAxis c a ((axisOf c a + 1) % s.dim a)
  (if d 0 + 1 < s.extent 0 then [nxt 0] else []) ++
    (if d 0 = 0 ∧ d 1 + 1 < s.extent 1 then [nxt 1] else []) ++
    (if d 0 = 0 ∧ d 1 = 0 ∧ d 2 + 1 < s.extent 2 then [nxt 2] else [])

/-- A device's parent; none for the root (R294). -/
def State.parent (s : State) : Option Nat :=
  let c := s.coord
  let prv := fun a => withAxis c a ((axisOf c a + s.dim a - 1) % s.dim a)
  if s.rel c 0 ≠ 0 then some (prv 0) else if s.rel c 1 ≠ 0 then some (prv 1) else if s.rel c 2 ≠ 0 then some (prv 2) else none

/-- The largest NS512 (R293). -/
def ns512 : Nat := 2 ^ 512 - 1

/-- Sends a norm sum to another device of the job: a RED_DATA packet of the norm channel behind its last bucket
(log 27). -/
def State.normSend (s : State) (dst sum : Nat) : State :=
  let c := s.get SBD_CLIP.NORM_CHANNEL
  s.flpOr (unitId 9 0xFFF) s.runTag dst 0x10 (leBytes 1 c ++ leBytes 1 1 ++ leBytes 2 s.redRank ++ leBytes 4 (s.chanBuckets c).length ++
    leBytes 4 (s.get RED_STATUS.STEP) ++ leBytes 2 (s.get RED_STATUS.ATTEMPT)) (leBytes 64 sum)

/-- The total of the job is known: it is stored, passed down, and gives the norm and the clip factor (R256, R293). -/
def State.normTotal (s : State) (i : Nat) : State :=
  let s1 := (List.range 8).foldl (fun s k => s.setWord (RED_NORM_SUM.reg k) (BitVec.ofNat 64 (bits i (64 * k) 64))) s
  let s2 := s1.children.foldl (fun s c => s.normSend c i) s1
  let s3 := s2.modRed (fun r => { r with normDone := true })
  let r := toF32 (.fin false i (-256))
  if !(fFinite r) then ((s3.setF SBD_EVENT.NORM_OVERFLOW).contribute fNonfinite)
  else
    let norm := fSqrt r
    let clip := if fGt norm (s.get SBD_CLIP.MAX_NORM) then fDiv (s.get SBD_CLIP.MAX_NORM) norm else fOne
    (s3.put SBD_NORM.NORM norm).put SBD_NORM.CLIP clip

/-- The own sum joins once every bucket has been scanned and the norm item is at the head of its channel, which a device
without buckets meets at the attempt's first RUN; the subtree's sum then goes up (R255, R275, R293). -/
def State.tryNorm (s : State) : State :=
  let ready := s.clipOn && !s.red.normOwn && decide (s.red.runNext ≠ 0) &&
    (List.range s.red.tab.length).all (fun i => (s.bucket i).scanned) && (s.chanHead (s.get SBD_CLIP.NORM_CHANNEL)).isNone
  let s1 := if ready then s.modRed (fun r => { r with normOwn := true }) else s
  let kids := s1.children
  if s1.red.normOwn && !s1.red.normUp && kids.all (fun c => (SMap.find? s1.red.normIn c).isSome) then
    let sum := kids.foldl (fun a c => min ns512 (a + (SMap.get s1.red.normIn 1 c - 1))) s1.red.normAcc
    let s2 := s1.modRed (fun r => { r with normUp := true })
    match s2.parent with
    | some p => s2.normSend p sum
    | none => s2.normTotal sum
  else s1

/-- The end of every reduction event. -/
def State.redEnd (s : State) : State := s.tryNorm.redSync

/-! ## Draining (R277) -/

/-- Marks an element that a reduction channel refuses (R277). -/
def State.drainErr (s : State) (chan : Nat) : State :=
  (s.redRecord 4 RED_EVENT.DRAIN_ERR (s.redDetail chan 0 0)).contribute fRepeat

/-! ## The staging area (R278) -/

/-- The 16 bytes of one parameter in its bucket's staging area take the drained element and the partials that wait there. The
manual gives the area but not how they lie in it: the bytes are a free function of what they hold (log 30). -/
def State.stageAt (s : State) (i j : Nat) : State :=
  let e := s.ent i
  let part := fun (g : Segment) =>
    if g.hdr.channel = e.chan ∧ g.hdr.bucket = s.bucketNo i ∧ g.hdr.first ≤ j then (g.elems.drop (j - g.hdr.first)).head? else none
  let parts := ((s.bucket i).wait.map (fun w => w.2.2) ++ s.red.kept.map (fun w => w.2)).filterMap part
  if e.first ≤ j ∧ j < e.first + e.count then
    s.wr! true (e.stage + 16 * (j - e.first)) (leBytes 16 (Config.stageSlot (SMap.get (s.bucket i).drained 0 (j - e.first)) parts).toNat)
  else s

/-- A partial that cannot yet be added waits in the staging area. -/
def State.stageSeg (s : State) (i : Nat) (g : Segment) : State :=
  (List.range g.elems.length).foldl (fun s k => s.stageAt i (g.hdr.first + k)) s

/-- One FP32 element enters a channel at a parameter index. -/
def State.drain (s : State) (chan j x : Nat) : State :=
  if s.replay || !(s.on RED_STATUS.CONFIG_OK) then s
  else
    match (s.chanBuckets chan).find? (fun i => decide ((s.ent i).first ≤ j) && decide (j < (s.ent i).first + (s.ent i).count)) with
    | none => s.drainErr chan
    | some i =>
      let b := s.bucket i
      let k := j - (s.ent i).first
      if j ≥ s.get SBD_PARAMS.VALUE ∨ (SMap.find? b.drained k).isSome = true then s.drainErr chan
      else
        let d := SMap.insert b.drained k (x + 2 ^ 32)
        ((s.setBucket i { b with drained := d, localAt := if d.length = (s.ent i).count then some s.now else b.localAt }).stageAt i j).redEnd

/-! ## Contributions -/

/-- floor(log2) of a nonzero magnitude. -/
def log2Of (m : Nat) (e : Int) : Int := e + blen m - 1

/-- An element in exact mode under window E: its WS96 integer, and whether it is non-finite, truncated, a breach, and
its exponent (R280). -/
def exactElem (e : Int) (x : Nat) : Int × Bool × Bool × Bool × Int :=
  match ofF32 x with
  | .fin n m f =>
    if m = 0 then (0, false, false, false, -32768)
    else if gtMag 1 e m f then
      let q := e - 88
      let v : Int := cutAt rtz 0 m f q
      (if n then -v else v, false, decide (f < q) && m % 2 ^ (q - f).toNat != 0, false, log2Of m f)
    else (0, false, false, true, log2Of m f)
  | _ => (0, true, false, false, -32768)

/-- The fold of an exact value in fixed-order mode (R286). -/
def m160 : Nat := 2 ^ 160 - 1
def foldVal : Val → Nat
  | .fin n m e => let k := cutAt rtz 0 m (e + 149) 0 % m160; if n then (m160 - k) % m160 else k
  | _ => 0

/-- The slice of a bucket that an owner holds: first parameter and count (R273). -/
def State.slice (s : State) (i owner : Nat) : Nat × Nat :=
  let e := s.ent i
  let a := max (s.shardFirst owner) e.first
  let b := min (s.shardFirst (owner + 1)) (e.first + e.count)
  (a, b - a)

/-- The header that this device gives to a segment of its own. -/
def State.redHdr (s : State) (i kind owner : Nat) : BucketHdr :=
  let sl := s.slice i owner
  { kind := kind, channel := (s.ent i).chan, flags := b2n (s.get RED_GROUP.MODE == 1), step := s.get RED_STATUS.STEP,
    attempt := s.get RED_STATUS.ATTEMPT, owner := owner, sender := s.redRank, contrib := 1, bucket := s.bucketNo i,
    e := (s.ent i).window, maxexp := -32768, first := sl.1, count := sl.2, nonfinite := 0, trunc := 0, checksum := 0, errsum := 0 }

/-- This device's own contribution to an owner's slice (R280, R285, R286, R288). -/
def State.contribution (s : State) (i owner : Nat) : Segment :=
  let h := s.redHdr i 1 owner
  let xs := (List.range h.count).map (fun k => SMap.get (s.bucket i).drained 0 (h.first + k - (s.ent i).first) % 2 ^ 32)
  if s.get RED_GROUP.MODE = 1 then
    let vs := xs.map (exactElem h.e)
    let nf := vs.countP (fun v => v.2.1)
    let br := vs.any (fun v => v.2.2.2.1)
    { hdr := { h with flags := h.flags + 2 * b2n (nf != 0) + 4 * b2n br, nonfinite := nf, trunc := vs.countP (fun v => v.2.2.1),
                      maxexp := vs.foldl (fun a v => max a v.2.2.2.2) (-32768),
                      checksum := wrap 160 (vs.foldl (fun a v => a + v.1) 0) },
      elems := vs.map (fun v => wrap 96 v.1) }
  else
    let ys := xs.map (fun x => if fFinite x then x else 0)
    let nf := xs.countP (fun x => !(fFinite x))
    { hdr := { h with flags := h.flags + 2 * b2n (nf != 0), nonfinite := nf,
                      maxexp := xs.foldl (fun a x => max a (exactElem 200 x).2.2.2.2) (-32768),
                      checksum := (ys.foldl (fun a y => a + foldVal (ofF32 y)) 0) % m160 },
      elems := ys }

/-- The header of two segments added (R281). -/
def hdrAdd (a b : BucketHdr) : BucketHdr :=
  { a with contrib := a.contrib + b.contrib, nonfinite := a.nonfinite + b.nonfinite, trunc := a.trunc + b.trunc,
           flags := a.flags ||| b.flags, maxexp := max a.maxexp b.maxexp }

/-- An exact hop (R281, R285). -/
def segAdd (a b : Segment) : Segment :=
  { hdr := { hdrAdd a.hdr b.hdr with checksum := (a.hdr.checksum + b.hdr.checksum) % 2 ^ 160 },
    elems := (a.elems.zip b.elems).map (fun p => (p.1 + p.2) % 2 ^ 96) }

/-- two_sum (R283): the rounded sum, the fold of its exact error, and whether it overflowed. -/
def twoSum (a b : Nat) : Nat × Nat × Nat :=
  let x := (ofF32 a).add (ofF32 b)
  let r := toF32 x
  if fFinite r then (r, foldVal (x.add (ofF32 r).negate), 0) else (0, foldVal x, 1)

/-- One level of the tree: neighbours in pairs (R283). -/
def pairUp : List Nat → List Nat × Nat × Nat
  | a :: b :: t =>
    let (r, e, o) := twoSum a b
    let (rs, es, os) := pairUp t
    (r :: rs, (e + es) % m160, o + os)
  | l => (l, 0, 0)

/-- The tree over the contributions of one board (R283). -/
def treeSum : Nat → List Nat → Nat × Nat × Nat
  | 0, l => (l.headD 0, 0, 0)
  | f + 1, l =>
    if l.length ≤ 1 then (l.headD 0, 0, 0)
    else
      let (n, e, o) := pairUp l
      let (r, e', o') := treeSum f n
      (r, (e + e') % m160, o + o')

/-- Contributions of one board, in board rank order, combined element by element. -/
def boardSum (l : List Segment) : Segment :=
  match l with
  | [] => ⟨⟨1, 0, 0, 0, 0, 0, 0, 0, 0, 0, -32768, 0, 0, 0, 0, 0, 0⟩, []⟩
  | a :: t =>
    let h := t.foldl (fun h x => { hdrAdd h x.hdr with checksum := (h.checksum + x.hdr.checksum) % m160,
                                                       errsum := (h.errsum + x.hdr.errsum) % m160 }) a.hdr
    let rs := (List.range a.elems.length).map (fun k => treeSum 5 (l.map (fun x => x.elems.getD k 0)))
    let o := rs.foldl (fun n r => n + r.2.2) 0
    { hdr := { h with errsum := (h.errsum + rs.foldl (fun n r => n + r.2.1) 0) % m160, nonfinite := h.nonfinite + o,
                      flags := h.flags ||| (2 * b2n (o != 0)) },
      elems := rs.map (·.1) }

/-- A ring hop in fixed-order mode: the accumulated partial, then this board's. -/
def ringSum (acc part : Segment) : Segment :=
  let rs := (acc.elems.zip part.elems).map (fun p => twoSum p.1 p.2)
  let o := rs.foldl (fun n r => n + r.2.2) 0
  let h := hdrAdd acc.hdr part.hdr
  { hdr := { h with checksum := (acc.hdr.checksum + part.hdr.checksum) % m160,
                    errsum := (acc.hdr.errsum + part.hdr.errsum + rs.foldl (fun n r => n + r.2.1) 0) % m160,
                    nonfinite := h.nonfinite + o, flags := h.flags ||| (2 * b2n (o != 0)) },
    elems := rs.map (·.1) }

/-! ## Sending (R331, Table 10.2) -/

/-- The bytes of a bucket header. -/
def State.hdrBytes (s : State) (h : BucketHdr) : List Byte :=
  let z := h.kind = 0
  let v := fun (n : Nat) => if z then 0 else n
  leBytes 1 h.kind ++ leBytes 1 h.channel ++ leBytes 1 (v h.flags) ++ [0] ++ leBytes 4 h.step ++ leBytes 2 h.attempt ++
    leBytes 2 h.owner ++ leBytes 2 h.sender ++ leBytes 2 h.contrib ++ leBytes 4 h.bucket ++ leBytes 2 (wrap 16 h.e) ++
    leBytes 2 (v (wrap 16 h.maxexp)) ++ leBytes 8 h.first ++ leBytes 4 h.count ++ leBytes 4 (v h.nonfinite) ++ leBytes 4 (v h.trunc) ++
    leBytes 4 0 ++ leBytes 8 s.compact ++ leBytes 8 0 ++ leBytes 20 (v h.checksum) ++ leBytes 12 0 ++ leBytes 20 (v h.errsum) ++ leBytes 12 0

/-- One RED_DATA packet of a header's segment. -/
def State.redSend (s : State) (dst part : Nat) (h : BucketHdr) (body : List Byte) : State :=
  s.flpOr (unitId 9 0xFFF) s.runTag dst 0x10 (leBytes 1 h.channel ++ leBytes 1 part ++ leBytes 2 h.owner ++ leBytes 4 h.bucket ++
    leBytes 4 h.step ++ leBytes 2 h.attempt) body

/-- Element packets of at most 4,080 bytes. -/
def State.redBody : Nat → State → Nat → BucketHdr → List Byte → State
  | 0, s, _, _, _ => s
  | f + 1, s, dst, h, l =>
    if l.isEmpty then s else State.redBody f (s.redSend dst 1 h (l.take 4080)) dst h (l.drop 4080)

/-- A segment: OPEN header, elements, CLOSE header. -/
def State.sendSegment (s : State) (dst : Nat) (g : Segment) : State :=
  let h := { g.hdr with sender := s.redRank }
  let w := if s.get RED_GROUP.MODE = 1 then 12 else 4
  let body := (g.elems.map (leBytes w)).flatten
  let s1 := s.redSend dst 0 h (s.hdrBytes { h with kind := 0 })
  let s2 := State.redBody (body.length / 4080 + 1) s1 dst h body
  s2.redSend dst 0 h (s2.hdrBytes { h with kind := 1 })

/-- A header alone. -/
def State.sendHeader (s : State) (dst : Nat) (h : BucketHdr) : State := s.redSend dst 0 h (s.hdrBytes h)

/-! ## Closing (R287 to R290) -/

/-- The flags of a segment or notice reach the vote (R288, Table 10.4). -/
def State.redFlags (s : State) (f : Nat) : State :=
  let s1 := if bit f 1 then (s.setF RED_EVENT.NONFINITE).contribute fNonfinite else s
  if bit f 2 then (s1.setF RED_EVENT.WINDOW).contribute (fRepeat + fWindow) else s1

/-- A bucket closes once its own slice is complete and every other notice is in (R289). -/
def State.tryClose (s : State) (i : Nat) : State :=
  let b := s.bucket i
  if b.complete && !b.closed && !b.incomplete &&
      (List.range s.redSize).all (fun r => r == s.redRank || b.notices.contains r) then
    (s.modBucket i (fun b => { b with closed := true })).incSat (RED_CH_STATS.CLOSED (s.ent i).chan)
  else s

/-- The owner writes its slice into the gradient buffer (R281, R284). -/
def State.writeSlice (s : State) (first : Nat) (l : List Nat) : State :=
  s.wr! true (s.get SBD_GRAD_BASE.ADDR + 4 * (first - s.get SBD_SHARD_FIRST.VALUE)) ((l.map (leBytes 4)).flatten)

/-- The owner's final partial: conversion, check, write and notice (R281, R283 to R290). -/
def State.ownSlice (s : State) (i : Nat) (g : Segment) : State :=
  if g.hdr.contrib ≠ s.redSize then s
  else
    let exact := s.get RED_GROUP.MODE == 1
    let rs := if exact then g.elems.map (fun x =>
        let v := signed 96 x
        (fFp32.store false rne 0 (if v = 0 then .fin false 0 0 else .fin (decide (v < 0)) v.natAbs (g.hdr.e - 88)))) else []
    let outs := if exact then rs.map (fun r => if r.ovf then 0 else r.bits) else g.elems
    let ovf := rs.countP (fun r => r.ovf)
    let ok := if exact then wrap 160 (g.elems.foldl (fun a x => a + signed 96 x) 0) == g.hdr.checksum % 2 ^ 160
      else ((outs.foldl (fun a x => a + foldVal (ofF32 x)) 0) + g.hdr.errsum) % m160 == g.hdr.checksum % m160
    let b := s.bucket i
    let fl := g.hdr.flags ||| (2 * b2n (ovf != 0)) ||| (8 * b2n b.incomplete) ||| (16 * b2n (!ok))
    let h := { g.hdr with kind := 3, owner := s.redRank, sender := s.redRank, flags := fl, nonfinite := g.hdr.nonfinite + ovf }
    let s1 := if b.incomplete then s else s.writeSlice g.hdr.first outs
    let s2 := if ok then s1 else
      ((s1.setF RED_EVENT.CHECKSUM).incSat (RED_CH_STATS.SUSPECT h.channel)).raise s.runTag
        { unit := unitId 9 0xFFF, cls := 4, reason := 0x0900 + RED_EVENT.CHECKSUM.lo, ctx := 0, detail := s.redDetail h.channel h.bucket s.redRank }
    let s3 := if ok then s2 else s2.contribute fRepeat
    let s4 := (s3.redFlags fl).modBucket i (fun b => { b with complete := true, maxexp := max b.maxexp h.maxexp })
    let s5 := (s4.incSat RED_TOTALS.TRUNC h.trunc).incSat RED_TOTALS.NONFINITE h.nonfinite
    let s6 := if s.redSize = 1 then s5 else s5.sendHeader (s.get RED_RING.NEXT) h
    s6.tryClose i

/-- Sends a partial on and remembers its owner. -/
def State.forward (s : State) (i dst owner : Nat) (g : Segment) : State :=
  (s.sendSegment dst g).modBucket i (fun b => { b with sentTo := b.sentTo ++ [owner] })

/-- The coordinates of a board rank of this device's board (R272). -/
def State.peerCoord (s : State) (q : Nat) : Nat := (s.dieCoord (s.get (RED_BOARD_PEER.DIE q))).getD s.coord

/-- Whether this device is done with an owner's slice of a bucket. -/
def Bucket.done (b : Bucket) (rank owner : Nat) : Bool := if owner = rank then b.complete else b.sentTo.contains owner

/-- A segment that would leave the device is not sent while CONFIG_OK is 0 (R276). -/
def State.mute (s : State) (rank owner : Nat) : Bool := owner != rank && !(s.on RED_STATUS.CONFIG_OK)

/-- One owner's slice of an open bucket in exact mode (R289). -/
def State.exactStep (s : State) (i owner : Nat) : State :=
  let b := s.bucket i
  let r := s.redRank
  let n := s.redSize
  if b.done r owner || s.mute r owner then s
  else
    let mine := s.contribution i owner
    let s1 := s.redFlags mine.hdr.flags
    match b.wait.find? (fun w => w.2.2.hdr.owner == owner) with
    | some w =>
      let g := segAdd w.2.2 mine
      let s2 := s1.modBucket i (fun b => { b with wait := b.wait.filter (fun x => x.2.2.hdr.owner != owner) })
      if owner = r then s2.ownSlice i g else s2.forward i (s.get RED_RING.NEXT) owner g
    | none =>
      if n = 1 then s1.ownSlice i mine
      else if r = (owner + 1) % n then s1.forward i (s.get RED_RING.NEXT) owner mine
      else s

/-- One owner's slice of an open bucket in fixed-order mode: board contributions meet at the board rank of the owner,
and the boards' partials run the board ring (R283, R289). -/
def State.fixedStep (s : State) (i owner : Nat) : State :=
  let b := s.bucket i
  let r := s.redRank
  let m := s.perBoard
  let nb := s.redSize / m
  if b.done r owner || s.mute r owner then s
  else
    let mine := s.contribution i owner
    let s1 := s.redFlags mine.hdr.flags
    let q := owner % m
    if r % m ≠ q then s1.forward i (s.peerCoord q) owner mine
    else
      let parts := (List.range m).filterMap (fun k =>
        if k = q then some mine
        else (b.wait.find? (fun w => w.2.2.hdr.owner == owner && w.2.2.hdr.sender == r / m * m + k)).map (fun w => w.2.2))
      let first := r / m == (owner / m + 1) % nb
      let ring := (b.wait.find? (fun w => w.2.2.hdr.owner == owner && w.2.2.hdr.sender / m == (r / m + nb - 1) % nb &&
        w.2.2.hdr.sender % m == q && w.2.2.hdr.sender != r)).map (fun w => w.2.2)
      if parts.length ≠ m ∨ (!first && ring.isNone) = true then s
      else
        let part := boardSum parts
        let g := if first then part else match ring with
          | none => part
          | some a => ringSum a part
        let s2 := s1.modBucket i (fun b => { b with wait := b.wait.filter (fun x => x.2.2.hdr.owner != owner) })
        if owner = r then s2.ownSlice i g else s2.forward i (s.get RED_BOARD_RING.NEXT) owner g

/-- Does everything that an open bucket can now do. -/
def State.pushBucket (s : State) (i : Nat) : State :=
  if (s.bucket i).opened then
    (List.range s.redSize).foldl (fun s r => if s.get RED_GROUP.MODE = 1 then s.exactStep i r else s.fixedStep i r) s
  else s

/-! ## Windows (R282) -/

/-- Writes a bucket's window into its table entry. -/
def State.setWindow (s : State) (i : Nat) (valid : Bool) (e : Int) : State :=
  let a := s.get RED_BUCKET_TABLE.ADDR + 32 * i
  (s.modRed (fun r => { r with tab := r.tab.modify i (fun b => { b with wvalid := valid, window := e }) })).wr! true (a + 1)
    (leBytes 1 (b2n valid) ++ leBytes 2 (wrap 16 e))

/-- clamp(M + 2, −61, 129); −61 with no nonzero finite element. -/
def windowFor (m : Int) : Int := if m = -32768 then -61 else max (-61) (min 129 (m + 2))

/-- The largest exponent of this device's local data of a bucket. -/
def State.localMax (s : State) (i : Nat) : Int :=
  (s.bucket i).drained.foldl (fun a x => max a (exactElem 200 (x.2 % 2 ^ 32)).2.2.2.2) (-32768)

/-- The window is set once every participant's header is in (R282). -/
def State.tryWindow (s : State) (i : Nat) : State :=
  let b := s.bucket i
  if b.headSent && decide (s.redSize ≤ b.heads.length + 1) && !(s.ent i).wvalid then
    s.setWindow i true (windowFor (b.heads.foldl (fun a h => max a h.2) (s.localMax i)))
  else s

/-! ## The rows -/

/-- SEGMENT_SEND (R275, R282): the head bucket of a channel, its local data complete, opens with an exponent pass or
sends its segments. -/
def execSegmentSend (c : Nat) (s : State) : Out := act s fun s =>
  if s.red.voted || s.replay || !(s.on RED_STATUS.CONFIG_OK) || bit s.myFlags 0 then s
  else
    match s.chanHead c with
    | none => s
    | some i =>
      let b := s.bucket i
      if b.localAt.isNone || b.opened then s
      else if s.get RED_GROUP.MODE = 1 ∧ (s.ent i).wvalid = false then
        if b.headSent then s
        else
          let h := { s.redHdr i 2 s.redRank with maxexp := s.localMax i, first := (s.ent i).first, count := (s.ent i).count }
          let s1 := s.modBucket i (fun b => { b with headSent := true })
          let s2 := if s.redSize = 1 then s1 else s1.sendHeader (s.get RED_RING.NEXT) h
          (s2.tryWindow i).redEnd
      else ((s.modBucket i (fun b => { b with opened := true })).pushBucket i).redEnd

/-- How an arrival stands to this device's attempt (R291): 0 current, 1 older, 2 next, 3 beyond next. -/
def State.redOrder (s : State) (step attempt : Nat) : Nat :=
  let st := s.get RED_STATUS.STEP
  let at' := s.get RED_STATUS.ATTEMPT
  if step = st ∧ attempt = at' then (if s.red.voted then 1 else 0)
  else if step < st ∨ (step = st ∧ attempt < at') then 1
  else if (step = st ∧ attempt = at' + 1) ∨ (step = st + 1 ∧ attempt = 0) then 2
  else 3

/-- A late arrival (R291). -/
def State.redLate (s : State) (c : Nat) : State := (s.incSat (RED_CH_STATS.LATE c)).setF RED_EVENT.LATE

/-- An arrival beyond the next attempt (R291). -/
def State.redBeyond (s : State) (h : BucketHdr) : State :=
  s.redRecord 1 RED_EVENT.SEQUENCE (s.redDetail h.channel h.bucket h.owner)

/-- A segment of the current attempt. -/
def State.segmentIn (s : State) (port : Nat) (g : Segment) : State :=
  match s.bucketIdx g.hdr.channel g.hdr.bucket with
  | none => s
  | some i =>
    let b := s.bucket i
    let s1 := (s.redFlags g.hdr.flags).modBucket i (fun b => { b with wait := b.wait ++ [(port, b.localAt.isSome, g)] })
    let s2 := if b.opened then s1.pushBucket i else s1
    (if (s2.bucket i).wait.any (fun w => w.2.2 == g) then s2.stageSeg i g else s2).redEnd

/-- RED_DATA (R281, R289, R291): a segment has arrived at a link port. -/
def execRedData (seg : Segment) (port : Nat) (s : State) : Out := act s fun s =>
  if s.replay then s
  else
    let o := s.redOrder seg.hdr.step seg.hdr.attempt
    if o = 0 then s.segmentIn port seg
    else if o = 1 then s.redLate seg.hdr.channel
    else if o = 2 then
      let s1 := s.modRed (fun r => { r with kept := r.kept ++ [(port, seg)] })
      match s.bucketIdx seg.hdr.channel seg.hdr.bucket with
      | some i => s1.stageSeg i seg
      | none => s1
    else s.redBeyond seg.hdr

/-- A close notice of the current attempt. -/
def State.noticeIn (s : State) (h : BucketHdr) : State :=
  match s.bucketIdx h.channel h.bucket with
  | none => s
  | some i =>
    let b := s.bucket i
    let s1 := (s.redFlags h.flags).modBucket i (fun b => { b with
      notices := if b.notices.contains h.owner then b.notices else b.notices ++ [h.owner], maxexp := max b.maxexp h.maxexp })
    let s2 := if (s.redRank + 1) % s.redSize = h.owner ∨ b.notices.contains h.owner = true then s1 else s1.sendHeader (s.get RED_RING.NEXT) h
    (s2.tryClose i).redEnd

/-- BUCKET_NOTICE (R289, R291). -/
def execBucketNotice (h : BucketHdr) (s : State) : Out := act s fun s =>
  if s.replay then s
  else
    let o := s.redOrder h.step h.attempt
    if o = 0 then s.noticeIn h
    else if o = 1 then s.redLate h.channel
    else if o = 2 then s.modRed (fun r => { r with keptN := r.keptN ++ [h] })
    else s.redBeyond h

/-- An exponent header of the current attempt (R282). -/
def State.headIn (s : State) (h : BucketHdr) : State :=
  match s.bucketIdx h.channel h.bucket with
  | none => s
  | some i =>
    let s1 := s.modBucket i (fun b => { b with
      heads := if b.heads.any (fun x => x.1 == h.sender) then b.heads else b.heads ++ [(h.sender, h.maxexp)] })
    let s2 := if (s.redRank + 1) % s.redSize = h.sender then s1 else s1.sendHeader (s.get RED_RING.NEXT) h
    (s2.tryWindow i).redEnd

/-- EXPONENT_PASS (R282, R291). -/
def execExponentPass (h : BucketHdr) (s : State) : Out := act s fun s =>
  if s.replay then s
  else
    let o := s.redOrder h.step h.attempt
    if o = 0 then s.headIn h
    else if o = 1 then s.redLate h.channel
    else if o = 2 then s.modRed (fun r => { r with keptN := r.keptN ++ [h] })
    else s.redBeyond h

/-- BUCKET_DEADLINE (R290). -/
def execBucketDeadline (i : Nat) (s : State) : Out := act s fun s =>
  let b := s.bucket i
  match b.localAt with
  | none => s
  | some t =>
    if i < s.red.tab.length ∧ b.closed = false ∧ b.incomplete = false ∧ t + (s.ent i).deadline ≤ s.now then
      let c := (s.ent i).chan
      ((((s.modBucket i (fun b => { b with incomplete := true })).incSat (RED_CH_STATS.INCOMPLETE c)).redRecord 4 RED_EVENT.INCOMPLETE
        (s.redDetail c (s.bucketNo i) s.redRank)).contribute fRepeat).redEnd
    else s

/-! ## Entering an attempt (R291, R409, R410) -/

/-- The attempt's state is cleared: buckets, flags, norm, suspect table, capture (R291, R297, R409, R410). -/
def State.clearAttempt (s : State) : State :=
  let s1 := s.modRed (fun r => { r with
    buckets := [], flags := 0, voted := false, normIn := [], normAcc := 0, normOwn := false, normUp := false, normDone := false,
    drainDone := false, runNext := 0, scanBegun := false })
  let s2 := (List.range 64).foldl (fun s n => s.setWord (RAS_SUSPECT.reg n) 0) s1
  (((s2.put RAS_STATUS.SUSPECT_COUNT 0).setWord RAS_CAPTURE_USED.reg 0).modRas (fun r => { r with capStop := false, overflow := false })).setWord
    RED_TOTALS.reg 0

/-- The device enters an attempt: what was kept for it is handled, the rest stays or goes (R291). -/
def State.enterAttempt (s : State) (step att : Nat) : State :=
  let kept := s.red.kept
  let keptN := s.red.keptN
  let s1 := (((s.clearAttempt.put RED_STATUS.STEP step).put RED_STATUS.ATTEMPT att).modRed (fun r => { r with kept := [], keptN := [] }))
  let s3 := keptN.foldl (fun s h => if s.redOrder h.step h.attempt = 0 then (if h.kind = 2 then s.headIn h else s.noticeIn h)
    else if s.redOrder h.step h.attempt = 2 then s.modRed (fun r => { r with keptN := r.keptN ++ [h] }) else s.redLate h.channel) s1
  (kept.foldl (fun s g => if s.redOrder g.2.hdr.step g.2.hdr.attempt = 0 then s.segmentIn g.1 g.2
    else if s.redOrder g.2.hdr.step g.2.hdr.attempt = 2 then s.modRed (fun r => { r with kept := r.kept ++ [g] })
    else s.redLate g.2.hdr.channel) s3).redEnd

end Sys2Proof.Machine
end

