-- ==== Sys2Proof/Machine/Sideboard.lean ====
section
/-! DEFINITION. The Sideboard: the scan, the update, the working copies, rollback and its guarded writes (chapter 09).
-/

namespace Sys2Proof.Machine

/-- A record of unit class 7 (Table 14.3). -/
def State.sbdRecord (s : State) (cls : Nat) (flag : Fld) (detail : Nat) : State :=
  (s.setF flag).raise s.runTag { unit := unitId 7 0, cls := cls, reason := 0x0800 + flag.lo, ctx := 0, detail := detail }

/-! ## The scan (R255, R258) -/

/-- Whether the scan runs at all. -/
def State.scanOn (s : State) : Bool := s.clipOn || s.get SBD_HIST_LIMIT.LIMIT != 0xFFFFFFFF

/-- One histogram bin. -/
def histFld (bin : Nat) : Fld := if bin % 2 = 0 then SBD_GRAD_HIST.EVEN (bin / 2) else SBD_GRAD_HIST.ODD (bin / 2)

/-- The square of an FP32 element on the NS512 grid (R293). -/
def ns512Of (x : Nat) : Nat :=
  match ofF32 x with
  | .fin _ m e => cutAt rtz 0 (m * m) (2 * e) (-256)
  | _ => 0

/-- SBD_SCAN: the Sideboard scans a closed bucket's slice of the shard (R255, R258, R264). -/
def execSbdScan (bucket : Nat) (ue : Bool) (s : State) : Out := act s fun s =>
  let b := s.bucket bucket
  if bucket < s.red.tab.length ∧ b.closed = true ∧ b.scanned = false ∧ s.scanOn = true ∧ s.red.voted = false
      ∧ s.get SBD_STATUS.STATE < 2 then
    let s0 := if s.red.scanBegun then s
      else (List.range 16).foldl (fun s k => s.setWord (SBD_GRAD_HIST.reg k) 0) (s.modRed (fun r => { r with scanBegun := true }))
    let s1 := (s0.put SBD_STATUS.STATE 1).put SBD_STATUS.STEP (s.get RED_STATUS.STEP)
    let sl := s1.slice bucket s1.redRank
    let a := s1.get SBD_GRAD_BASE.ADDR + 4 * (sl.1 - s1.get SBD_SHARD_FIRST.VALUE)
    let bad := ue || !(s1.badIn .wrd a (4 * sl.2)).isEmpty
    let s2 := if bad then ((s1.badIn .wrd a (4 * sl.2)).foldl (fun s u => s.wrdUe u none false) s1).contribute fRepeat else s1
    let xs := (List.range sl.2).map (fun k => s2.leA true (a + 4 * k) 4)
    let s3 := xs.foldl (fun s x => s.incSat (histFld (bits x 26 5))) s2
    let sum := xs.foldl (fun t x => min ns512 (t + ns512Of x)) s3.red.normAcc
    ((s3.modRed (fun r => { r with normAcc := sum })).modBucket bucket (fun b => { b with scanned := true })).redEnd
  else s

/-- NORM_PARTIAL: a child's sum, or the total from the parent (R293). -/
def execNormPartial (child : Option Nat) (sum : Nat) (s : State) : Out := act s fun s =>
  if s.replay then s
  else match child with
    | some c => if s.children.contains c then
        (s.modRed (fun r => { r with normIn := SMap.insert r.normIn c (min ns512 sum + 1) })).redEnd else s
    | none => if s.parent.isSome && !s.red.normDone then (s.normTotal (min ns512 sum)).redSync else s

/-! ## The latched settings (R261 step 4, R263) -/

/-- A latched field. -/
def Update.get (u : Update) (f : Fld) : Nat := fget (SMap.get u.words (resetWord f.off) f.off) f.hi f.lo

/-- A setting of the Sideboard as it acts now: latched from step 4 until the update's refresh has ended, else in force
(R261, R262). -/
def State.sbd (s : State) (f : Fld) : Nat :=
  match s.upd with
  | some u => u.get f
  | none => s.get f

/-- The valid segments, with their START and HSET. -/
def Update.segs (u : Update) : List (Nat × Nat) :=
  (List.range 64).filterMap (fun k => if u.get (SBD_SEG.VALID k) = 1 then some (u.get (SBD_SEG.START k), u.get (SBD_SEG.HSET k)) else none)

/-- Whether the update clips (R256). -/
def Update.clipOn (u : Update) : Bool :=
  u.get SBD_CLIP.EN == 1 && fFinite (u.get SBD_CLIP.MAX_NORM) && fGt (u.get SBD_CLIP.MAX_NORM) 0

/-- The hyperparameter set of a shard element (R250). -/
def Update.hset (u : Update) (i : Nat) : Nat := ((u.segs.filter (fun x => decide (x.1 ≤ i))).getLast?.map (·.2)).getD 0

/-- Whether START values ascend strictly from zero. -/
def ascending : List Nat → Bool
  | a :: b :: t => decide (a < b) && ascending (b :: t)
  | _ => true

/-- One entry of the refresh table (Table 09.3). -/
structure RefEnt where
  first  : Nat
  count  : Nat
  space  : Nat
  format : Nat
  tile   : Nat
  zero   : Nat
  dst    : Nat

def State.refEnt (s : State) (a : Nat) : RefEnt :=
  { first := s.leA true a 8, count := s.leA true (a + 8) 8, space := s.leA true (a + 16) 1, format := s.leA true (a + 17) 1,
    tile := s.leA true (a + 18) 2, zero := s.leA true (a + 20) 4, dst := s.leA true (a + 24) 8 }

def State.refTable (s : State) (addr n : Nat) : List RefEnt := (List.range n).map (fun k => s.refEnt (addr + 32 * k))

/-- Bytes that an entry writes. -/
def RefEnt.bytes (r : RefEnt) : Nat := if isMx r.format then r.count / 1024 * blockBytes r.format else r.count * elemBits r.format / 8

/-- The address that an entry writes at. -/
def RefEnt.addr (r : RefEnt) : Nat := if r.space = 0 then spAddr r.tile r.dst else if r.space = 1 then shelfBase + r.dst else r.dst

/-- Whether the refresh table keeps the rule of R267. -/
def State.refreshOk (s : State) (p : Nat) (l : List RefEnt) : Bool :=
  let man := (s.resident.map Image.man).getD {}
  l.all (fun r =>
    decide (0 < r.count) && r.count % 32 == 0 && (!(isMx r.format) || r.count % 1024 == 0) && decide (r.first + r.count ≤ p) &&
    (r.format == 2 || r.format == 4 || r.format == 5 || isMx r.format) && r.zero == 0 && (r.space == 0 || r.tile == 0) &&
    (if r.space = 0 then decide (r.tile < 1024) && decide (r.dst + r.bytes ≤ man.scratch.getD r.tile 0)
     else if r.space = 1 then inside r.dst r.bytes man.shelfBase man.shelfBytes
     else r.space == 3 && inside r.dst r.bytes man.wrdBase man.wrdBytes)) &&
  (List.range l.length).all (fun i => (List.range i).all (fun j =>
    match l[i]?, l[j]? with
    | some x, some y => !(overlap x.addr x.bytes y.addr y.bytes)
    | _, _ => true))

/-- The check of step 4 (R263). -/
def State.updateOk (s : State) (u : Update) : Bool :=
  let p := u.get SBD_PARAMS.VALUE
  let n := u.get SBD_SHARD_COUNT.VALUE
  let used := (u.segs.map (·.2))
  let needV := used.any (fun h => u.get (SBD_HSET_CTRL.OPT h) == 1 || u.get (SBD_HSET_CTRL.OPT h) == 2)
  let arrays := [(u.get (SBD_WBANK.ADDR 0), 2 * p), (u.get (SBD_WBANK.ADDR 1), 2 * p), (u.get (SBD_MBANK.ADDR 0), 2 * n),
      (u.get (SBD_MBANK.ADDR 1), 2 * n), (u.get SBD_GRAD_BASE.ADDR, 4 * n)] ++
    (if needV then [(u.get (SBD_VBANK.ADDR 0), 2 * n), (u.get (SBD_VBANK.ADDR 1), 2 * n)] else [])
  decide (u.get SBD_SHARD_FIRST.VALUE + n ≤ p) && arrays.all (fun x => s.inRegion x.1 x.2) &&
  (arrays.map (·.1) ++ [u.get (SBD_VBANK.ADDR 0), u.get (SBD_VBANK.ADDR 1)]).all (fun a => a % 4096 == 0) &&
  (List.range arrays.length).all (fun i => (List.range i).all (fun j =>
    let x := arrays.getD i (0, 0)
    let y := arrays.getD j (0, 0)
    !(overlap x.1 x.2 y.1 y.2))) &&
  u.get (SBD_SEG.VALID 0) == 1 && u.get (SBD_SEG.START 0) == 0 &&
  (List.range 63).all (fun k => u.get (SBD_SEG.VALID k) == 1 || u.get (SBD_SEG.VALID (k + 1)) == 0) &&
  ascending (u.segs.map (·.1)) && u.segs.all (fun x => decide (x.1 < n)) &&
  used.all (fun h => decide (u.get (SBD_HSET_CTRL.OPT h) ≤ 3) &&
    [SBD_HSET_LR.LR h, SBD_HSET_LR.WD h, SBD_HSET_BETA.BETA1 h, SBD_HSET_BETA.BETA2 h, SBD_HSET_EPS.EPS h,
     SBD_HSET_EPS.GSCALE h].all (fun f => fFinite (u.get f))) &&
  s.refreshOk p (s.refTable (u.get SBD_REFRESH.ADDR) (u.get SBD_REFRESH.ENTRIES))

/-- The update is abandoned (R264). -/
def State.abandon (s : State) (flag : Fld) (elem hset : Nat) : State :=
  ((s.sbdRecord 4 flag (elem + hset * 2 ^ 64)).put SBD_STATUS.STATE 2) |> fun t =>
    { t with upd := t.upd.map (fun u => { u with bad := true }) }

/-- Step 4 of Table 09.2. -/
def State.startUpdate (s : State) (step : Nat) : State :=
  let u : Update := { words := s.regs.filter (fun e => regBlock e.1 == regBlock SBD_CTRL.reg),
                      t := (s.get (SBD_BANK_T.T (s.get SBD_BANK.ACTIVE)) + 1) % 2 ^ 32, step := step }
  let s1 := { ((s.put SBD_STATUS.STATE 3).put SBD_STATUS.STEP step) with upd := some u }
  if s1.updateOk u then s1 else s1.abandon SBD_EVENT.CONFIG_ERR 0 0

/-! ## The update arithmetic (R251 to R253) -/

/-- powt: b^t by the bits of t from the highest. -/
def powt (b t : Nat) : Nat :=
  (List.range 32).foldl (fun r k => let r1 := fMul r r; if bit t (31 - k) then fMul r1 b else r1) fOne

/-- sign(x): +1, −1 or +0; NaN stays NaN (log 28). -/
def fSign (x : Nat) : Nat :=
  match ofF32 x with
  | .nan => fFp32.nanBits
  | v => if v.isZero then 0 else if v.neg? then 0xBF800000 else fOne

/-- One shard element: the new w, m, v in FP32 from BF16 inputs widened to FP32 (R251). -/
def updElem (opt lr wd beta1 beta2 eps gscale t clip w m v g0 : Nat) : Nat × Nat × Nat :=
  let g := fMul (fMul g0 gscale) clip
  let c1 := fSub fOne beta1
  let c2 := fSub fOne beta2
  let g1 := if opt ≤ 1 then fFma wd w g else g
  if opt = 0 then
    let m1 := fFma beta1 m g1
    (fFma (fNeg lr) m1 w, m1, v)
  else if opt ≤ 2 then
    let m1 := fFma beta1 m (fMul c1 g1)
    let v1 := fFma beta2 v (fMul c2 (fMul g1 g1))
    let b1 := fSub fOne (powt beta1 t)
    let b2 := fSub fOne (powt beta2 t)
    let d := fDiv (fDiv m1 b1) (fAdd (fSqrt (fDiv v1 b2)) eps)
    let d1 := if opt = 2 then fFma wd w d else d
    (fFma (fNeg lr) d1 w, m1, v1)
  else
    let d := fSign (fFma beta1 m (fMul c1 g1))
    let m1 := fFma beta2 m (fMul c2 g1)
    let d1 := fFma wd w d
    (fFma (fNeg lr) d1 w, m1, v)

/-- A BF16 word as FP32 bits (R251). -/
def bfToF32 (x : Nat) : Nat := toF32 (fBf16.decode x)

/-- Stores an FP32 value in BF16 with stochastic rounding; whether it is non-finite or overflows (R252, R253). -/
def sbdStore (sat : Bool) (rho x : Nat) : Nat × Bool :=
  let r := fBf16.store sat rst rho (ofF32 x)
  (r.bits, r.ovf || !(fFinite x))

/-- Updates one shard element in memory; whether its reads met an uncorrectable block, and its non-finite values. -/
def State.updOne (s : State) (u : Update) (i : Nat) : State × Nat :=
  let act := s.get SBD_BANK.ACTIVE
  let ina := 1 - act
  let j := u.get SBD_SHARD_FIRST.VALUE + i
  let h := u.hset i
  let opt := u.get (SBD_HSET_CTRL.OPT h)
  let adam := opt == 1 || opt == 2
  let rd := fun a n => s.leA true a n
  let clip := if u.clipOn then u.get SBD_NORM.CLIP else fOne
  let (w, m, v) := updElem opt (u.get (SBD_HSET_LR.LR h)) (u.get (SBD_HSET_LR.WD h)) (u.get (SBD_HSET_BETA.BETA1 h))
    (u.get (SBD_HSET_BETA.BETA2 h)) (u.get (SBD_HSET_EPS.EPS h)) (u.get (SBD_HSET_EPS.GSCALE h)) u.t clip
    (bfToF32 (rd (u.get (SBD_WBANK.ADDR act) + 2 * j) 2)) (bfToF32 (rd (u.get (SBD_MBANK.ADDR act) + 2 * i) 2))
    (if adam then bfToF32 (rd (u.get (SBD_VBANK.ADDR act) + 2 * i) 2) else 0) (rd (u.get SBD_GRAD_BASE.ADDR + 4 * i) 4)
  let sat := u.get SBD_CTRL.SAT == 1
  let rho := fun d => cgBits (s.word NUM_CG_SEED.reg).toNat u.step 0xFFFFFFFF d j (j / 1024) (u.get SBD_RNG_ID.ID) 3
  let (w1, nw) := sbdStore sat (rho 0) w
  let (m1, nm) := sbdStore sat (rho 1) m
  let (v1, nv) := sbdStore sat (rho 2) v
  let s1 := (s.wr! true (u.get (SBD_WBANK.ADDR ina) + 2 * j) (leBytes 2 w1)).wr! true (u.get (SBD_MBANK.ADDR ina) + 2 * i) (leBytes 2 m1)
  let s2 := if adam then s1.wr! true (u.get (SBD_VBANK.ADDR ina) + 2 * i) (leBytes 2 v1) else s1
  (s2, b2n nw + b2n nm + b2n (adam && nv))

/-- The chunk sum of R301: the end-around-carry sum of little-endian 64-bit words. -/
def eac (a b : Nat) : Nat := (a + b) % 2 ^ 64 + (a + b) / 2 ^ 64

def words64 : Nat → List Byte → List Nat
  | 0, _ => []
  | f + 1, l => if l.isEmpty then [] else leNat (l.take 8) :: words64 f (l.drop 8)

/-- Modulo 2^64 − 1: an all-ones sum is zero. -/
def chunkSum (l : List Byte) : Nat := (words64 (l.length + 1) l).foldl eac 0 % (2 ^ 64 - 1)

/-- The uncorrectable blocks that the reads of a stretch of shard elements meet (R264). Only Adam and AdamW segments
read the second moments (R251). -/
def State.updBad (s : State) (u : Update) (i n : Nat) : List Nat :=
  let act := s.get SBD_BANK.ACTIVE
  let v := u.get (SBD_VBANK.ADDR act)
  let adam := fun (k : Nat) => let o := u.get (SBD_HSET_CTRL.OPT (u.hset k)); o == 1 || o == 2
  s.badIn .wrd (u.get (SBD_WBANK.ADDR act) + 2 * (u.get SBD_SHARD_FIRST.VALUE + i)) (2 * n) ++
    s.badIn .wrd (u.get (SBD_MBANK.ADDR act) + 2 * i) (2 * n) ++ s.badIn .wrd (u.get SBD_GRAD_BASE.ADDR + 4 * i) (4 * n) ++
    (s.badIn .wrd (v + 2 * i) (2 * n)).filter (fun blk => (List.range 256).any (fun e =>
      let k := (blk * 512 + 2 * e - v) / 2
      decide (v ≤ blk * 512 + 2 * e) && decide (i ≤ k) && decide (k < i + n) && adam k))

/-- UPDATE_CHUNK_DONE: the next chunk of the shard is written and sent out (R261 step 5, R264, R301). -/
def execUpdateChunkDone (ue : Bool) (s : State) : Out := act s fun s =>
  match s.upd with
  | none => s
  | some u =>
    let total := u.get SBD_SHARD_COUNT.VALUE
    if s.get SBD_STATUS.STATE ≠ 3 ∨ u.bad = true ∨ u.next ≥ total then s
    else
      let n := min 524288 (total - u.next)
      let bad := s.updBad u u.next n
      if ue || !bad.isEmpty then (bad.foldl (fun s k => s.wrdUe k none false) s).abandon SBD_EVENT.UPDATE_FAILED u.next (u.hset u.next)
      else
        let (s1, nf) := (List.range n).foldl (fun (a : State × Nat) k =>
          let (t, c) := a.1.updOne u (u.next + k); (t, a.2 + c)) (s, 0)
        let s2 := { s1 with upd := some { u with next := u.next + n, nonfinite := u.nonfinite + nf } }
        let j := u.get SBD_SHARD_FIRST.VALUE + u.next
        let data := (s2.rdA true (u.get (SBD_WBANK.ADDR (1 - s.get SBD_BANK.ACTIVE)) + 2 * j) (2 * n)).getD []
        if s2.redSize = 1 then s2
        else
          let h : BucketHdr :=
            { kind := 4, channel := 0, flags := 0, step := s2.red.voteStep, attempt := s2.red.voteAtt, owner := s2.redRank,
              sender := s2.redRank, contrib := 1, bucket := 0, e := 0, maxexp := 0, first := j, count := n, nonfinite := 0,
              trunc := 0, checksum := chunkSum data, errsum := 0 }
          State.redBody (data.length / 4080 + 1) (s2.sendHeader (s2.get RED_RING.NEXT) h) (s2.get RED_RING.NEXT) h data

/-- SBD_UPDATE_DONE: the shard is written; gathering goes on (R253, R261). -/
def execSbdUpdateDone (s : State) : Out := act s fun s =>
  match s.upd with
  | none => s
  | some u =>
    if s.get SBD_STATUS.STATE = 3 ∧ u.bad = false ∧ u.get SBD_SHARD_COUNT.VALUE ≤ u.next then
      let s1 := { (s.put SBD_STATUS.STATE 4) with upd := some { u with own := true } }
      let s2 := s1.put SBD_UPDATE_STATS.NONFINITE_LAST (min 0xFFFF u.nonfinite)
      if u.nonfinite = 0 then s2 else s2.sbdRecord 1 SBD_EVENT.NONFINITE_OUT 0
    else s

/-- Chunks that the other owners send. -/
def State.chunksDue (s : State) : Nat :=
  (List.range s.redSize).foldl (fun n r =>
    if r = s.redRank then n else n + (s.shardFirst (r + 1) - s.shardFirst r + 524287) / 524288) 0

/-- Whether a chunk belongs to the update of the vote in progress. A chunk may arrive before this device has the COMMIT. -/
def State.chunkCur (s : State) (h : BucketHdr) : Bool :=
  h.step == s.red.voteStep && h.attempt == s.red.voteAtt && (s.red.vkind == 1 || s.red.contributed.isSome)

/-- A chunk of another owner's shard is checked and written into the inactive weight bank (R301). -/
def State.gatherIn (s : State) (h : BucketHdr) (data : List Byte) (ue : Bool) : State :=
  if s.chunkCur h = false ∨ s.red.gathered.contains h.first = true then s
  else if chunkSum data ≠ h.checksum % 2 ^ 64 ∨ ue = true then
    let s1 := (s.setF RED_EVENT.GATHER_BAD).raise s.runTag
      { unit := unitId 9 0xFFF, cls := 4, reason := 0x0900 + RED_EVENT.GATHER_BAD.lo, ctx := 0, detail := s.redDetail 0 0 h.owner }
    s1.modRed (fun r => { r with gatherBad := true })
  else
    (s.wr! true (s.sbd (SBD_WBANK.ADDR (1 - s.get SBD_BANK.ACTIVE)) + 2 * h.first) data).modRed (fun r => { r with
      gathered := r.gathered ++ [h.first] })

/-- GATHER_CHUNK (R301): a chunk arrives; whatever the check says, it goes on to the next rank unless that is its owner. A
device in replay sends nothing (R414). -/
def execGatherChunk (h : BucketHdr) (data : List Byte) (ue : Bool) (s : State) : Out := act s fun s =>
  if s.replay = true ∨ h.owner = s.redRank then s
  else
    let s1 := s.gatherIn h data ue
    if (s1.redRank + 1) % s1.redSize = h.owner then s1
    else State.redBody (data.length / 4080 + 1) (s1.sendHeader (s1.get RED_RING.NEXT) h) (s1.get RED_RING.NEXT) h data

/-! ## Flip, refresh, rollback -/

/-- The values of parameters as a list of elements of a weight bank. -/
def State.weights (s : State) (base first n : Nat) : List Nat := (List.range n).map (fun k => s.leA true (base + 2 * (first + k)) 2)

/-- The bytes that a refresh entry writes (R267). -/
def refreshBytes (fmt : Nat) (ws : List Nat) : List Byte :=
  if fmt = 2 then packElems 16 ws
  else if isMx fmt then
    ((List.range (ws.length / 1024)).map (fun b =>
      let rows := (List.range 32).map (fun r => storeMx fmt rne [] (((ws.drop (1024 * b + 32 * r)).take 32).map fBf16.decode))
      packElems (elemBits fmt) ((rows.map (fun x => x.2.map Rnd.bits)).flatten) ++ rows.map (fun x => BitVec.ofNat 8 x.1))).flatten
  else packElems (elemBits fmt) (ws.map (fun w => (storeAs fmt true rne 0 (fBf16.decode w)).bits))

/-- Writes every working copy from the active bank (R267). -/
def State.refreshAll (s : State) : State :=
  let base := s.sbd (SBD_WBANK.ADDR (s.get SBD_BANK.ACTIVE))
  (s.refTable (s.sbd SBD_REFRESH.ADDR) (s.sbd SBD_REFRESH.ENTRIES)).foldl
    (fun s r => s.wr! true r.addr (refreshBytes r.format (s.weights base r.first r.count))) s

/-- Step 7 of Table 09.2, and the loss average (R260, R261). -/
def State.flip (s : State) : State :=
  match s.upd with
  | none => s
  | some u =>
    let act := s.get SBD_BANK.ACTIVE
    let s1 := (((s.put (SBD_BANK_T.T (1 - act)) u.t).put SBD_BANK.ACTIVE (1 - act)).clrF SBD_BANK.ROLLED).incSat SBD_UPDATE_STATS.COMMITS
    let sum := s.get SBD_LOSS.SUM
    let s2 := if fFinite sum then
        (if s.on SBD_LOSS_EMA.VALID then s1.put SBD_LOSS_EMA.EMA
            (fFma (u.get SBD_LOSS_CTRL.ALPHA) (fSub sum (s.get SBD_LOSS_EMA.EMA)) (s.get SBD_LOSS_EMA.EMA))
         else (s1.put SBD_LOSS_EMA.EMA sum).setF SBD_LOSS_EMA.VALID)
      else s1
    (s2.put SBD_STATUS.STATE 5).modCkp (fun c => { c with due := true })

/-- Whether the guarded SBD writes are performed now (R266). -/
def State.sbdFree (s : State) : Bool := s.get SBD_STATUS.STATE == 0 && s.on FAB_STATUS.IDLE

/-- A guarded SBD write that is not performed (R266, R483). -/
def State.sbdRefuse (s : State) (iss : Issuer) (off : Nat) : State := (s.setF SBD_EVENT.REFUSED).regRefusal iss off

/-- A ROLLBACK write (R266). -/
def State.doRollback (s : State) (iss : Issuer) : State :=
  if s.sbdFree && !(s.on SBD_BANK.ROLLED) then
    ((s.put SBD_BANK.ACTIVE (1 - s.get SBD_BANK.ACTIVE)).setF SBD_BANK.ROLLED).put SBD_STATUS.STATE 5
  else s.sbdRefuse iss SBD_CTRL.reg

/-- ROLLBACK (R266). -/
def execRollback (iss : Issuer) (s : State) : Out := act s fun s => s.doRollback iss

/-- A REFRESH write (R266). -/
def State.doRefresh (s : State) (iss : Issuer) : State :=
  if s.sbdFree then s.put SBD_STATUS.STATE 5 else s.sbdRefuse iss SBD_CTRL.reg

/-- SBD_REFRESH (R266). -/
def execSbdRefresh (iss : Issuer) (s : State) : Out := act s fun s => s.doRefresh iss

/-- A write of SBD_BANK_T (R266). -/
def State.bankTWrite (s : State) (iss : Issuer) (b t : Nat) : State :=
  if b ≥ 2 ∨ t % 2 ^ 32 = s.get (SBD_BANK_T.T b) then s
  else if s.sbdFree then s.put (SBD_BANK_T.T b) t else s.sbdRefuse iss (SBD_BANK_T.reg b)

/-- SBD_BANK_T_WRITE (R266). -/
def execSbdBankTWrite (iss : Issuer) (b t : Nat) (s : State) : Out := act s fun s => s.bankTWrite iss b t

/-- A write of SBD_LOSS_EMA.VALID (R266). -/
def State.emaWrite (s : State) (iss : Issuer) (v : Bool) : State :=
  if v = s.on SBD_LOSS_EMA.VALID then s
  else if s.sbdFree then s.put SBD_LOSS_EMA.VALID (b2n v) else s.sbdRefuse iss SBD_LOSS_EMA.reg

/-- LOSS_EMA_WRITE (R266). -/
def execLossEmaWrite (iss : Issuer) (valid : Bool) (s : State) : Out := act s fun s => s.emaWrite iss valid

/-! ## The loss (R257) -/

/-- Adds one loss value to a sum of FP32 additions in ascending order. -/
def State.lossAdd (s : State) : State :=
  let tile := s.get SBD_LOSS_WIN.TILE
  let off := s.get SBD_LOSS_WIN.OFFSET
  let n := s.get SBD_LOSS_WIN.COUNT
  match s.phys tile with
  | none => s.sbdRecord 1 SBD_EVENT.CONFIG_ERR 0
  | some p =>
    if off + 4 * n > 0xC0000 then s.sbdRecord 1 SBD_EVENT.CONFIG_ERR 0
    else if s.replay then s
    else
      let s0 := (s.badIn .sp (p * 0xC0000 + off) (4 * n)).foldl (fun s u => s.spUe (u * 8 / 0xC0000) (u * 8 % 0xC0000) s.runNow) s
      let sum := (List.range n).foldl (fun a k => fAdd a (s.leA true (spAddr tile (off + 4 * k)) 4)) (s.get SBD_LOSS.SUM)
      (s0.put SBD_LOSS.SUM sum).put SBD_LOSS_COUNT.VALUES (s.get SBD_LOSS_COUNT.VALUES + n)

end Sys2Proof.Machine
end

