-- ==== Sys2Proof/Machine/Vote.lean ====
section
/-! DEFINITION. The commit vote of the job (R31, R259, R294 to R300). -/

namespace Sys2Proof.Machine

/-! ## Messages (Table 10.3) -/

/-- A vote message as the 32-byte body of a SYNC packet. -/
def State.voteBody (s : State) (m : VoteMsg) : List Byte :=
  leBytes 4 m.step ++ leBytes 2 m.attempt ++ leBytes 1 m.round ++ leBytes 1 m.kind ++ leBytes 1 m.flags ++ leBytes 1 m.outcome ++
    leBytes 2 m.count ++ leBytes 4 0 ++ leBytes 8 s.compact ++ leBytes 8 0

/-- Sends a vote message to a device of the job (R295, R333). -/
def State.voteSend (s : State) (dst : Nat) (m : VoteMsg) : State := s.flpOr (unitId 9 0xFFF) 0 dst 0x20 [1] (s.voteBody m)

/-- Whether a message belongs to the round in progress. -/
def State.voteCur (s : State) (m : VoteMsg) : Bool :=
  m.step == s.red.voteStep && m.attempt == s.red.voteAtt && m.round == s.red.round

/-- The devices of the job. -/
def State.jobSize (s : State) : Nat := s.extent 0 * s.extent 1 * s.extent 2

/-! ## Outcomes (R297 to R299) -/

/-- ANOMALY of both status words follows their flags and the mask (R122). -/
def State.anomalyBits (s : State) : State :=
  let bit_ := fun (o : Nat) => b2n (((s.word o).toNat % 128 &&& s.get NUM_ANOMALY_MASK.MASK) != 0)
  (s.put NUM_STATUS.ANOMALY (bit_ NUM_STATUS.reg)).put NUM_STATUS_GEN.ANOMALY (bit_ NUM_STATUS_GEN.reg)

/-- The sticky numerics bits of every Bench and of NUM_STATUS are cleared, with those that are on their way there; STEP
stays (R121). -/
def State.clearNum (s : State) : State :=
  let s1 := s.setWord NUM_STATUS.reg (fput 0 63 32 (s.get NUM_STATUS.STEP))
  let quiet := fun (g : Msg) => match g with
    | .done r reps => if r.kind = 3 then g else .done r (reps.map (fun x => (x.1, 0)))
    | g => g
  { s1 with
    regs := s1.regs.filter (fun e => !(decide (0x1000000 ≤ e.1) && e.1 % 0x1000 == 0x40))
    benches := ((s.benches.map (fun (x : Nat × Bench) => (x.1, { x.2 with report := 0 }))).filter (fun x => x.2 != {}))
    fab := { s.fab with micros := s.fab.micros.map (fun m => if m.run.kind = 3 then m else { m with flags := 0 }) }
    mesh := s.mesh.mapMsg quiet }

/-- The windows of every bucket after COMMIT or SKIP (R282). -/
def State.updateWindows (s : State) : State :=
  if s.get RED_GROUP.MODE = 1 then
    (List.range s.red.tab.length).foldl (fun s i => s.setWindow i true (windowFor (s.bucket i).maxexp)) s
  else s

/-- The windows after a REPEAT with WINDOW (R282). -/
def State.clearWindows (s : State) : State :=
  (List.range s.red.tab.length).foldl (fun s i => s.setWindow i false (s.ent i).window) s

/-- The vote's status registers at an outcome, and its event (R300, R388). -/
def State.voteReport (s : State) (outcome flags : Nat) : State :=
  let s1 := (((s.put RED_VOTE_STATUS.OUTCOME outcome).put RED_VOTE_STATUS.STATE (if outcome = 1 then 2 else 0)).put RED_VOTE_FLAGS.GLOBAL flags)
  s1.event 1 (leBytes 4 s.red.voteStep ++ leBytes 2 s.red.voteAtt ++ leBytes 1 s.red.round ++ leBytes 1 outcome ++ leBytes 1 flags) []

/-- The round is over: its messages are dropped. -/
def State.voteNext (s : State) (round kind : Nat) : State :=
  (s.modRas (fun r => { r with judged := false })).modRed (fun r => { r with
    round := round, vkind := kind, contributed := none, sentUp := false, waitRevote := false, timedOut := false,
    ups := r.ups.filter (fun u => !(s.voteCur u.2 && u.2.kind == s.red.vkind)) })

/-- A REPEAT of the step (R121, R257, R282, R297). -/
def State.repeatStep (s : State) (flags : Nat) : State :=
  let s1 := if bit flags 3 then s.clearWindows else s
  let s2 := ((s1.clearNum.put SBD_LOSS.SUM 0).put SBD_LOSS_COUNT.VALUES 0).put SBD_STATUS.STATE 0
  (({ s2 with upd := none } : State).voteNext 0 0).enterAttempt s.red.voteStep ((s.red.voteAtt + 1) % 65536)

/-- Applies an outcome of VOTE, without the next round's contribution (R297, R299). -/
def State.applyOutcome (s : State) (outcome flags : Nat) : State :=
  let s0 := s.voteReport outcome flags
  if outcome = 1 then
    let s1 := (s0.updateWindows.enterAttempt ((s.red.voteStep + 1) % 2 ^ 32) 0).voteNext s.red.round 1
    s1.startUpdate s.red.voteStep
  else if outcome = 2 then s0.repeatStep flags
  else if outcome = 4 then
    let s1 := (((s0.updateWindows.incSat SBD_UPDATE_STATS.SKIPS).setF SBD_EVENT.SKIPPED).put SBD_STATUS.STATE 0)
    (s1.voteNext 0 0).enterAttempt ((s.red.voteStep + 1) % 2 ^ 32) 0
  else if outcome = 5 then s0.flip.voteNext 0 0
  else if outcome = 3 then
    let was := s.red.contributed.getD 0
    let s1 := s0.voteNext (s.red.round + 1) 0
    s1.modRed (fun r => { r with waitRevote := bit was 1, flags := r.flags &&& fNonfinite })
  else s

/-- This device contributes to the round in progress (R296, R298, R299). -/
def State.contributeNow (s : State) (flags : Nat) : State :=
  let s1 := s.modRed (fun r => { r with
    contributed := some flags, stamp := s.now, timedOut := false, voted := r.voted || r.vkind == 0
    gathered := if r.vkind = 0 then [] else r.gathered
    gatherBad := r.vkind != 0 && r.gatherBad })
  ((((((s1.put RED_VOTE_STATUS.STEP s.red.voteStep).put RED_VOTE_STATUS.ATTEMPT s.red.voteAtt).put RED_VOTE_STATUS.ROUND s.red.round).put
    RED_VOTE_STATUS.OUTCOME 0).put RED_VOTE_STATUS.STATE (if s.red.vkind = 1 then 2 else 1)).put RED_VOTE_FLAGS.LOCAL flags)

/-- The outcome that the root decides (R297, R299, Table 01.6). -/
def decideOutcome (kind flags : Nat) : Nat :=
  if kind = 1 then (if bit flags 4 then 2 else 5)
  else if bit flags 0 then 2 else if bit flags 1 then 3 else if bit flags 2 then 4 else 1

/-- Takes an outcome: it goes down to every child and is applied; after HELD, a device that is not suspect contributes
the next round at once (R294, R298), and one whose suspect table has overflowed does as Desk firmware's REVOTE with
MISMATCH = 1 (R409). -/
def State.takeOutcome (s : State) (outcome flags : Nat) : State :=
  let m : VoteMsg := { step := s.red.voteStep, attempt := s.red.voteAtt, round := s.red.round, kind := 2, flags := flags, outcome := outcome, count := 0 }
  let s1 := (s.children.foldl (fun s c => s.voteSend c m) s).applyOutcome outcome flags
  if outcome ≠ 3 then s1
  else if s1.red.waitRevote = false then s1.contributeNow (s1.red.flags &&& fNonfinite)
  else if s1.ras.overflow then (s1.modRed (fun r => { r with waitRevote := false })).contributeNow ((s1.red.flags &&& fNonfinite) ||| fRepeat)
  else s1

/-- The own contribution and every child's are in: the subtree's goes up, or the root decides (R294, R295). -/
def State.voteStep1 (s : State) : State :=
  match s.red.contributed with
  | none => s
  | some own =>
    let kids := s.children
    let mine := fun (c : Nat) => s.red.ups.find? (fun u => u.1 == c && s.voteCur u.2 && u.2.kind == s.red.vkind)
    if s.red.sentUp || kids.any (fun c => (mine c).isNone) then s
    else
      let flags := kids.foldl (fun f c => f ||| (((mine c).map (fun u => u.2.flags)).getD 0)) own
      let count := kids.foldl (fun n c => n + (((mine c).map (fun u => u.2.count)).getD 0)) 1
      match s.parent with
      | some p =>
        (s.modRed (fun r => { r with sentUp := true })).voteSend p
          { step := s.red.voteStep, attempt := s.red.voteAtt, round := s.red.round, kind := s.red.vkind, flags := flags, outcome := 0, count := count }
      | none => if count = s.jobSize then s.takeOutcome (decideOutcome s.red.vkind flags) flags else s

/-- The round moves as far as it can: after a HELD outcome that the root takes, its next round may follow. -/
def State.voteStep (s : State) : State :=
  let s1 := s.voteStep1
  if s1.red.round = s.red.round then s1 else s1.voteStep1

/-! ## The checks (R122, R256, R259) -/

/-- The checks that precede the contribution of round 0. -/
def State.voteChecks (s : State) : State :=
  let s1 := if s.on SBD_CLIP.EN && !(s.clipOn) then s.setF SBD_EVENT.CONFIG_ERR else s
  let sum := s.get SBD_LOSS.SUM
  let spike := s.on SBD_LOSS_WIN.EN && (!(fFinite sum) || fGt sum (s.get SBD_LOSS_LIMIT.LIMIT) ||
    (s.on SBD_LOSS_EMA.VALID && fGt sum (fMul (s.get SBD_LOSS_LIMIT.RATIO) (s.get SBD_LOSS_EMA.EMA))))
  let s2 := if spike then
      let skip := s.on SBD_LOSS_CTRL.SPIKE_SKIP
      let t := s1.sbdRecord (if skip then 2 else 1) SBD_EVENT.LOSS_SPIKE 0
      if skip then t.contribute fNonfinite else t
    else s1
  let bins := (List.range 32).foldl (fun a b => if s.get SBD_HIST_LIMIT.FROM_BIN ≤ b then min 0xFFFFFFFF (a + s.get (histFld b)) else a) 0
  let s3 := if bins > s.get SBD_HIST_LIMIT.LIMIT then
      let skip := s.on SBD_LOSS_CTRL.HIST_SKIP
      let t := s2.sbdRecord (if skip then 2 else 1) SBD_EVENT.GRAD_HIGH 0
      if skip then t.contribute fNonfinite else t
    else s2
  let s4 := if s.on NUM_STATUS.RESIDUE then s3.contribute fSuspect else s3
  if s.on NUM_STATUS.ANOMALY then s4.suspect (unitId 0 0xFFF) (s.red.runNext - 1) 0 else s4

/-- Whether the first round of the attempt is due (R296). -/
def State.voteDue (s : State) : Bool :=
  let bs := List.range s.red.tab.length
  !(s.red.voted) && s.red.contributed.isNone && s.red.vkind == 0 && !s.replay && (decide (s.red.runNext ≠ 0) || bit s.red.flags 0) &&
    (bit s.myFlags 0 ||
      (if s.red.tab.isEmpty then s.red.drainDone
       else bs.all (fun i => (s.bucket i).incomplete || ((s.bucket i).closed && (!(s.scanOn) || (s.bucket i).scanned))) &&
         (!(s.clipOn) || s.red.normDone)))

/-! ## The rows -/

/-- VOTE_CONTRIBUTE (R296). -/
def execVoteContribute (s : State) : Out := act s fun s =>
  if s.voteDue then
    let s1 := (s.voteChecks.put SBD_STATUS.STATE 2).modRed (fun r => { r with
      voteStep := s.get RED_STATUS.STEP, voteAtt := s.get RED_STATUS.ATTEMPT, round := 0, vkind := 0 })
    (s1.contributeNow s1.myFlags).voteStep
  else s

/-- VOTE_UP (R294, R295). -/
def execVoteUp (child : Nat) (m : VoteMsg) (s : State) : Out := act s fun s =>
  if s.children.contains child && decide (m.kind ≤ 1) &&
      !(s.red.ups.any (fun u => u.1 == child && u.2.step == m.step && u.2.attempt == m.attempt && u.2.round == m.round && u.2.kind == m.kind)) then
    (s.modRed (fun r => { r with ups := r.ups ++ [(child, m)] })).voteStep
  else s

/-- VOTE_OUTCOME (R297 to R299): an outcome of the round in progress from the parent. -/
def execVoteOutcome (m : VoteMsg) (s : State) : Out := act s fun s =>
  if m.kind == 2 && s.voteCur m && s.red.sentUp && s.parent.isSome &&
      (if s.red.vkind = 1 then m.outcome == 5 || m.outcome == 2 else decide (1 ≤ m.outcome) && decide (m.outcome ≤ 4)) then
    (s.takeOutcome m.outcome m.flags).voteStep
  else s

/-- A REVOTE write (R298). -/
def State.doRevote (s : State) (mismatch : Bool) : State :=
  if s.red.waitRevote then
    ((s.modRed (fun r => { r with waitRevote := false })).contributeNow ((s.red.flags &&& fNonfinite) ||| b2n mismatch)).voteStep
  else s

/-- REVOTE (R298). -/
def execRevote (_iss : Issuer) (mismatch : Bool) (s : State) : Out := act s fun s => s.doRevote mismatch

/-- CONFIRM (R299): the update and every gathered chunk are in, or the update is abandoned. -/
def execConfirm (s : State) : Out := act s fun s =>
  match s.upd with
  | none => s
  | some u =>
    if s.red.vkind = 1 ∧ s.red.contributed = none then
      if u.bad || s.red.gatherBad then (s.contributeNow fAbandon).voteStep
      else if s.get SBD_STATUS.STATE = 4 ∧ s.chunksDue ≤ s.red.gathered.length then (s.contributeNow 0).voteStep
      else s
    else s

/-- VOTE_TIMEOUT (R300). -/
def execVoteTimeout (s : State) : Out := act s fun s =>
  if s.red.contributed.isSome ∧ s.red.timedOut = false ∧ s.red.stamp + s.get RED_VOTE_CTRL.TIMEOUT ≤ s.now then
    (s.modRed (fun r => { r with timedOut := true })).redRecord 1 RED_EVENT.VOTE_TIMEOUT (s.redDetail 0 0 0)
  else s

end Sys2Proof.Machine
end

