-- ==== Sys2Proof/Machine/Routes.lean ====
section
/-! DEFINITION. Bench records as the device reads them, the micro-batch being fed, capture and digests, and what a
Bench sends on its route entries (R76, R211 to R237, R323 to R330, R410 to R412). -/

namespace Sys2Proof.Machine

/-! ## Bench records in drawer storage -/

/-- The record of a physical Bench in a drawer. -/
def State.view (s : State) (p d : Nat) : View := ⟨s.drw, (p * 4 + d) * 0x3000⟩

/-- The record of a logical tile in a valid drawer. -/
def State.planeAt (s : State) (d tile : Nat) : Option View :=
  if s.on (FAB_DRAWER.VALID d) then (s.phys tile).map (fun p => s.view p d) else none

/-- The active drawer. -/
def State.active (s : State) : Nat := s.get FAB_STATUS.ACTIVE_DRAWER

/-- The image that owns a drawer (Table 03.7). -/
def State.owner (s : State) (d : Nat) : Option Image :=
  if s.on (FAB_DRAWER.VALID d) then (if s.on (FAB_DRAWER.OWNER d) then s.staged else s.resident) else none

/-- The micro-batch that the input agents feed: the oldest whose boundary token they have not sent (R76, R230). -/
def State.feeding (s : State) : Option Micro := s.fab.micros.find? (fun m => !m.tokenSent)

/-- Logical tiles whose record in a drawer takes part (Table 03.4: MODE is not zero). -/
def State.members (s : State) (d : Nat) : List (Nat × View) :=
  (List.range 1024).filterMap (fun t => (s.planeAt d t).bind (fun v => if v.mode = 0 then none else some (t, v)))

/-- The consumers of a queue in a drawer: tile, binding and route (R219). -/
def State.consumersOf (s : State) (d q : Nat) : List (Nat × Nat × Nat) :=
  (s.members d).filterMap (fun m =>
    ((List.range m.2.queueBinds).find? (fun i => m.2.qRole i == 1 && m.2.qQueue i == q)).map (fun i => (m.1, i, m.2.qRoute i)))

/-- The PRODUCE bindings of a queue in a drawer: tile and route. -/
def State.producersOf (s : State) (d q : Nat) : List (Nat × Nat) :=
  ((s.members d).map (fun m =>
    (List.range m.2.queueBinds).filterMap (fun i => if m.2.qRole i = 2 ∧ m.2.qQueue i = q then some (m.1, m.2.qRoute i) else none))).flatten

/-- Whether a drawer's plane binds a queue. -/
def State.binds (s : State) (d q : Nat) : Bool :=
  (s.members d).any (fun m => (List.range m.2.queueBinds).any (fun i => m.2.qRole i != 0 && m.2.qQueue i == q))

/-! ## Capture (R410) -/

/-- The RUN index in force for a captured input: that of the RUN that started last. -/
def State.lastRun (s : State) : Nat := s.red.runNext - 1

/-- Whether an input belongs to a RUN on a drawer of PLANE_KIND 3, which adds nothing to the capture area (R239): a packet of
a queue that only such drawers bind, and, where others bind it too, and for every other input, what the drawer in the fabric
is (log 31). -/
def State.genInput (s : State) (kind unit : Nat) : Bool :=
  let gen := fun (d : Nat) => s.get (FAB_DRAWER.KIND d) == 3
  let users := (List.range 4).filter (fun d => s.binds d unit)
  if kind = 1 ∧ users.any (fun d => gen d != gen s.active) = true ∧ users.contains s.active = false then !(gen s.active) else gen s.active

/-- Appends one capture record. `extra` fills bytes 16 to 63. -/
def State.capture (s : State) (kind unit tile mb : Nat) (extra data : List Byte) : State :=
  if s.on RAS_CTRL.CAPTURE && !s.replay && !s.ras.capStop && !(s.genInput kind unit) then
    let used := s.get RAS_CAPTURE_USED.BYTES
    let rec' := padTo 64 (leBytes 4 s.lastRun ++ leBytes 1 kind ++ leBytes 1 unit ++ leBytes 2 tile ++ leBytes 4 data.length ++
      leBytes 4 mb ++ padTo 48 extra) ++ padTo ((data.length + 63) / 64 * 64) data
    if used + rec'.length ≤ s.get RAS_CAPTURE.MIB * 2 ^ 20 then
      (s.wr! true (s.get RAS_CAPTURE.BASE + used) rec').put RAS_CAPTURE_USED.BYTES (used + rec'.length)
    else (s.setF RAS_EVENT.CAPTURE_FULL).modRas (fun r => { r with capStop := true })
  else s

/-! ## The digest of a RUN (R411, R412) -/

def rotl64 (v n : Nat) : Nat := (v * 2 ^ n + v / 2 ^ (64 - n)) % 2 ^ 64

/-- Adds a payload with key `k` to a digest. -/
def digestAdd (d k : Nat) (data : List Byte) : Nat :=
  ((words64 (data.length + 1) data).zipIdx).foldl (fun d x => eac d (rotl64 (x.1 ^^^ k) (1 + (x.2 + k) % 63))) d

/-- A payload leaves the die from a route entry or a descriptor of a tile (`src`): it joins the RUN's digest with the
next packet index of that source. -/
def State.digest (s : State) (tile src : Nat) (data : List Byte) : State :=
  match s.phys tile with
  | none => s
  | some p =>
    let idx := SMap.get (s.bench p).pkIdx 0 src
    let k := tile * 2 ^ 48 + src * 2 ^ 40 + idx % 2 ^ 40
    let s1 := s.modBench p (fun b => { b with pkIdx := SMap.set b.pkIdx 0 src (idx + 1) })
    match s.fab.micros.find? (fun m => !(m.done.contains tile)) with
    | none => s1
    | some m0 => s1.modFab (fun f => { f with
        micros := f.micros.map (fun m => if m.run = m0.run then { m with digest := digestAdd m.digest k data } else m) })

/-! ## Queue packets to other devices (R323 to R326) -/

/-- The FIELDS of a QUEUE_OPEN (Table 11.9). -/
def openFields (q : Nat) (r : OpenReq) : List Byte :=
  leBytes 1 q ++ leBytes 1 (b2n r.isEnd) ++ leBytes 2 r.words ++ leBytes 4 r.step ++ leBytes 4 r.mb ++ leBytes 4 r.tokens

/-- Sends the open of the oldest waiting packet of each pair that has none outstanding. Where no route leads there the packet
is discarded with its record (R320). -/
def State.askOpens (s : State) : State :=
  s.opens.foldl (fun s o =>
    let busy := s.opens.any (fun x => x.dev == o.dev && x.queue == o.queue && x.st != 2)
    if o.st = 2 ∧ busy = false then
      let s1 := { s with opens := s.opens.erase o }
      if s.reaches o.dev then
        ({ s1 with opens := s1.opens ++ [{ o with st := 0, stamp := s.now }] } : State).flpOr (unitId 5 o.queue) s.runTag o.dev 1 (openFields o.queue o.req) []
      else s1.flpOr (unitId 5 o.queue) s.runTag o.dev 1 (openFields o.queue o.req) []
    else s) s

/-- A packet for a queue of another device (R323). -/
def State.openOut (s : State) (dev q : Nat) (r : OpenReq) (data : List Byte) : State :=
  ({ s with opens := s.opens ++ [{ dev := dev, queue := q, req := r, data := data, st := 2 }] } : State).askOpens

/-! ## Streams (R329, R330) -/

/-- The key of a credit count. -/
def credKey (entry mb : Nat) : Nat := entry * 2 ^ 32 + mb

/-- Credits of a micro-batch for a sending entry of a tile. -/
def State.credits (s : State) (tile entry mb : Nat) : Nat :=
  match s.phys tile with
  | none => 0
  | some p => SMap.get (s.bench p).strOut 0 (credKey entry mb)

/-- An IN entry of a tile grants credits of a micro-batch to its source. -/
def State.grant (s : State) (tile entry mb n : Nat) (v : View) : State :=
  match s.phys tile with
  | none => s
  | some p =>
    let s1 := s.modBench p (fun b => { b with strIn := SMap.set b.strIn 0 (credKey entry mb) (SMap.get b.strIn 0 (credKey entry mb) + n) })
    if v.rTarget entry = 2 then
      s1.flpOr (unitId 0 p) s.runTag (v.rPeer entry) 0x0A (leBytes 2 (v.rTile entry) ++ leBytes 1 (v.rPeerEntry entry) ++ [0] ++ leBytes 4 mb ++ leBytes 1 n) []
    else
      match s1.phys (v.rTile entry) with
      | none => s1
      | some q => s1.toStop p q (.strCredit (v.rTile entry) (v.rPeerEntry entry) mb n)

/-- Credits of a micro-batch reach a sending entry of a tile. -/
def State.addCredits (s : State) (tile entry mb n : Nat) : State :=
  match s.phys tile with
  | none => s
  | some p => s.modBench p (fun b => { b with
      strOut := SMap.set b.strOut 0 (credKey entry mb) (SMap.get b.strOut 0 (credKey entry mb) + n) })

/-- Spends one credit of a sending entry. -/
def State.spend (s : State) (tile entry mb : Nat) : State :=
  match s.phys tile with
  | none => s
  | some p => s.modBench p (fun b => { b with strOut := SMap.set b.strOut 0 (credKey entry mb) (SMap.get b.strOut 0 (credKey entry mb) - 1) })

/-- A credit that an IN entry of a tile has granted is used by a block on its way. -/
def State.useCredit (s : State) (tile entry mb : Nat) : State :=
  match s.phys tile with
  | none => s
  | some p => s.modBench p (fun b => { b with
      strIn := SMap.set b.strIn 0 (credKey entry mb) (SMap.get b.strIn 0 (credKey entry mb) - 1) })

/-- A block lands on an IN entry of a tile: it waits for the stager that takes it. -/
def State.land (s : State) (tile entry : Nat) (data : List Byte) : State :=
  match s.phys tile with
  | none => s
  | some p => s.modBench p (fun b => { b with landed := b.landed ++ [(entry, data)] })

/-- The link ports send a block that has come from another device into the mesh, toward its IN entry (R27, R330). -/
def State.feedBlock (s : State) (tile entry mb : Nat) (data : List Byte) : State :=
  match s.phys tile with
  | none => s
  | some p => (s.useCredit tile entry mb).fromAgent .linkComplex p (.block tile entry mb data)

/-- The FIELDS of a STREAM packet. -/
def streamFields (v : View) (tile route : Nat) (run : Run) : List Byte :=
  leBytes 2 (v.rTile route) ++ leBytes 1 (v.rPeerEntry route) ++ leBytes 1 route ++ leBytes 4 run.step ++ leBytes 4 run.mb ++ leBytes 2 tile

/-- What a local Bench declares for a queue packet of `n` bytes (R220). -/
def benchReq (run : Run) (n : Nat) : OpenReq := { words := (n + 63) / 64, isEnd := false, step := run.step, mb := run.mb, tokens := 0 }

/-- Whether a tile may send a block on a route entry now: a credit of a stream, or its turn at a queue. -/
def State.canSend (s : State) (v : View) (tile route mb : Nat) : Bool :=
  let k := v.rKind route
  if k = 2 ∨ k = 5 then decide (0 < s.credits tile route mb) || (k == 5 && s.replay)
  else if k = 3 then !((s.queue (v.rTarget route)).wait.any (fun w => w.1 == .bench tile)) &&
    !(s.onMesh (fun g => match g with | .packet q t _ _ => q == v.rTarget route && t == tile | _ => false))
  else if k = 4 then !(s.opens.any (fun o => o.dev == v.rPeer route && o.queue == v.rTarget route && o.st == 2)) &&
    !(s.onMesh (fun g => match g with | .away d q t _ _ => d == v.rPeer route && q == v.rTarget route && t == tile | _ => false))
  else true

/-- Sends one block on a route entry of kind 2 to 5 (R219, R323, R329, R411, R414): a block for a Bench of this die goes to
it, a queue packet to the queue store or to the link complex, and a stream block for another device to the link complex. -/
def State.sendBlock (s : State) (v : View) (tile route : Nat) (run : Run) (data : List Byte) : State :=
  let k := v.rKind route
  let p := (s.phys tile).getD 0
  let r := benchReq run data.length
  if k = 2 then
    match s.phys (v.rTile route) with
    | none => s.spend tile route run.mb
    | some q => ((s.spend tile route run.mb).useCredit (v.rTile route) (v.rPeerEntry route) run.mb).toStop p q
        (.block (v.rTile route) (v.rPeerEntry route) run.mb data)
  else if k = 3 then s.toAgent p .queueStore (.packet (v.rTarget route) tile r (padTo (64 * r.words) data))
  else if k = 4 then
    let s1 := s.digest tile route data
    if s.replay then s1 else s1.toAgent p .linkComplex (.away (v.rPeer route) (v.rTarget route) tile r (padTo (64 * r.words) data))
  else if k = 5 then
    let s1 := s.digest tile route data
    if s.replay then s1 else (s1.spend tile route run.mb).toAgent p .linkComplex (.stream tile route run data)
  else s

/-- Drains a list of FP32 patterns on a REDUCE entry from a parameter index on (R277, R411): they go to the link complex. -/
def State.drainAll (s : State) (v : View) (tile src route first : Nat) (l : List Nat) : State :=
  (s.digest tile src (packElems 32 l)).toAgent ((s.phys tile).getD 0) .linkComplex (.reduce tile (v.rTarget route) first l)

end Sys2Proof.Machine
end

