-- ==== Sys2Proof/Machine/Queues.lean ====
section
/-! DEFINITION. The micro-batch queues, the queue packets of the links, and arriving streams (chapter 08, R211 to
R237, R323 to R330, R485). -/

namespace Sys2Proof.Machine

/-! ## Pointers (R225) -/

def qSpan (a b w : Nat) : Nat := (b + 2 * w - a) % (2 * w)
def qIndex (p w : Nat) : Nat := if p < w then p else p - w
def qAdv (p n w : Nat) : Nat := (p + n) % (2 * w)

/-- Words on die of a queue. -/
def State.qW (s : State) (q : Nat) : Nat := s.get (QUE_Q_CFG.UNITS q) * 1024
/-- Words of its ring. -/
def State.qR (s : State) (q : Nat) : Nat := s.get (QUE_Q_RING.UNITS q) * 1024
/-- The words a packet occupies on die. -/
def QPacket.room (p : QPacket) : Nat := max p.req.words 1

/-- fits(q, n). -/
def State.qFits (s : State) (q n : Nat) : Bool :=
  decide (qSpan (s.get (QUE_Q_PTR.RD q)) (s.get (QUE_Q_PTR2.OP q)) (s.qW q) + max n 1 ≤ s.qW q)

/-- The place in the queue store of the word at a pointer. -/
def State.qWord (s : State) (q p : Nat) : Nat := s.get (QUE_Q_CFG.BASE_UNIT q) * 0x10000 + qIndex p (s.qW q) * 64
/-- The Wardrobe address of the ring word at a pointer. -/
def State.ringWord (s : State) (q p : Nat) : Nat := s.get (QUE_Q_RING.BASE q) * 2 ^ 16 + qIndex p (s.qR q) * 64

/-- The packets in the ring, in any state. -/
def State.ringPks (s : State) (q : Nat) : List QPacket := (s.queue q).pks.filter (fun p => p.ring)
/-- The open packet. -/
def State.openPk (s : State) (q : Nat) : Option QPacket := (s.queue q).pks.find? (fun p => p.st == .opening)

/-- Replaces the first packet that equals `p`. -/
def replacePk (p n : QPacket) : List QPacket → List QPacket
  | [] => []
  | x :: t => if x = p then n :: t else x :: replacePk p n t

def State.setPk (s : State) (q : Nat) (p n : QPacket) : State := s.modQueue q (fun x => { x with pks := replacePk p n x.pks })

/-- A record of unit class 5 (Table 14.3). -/
def State.queRecord (s : State) (tag q seq flag : Nat) : State :=
  s.raise tag { unit := unitId 5 q, cls := 1, reason := 0x0700 + flag, ctx := 0, detail := seq % 2 ^ 32 }

/-! ## Status (R226, R230, R233) -/

/-- Words of a packet sent to a consumer. -/
def QPacket.sentTo (p : QPacket) (tile : Nat) : Nat := SMap.get p.sent 0 tile

/-- Whether every word of a packet has been sent to every consumer. -/
def QPacket.allOut (p : QPacket) (tiles : List Nat) : Bool := tiles.all (fun t => p.req.words ≤ p.sentTo t)

/-- The head packet: the COMMITTED one at DL, behind the packets that have been sent whole (R230). -/
def State.headPk (s : State) (q : Nat) : Option QPacket :=
  (((s.queue q).pks.dropWhile (fun p => p.st == .delivering && p.allOut ((s.consumersOf s.active q).map (·.1)))).head?).bind
    (fun p => if p.st = .committed then some p else none)

/-- The head packet of a queue that the fed drawer consumes carries another micro-batch (R230). -/
def State.headCheck (s : State) (q : Nat) : State :=
  match s.feeding, s.headPk q with
  | some m, some p =>
    if p.req.mb ≠ m.run.mb ∧ (s.consumersOf m.run.drawer q).isEmpty = false ∧ m.run.drawer = s.active then
      let s1 := s.setF (QUE_Q_STATUS.HEAD_MISMATCH q)
      if m.mismatch.contains q then s1
      else ((s1.setF QUE_EVENT.HEAD_MISMATCH).queRecord m.run.tag q p.seq 3).modFab (fun f => { f with
        micros := f.micros.map (fun x => if x.run = m.run then { x with mismatch := q :: x.mismatch } else x) })
    else s.clrF (QUE_Q_STATUS.HEAD_MISMATCH q)
  | _, _ => s.clrF (QUE_Q_STATUS.HEAD_MISMATCH q)

/-- The status register of a queue follows it. -/
def State.queSync (s : State) (q : Nat) : State :=
  let pks := (s.queue q).pks
  let ring := pks.filter (fun p => p.ring)
  let op := s.openPk q
  ((((((s.put (QUE_Q_STATUS.RING_PACKETS q) ring.length).put (QUE_Q_STATUS.ON_DIE_PACKETS q) (pks.length - ring.length)).put
    (QUE_Q_STATUS.SPILL q) (b2n (!ring.isEmpty))).put (QUE_Q_STATUS.OPEN q) (b2n op.isSome)).put
    (QUE_Q_STATUS.OPEN_RING q) (b2n (op.any (fun p => p.ring)))).put (QUE_Q_STATUS.PRODUCER_WAIT q)
    (b2n (!(s.queue q).wait.isEmpty))).headCheck q

/-- Every queue's consumer count and head, after the active drawer or the fed micro-batch has changed. -/
def State.queAll (s : State) : State :=
  (List.range 64).foldl (fun s q =>
    let s1 := s.put (QUE_Q_STATUS.CONSUMERS q) (s.consumersOf s.active q).length
    if s.on (QUE_Q_CFG.EN q) then s1.headCheck q else s1) s

/-! ## Opening (R216, R221, R226) -/

/-- The place of a producer in the cyclic order (R221). -/
def prodOrder : Producer → Nat
  | .link port _ => port
  | .bct ch => 64 + ch
  | .bench tile => 2048 + tile

/-- The producer whose turn it is among those that wait: the first from `turn` on. -/
def pickTurn (turn : Nat) (l : List (Producer × OpenReq × List Byte)) : Option (Producer × OpenReq × List Byte) :=
  let after := l.filter (fun w => decide (turn ≤ (prodOrder w.1)))
  let from' := if after.isEmpty then l else after
  from'.foldl (fun a w => match a with
    | none => some w
    | some b => if (prodOrder w.1) < (prodOrder b.1) then some w else a) none

/-- The source that a producer is (R216). -/
def prodSource : Producer → Nat
  | .bench _ => 0
  | .link _ _ => 1
  | .bct _ => 2

/-- Opens the packet of the producer whose turn it is, if it can open (R221, R226). A flush that waits lets nothing
open (R234). -/
def State.tryOpen (s : State) (q : Nat) : State :=
  let x := s.queue q
  if x.pks.any (fun p => p.st == .opening) || bit (s.get QUE_FLUSH.REQ) q then s
  else
    match pickTurn x.turn x.wait with
    | none => s
    | some w =>
      let r := w.2.1
      let w2 := s.qW q
      let ringW := s.qR q
      let op := s.get (QUE_Q_PTR2.OP q)
      let rw := s.get (QUE_Q_RING_PTR.RING_WR q)
      let rr := s.get (QUE_Q_RING_PTR.RING_RD q)
      let started := fun (s : State) (p : QPacket) =>
        let s1 := s.setQueue q { x with pks := x.pks ++ [p], wait := x.wait.erase w, turn := (prodOrder w.1) + 1, got := 0, lastData := s.now }
        match w.1 with
        | .link port dev => if port = 255 then s1 else s1.flpOr (unitId 5 q) 0 dev 2 [BitVec.ofNat 8 q] []
        | _ => s1
      let pk : QPacket := { st := .opening, ring := false, prod := w.1, req := r, stampO := s.compact, data := w.2.2 }
      if (s.ringPks q).isEmpty ∧ s.qFits q r.words = true then
        started (s.put (QUE_Q_PTR2.OP q) (qAdv op (max r.words 1) w2)) { pk with base := op }
      else if ringW ≠ 0 ∧ qSpan rr rw ringW + (r.words + 1) ≤ ringW then
        started (s.put (QUE_Q_RING_PTR.RING_WR q) (qAdv rw (r.words + 1) ringW)) { pk with base := rw, ring := true }
      else s.setQueue q { x with turn := (prodOrder w.1) }

/-- Rejects an open (R216, R325, R383). -/
def State.rejectOpen (s : State) (q : Nat) (prod : Producer) : State :=
  let s1 := ((s.incSat (QUE_Q_ERR.REJECTED q)).setF QUE_EVENT.REJECTED).queRecord 0 q 0 2
  match prod with
  | .link _ dev => s1.flpOr (unitId 5 q) 0 dev 3 [BitVec.ofNat 8 q, 1] []
  | .bct ch => match s1.hst.pushes.find? (fun (x : Nat × Nat × Nat) => x.1 == ch && x.2.2 == q) with
    | some x => (s1.modHst (fun h => { h with pushes := h.pushes.erase x })).complete ch x.2.1 0x3A
    | none => s1
  | .bench _ => s1

/-- Whether the source check of R216 passes; replay mode takes nothing from links or BCT (R414). -/
def State.openAllowed (s : State) (q : Nat) (prod : Producer) : Bool :=
  s.on (QUE_Q_CFG.EN q) && s.get (QUE_Q_CFG.SOURCE q) == (prodSource prod) && !(s.replay && (prodSource prod) != 0)

/-- A producer asks to open a packet; `data` is what it holds for it. -/
def State.openArrive (s : State) (q : Nat) (prod : Producer) (r : OpenReq) (data : List Byte) : State :=
  if q ≥ 64 ∨ r.words > 1024 then s
  else if s.openAllowed q prod then
    let s1 := if (s.queue q).wait.any (fun w => w.1 == prod && w.2.1 == r) then s
      else s.modQueue q (fun x => { x with wait := x.wait ++ [(prod, r, data)] })
    (s1.tryOpen q).queSync q
  else s.rejectOpen q prod

/-- PACKET_OPEN (R216, R221, R226). -/
def execPacketOpen (q : Nat) (prod : Producer) (r : OpenReq) (s : State) : Out := act s fun s => s.openArrive q prod r []

/-! ## Writing and committing (R223, R227) -/

/-- Writes words of the open packet from its `k`-th word on. -/
def State.putWords : Nat → State → Nat → QPacket → Nat → List Byte → State
  | 0, s, _, _, _, _ => s
  | f + 1, s, q, p, k, l =>
    if l.isEmpty then s
    else
      let w := padTo 64 (l.take 64)
      let s1 := if p.ring then s.wr! true (s.ringWord q (qAdv p.base (1 + k) (s.qR q))) w
        else (s.cow (qstBase + s.qWord q (qAdv p.base k (s.qW q))) 64).wrPhys .qst (s.qWord q (qAdv p.base k (s.qW q))) w
      State.putWords f s1 q p (k + 1) (l.drop 64)

/-- Bytes 0x00 to 0x2F of a notice (Table 08.3). -/
def QPacket.notice (p : QPacket) (q : Nat) : List Byte :=
  let src := match p.prod with
    | .bench t => t
    | .link _ dev => 2 ^ 30 + dev
    | .bct ch => 2 * 2 ^ 30 + ch
  leBytes 4 p.seq ++ leBytes 2 p.req.words ++ leBytes 1 q ++ leBytes 1 (b2n p.req.isEnd + 2 * b2n p.spilled) ++ leBytes 4 p.req.step ++
    leBytes 4 p.req.mb ++ leBytes 4 p.req.tokens ++ leBytes 4 src ++ leBytes 8 p.stampO ++ leBytes 8 p.stampC

/-- The words of a committed packet as the store or the ring holds them. -/
def State.pkBytes (s : State) (q : Nat) (p : QPacket) : List Byte :=
  ((List.range p.req.words).map (fun k =>
    if p.ring then (s.rdA true (s.ringWord q (qAdv p.base (1 + k) (s.qR q))) 64).getD (List.replicate 64 0)
    else Mem.rdN (zeroBad s .qst s.qst) (s.qWord q (qAdv p.base k (s.qW q))) 64)).flatten

/-- The open packet commits (R223). -/
def State.commitPk (s : State) (q : Nat) (p : QPacket) : State :=
  let seq := s.get (QUE_Q_SEQ.NEXT_COMMIT q)
  let n : QPacket := { p with st := if p.ring then .inRing else .committed, seq := seq, stampC := s.compact, spilled := p.ring, data := [] }
  let s1 := (s.setPk q p n).put (QUE_Q_SEQ.NEXT_COMMIT q) (seq + 1)
  let s2 := if p.ring then
      (s1.modQueue q (fun x => { x with ringCommit := s1.get (QUE_Q_RING_PTR.RING_WR q) })).wr! true (s1.ringWord q p.base) (padTo 64 (n.notice q))
    else s1.put (QUE_Q_PTR.WR q) (s1.get (QUE_Q_PTR2.OP q))
  let s3 := match p.prod with
    | .bench _ => s2
    | _ => s2.capture 1 q 0 p.req.mb (n.notice q) (s2.pkBytes q n)
  let s4 := match p.prod with
    | .bct ch => match s3.hst.pushes.find? (fun (x : Nat × Nat × Nat) => x.1 == ch && x.2.2 == q) with
      | some x => (s3.modHst (fun h => { h with pushes := h.pushes.erase x })).finish ch x.2.1 0 seq
      | none => s3
    | _ => s3
  (s4.tryOpen q).queSync q

/-- PACKET_COMMIT (R223): the last words are written; `data` holds those that the model does not hold itself. -/
def execPacketCommit (q : Nat) (data : List Byte) (s : State) : Out := act s fun s =>
  match s.openPk q with
  | none => s
  | some p =>
    let l := if p.data.isEmpty then data else p.data
    let k := (s.queue q).got
    if k + (l.length + 63) / 64 = p.req.words then (State.putWords (l.length + 1) s q p k l).commitPk q p
    else if k = p.req.words then s.commitPk q p
    else s

/-- The open packet of a queue is rewound (R224). -/
def State.rewind (s : State) (q : Nat) : State :=
  match s.openPk q with
  | none => s
  | some p =>
    let s1 := s.modQueue q (fun x => { x with pks := x.pks.filter (fun y => y.st != .opening), got := 0 })
    let s2 := if p.ring then s1.put (QUE_Q_RING_PTR.RING_WR q) (s1.queue q).ringCommit
      else s1.put (QUE_Q_PTR2.OP q) (s1.get (QUE_Q_PTR.WR q))
    ((s2.incSat (QUE_Q_ERR.REWOUND q)).tryOpen q).queSync q

/-! ## The way back from the ring (R228, R229) -/

/-- RING_RETURN (R228). -/
def execRingReturn (q : Nat) (s : State) : Out := act s fun s =>
  match s.ringPks q with
  | [] => s
  | p :: _ =>
    if p.st = .inRing ∧ p.returning = false ∧ (s.openPk q).all (fun o => o.ring) = true ∧ s.qFits q p.req.words = true then
      (s.setPk q p { p with returning := true }).put (QUE_Q_PTR2.OP q) (qAdv (s.get (QUE_Q_PTR2.OP q)) p.room (s.qW q))
    else s

/-- RING_RETURN_DONE (R228, R229): the copy back ends. -/
def execRingReturnDone (q : Nat) (s : State) : Out := act s fun s =>
  match (s.ringPks q).find? (fun p => p.returning) with
  | none => s
  | some p =>
    let base := s.get (QUE_Q_PTR.WR q)
    let segs := (List.range p.req.words).map (fun k => Seg.mk .wrd (s.ringWord q (qAdv p.base (1 + k) (s.qR q))) 64)
    let data := s.pkBytes q p
    let s1 := segs.foldl (fun s g => s.ueOf g s.runNow) s
    let n : QPacket := { p with ring := false, returning := false, st := .committed, spilled := true, base := base }
    let s2 := State.putWords (data.length + 1) (s1.setPk q p n) q n 0 data
    let s3 := (s2.put (QUE_Q_PTR.WR q) (qAdv base p.room (s.qW q))).put (QUE_Q_RING_PTR.RING_RD q)
      (qAdv (s.get (QUE_Q_RING_PTR.RING_RD q)) (p.req.words + 1) (s.qR q))
    (s3.tryOpen q).queSync q

/-! ## Delivery (R230 to R232, R485) -/

/-- Whether a Bench has finished the descriptors of a micro-batch and discards what its routes deliver for it. -/
def State.discards (s : State) (tile mb : Nat) : Bool :=
  ((s.phys tile).map (fun p => (s.bench p).descDone && (s.runAt tile).any (fun r => r.mb == mb))).getD true

/-- The key of a token on a route entry. -/
def tokKey (tile route : Nat) : Nat := tile * 64 + route

/-- Tokens sent to an IN entry and not yet used up by a micro-batch: those that have arrived and those on their way. -/
def State.tokensSent (s : State) (tile route : Nat) : Nat :=
  SMap.get s.fab.tokens 0 (tokKey tile route) + s.mesh.flits.countP (fun f => f.msg == .token tile route)

/-- Whether the input agents have sent every boundary token of a micro-batch: each queue that its drawer consumes has
delivered its END packet, and the link ports have sent each IN entry fed by another device its token (R76, R378). -/
def State.inputsDone (s : State) (m : Micro) : Bool :=
  let mem := s.members m.run.drawer
  mem.all (fun x =>
    (List.range x.2.queueBinds).all (fun i => x.2.qRole i != 1 || m.ended.contains (x.2.qQueue i)) &&
    (List.range x.2.routes).all (fun r =>
      !(bit x.2.tokenIn r) || x.2.rKind r != 1 || x.2.rTarget r != 2 || m.done.contains x.1 ||
        decide ((s.fab.micros.takeWhile (fun y => y != m)).countP (fun y => !(y.done.contains x.1)) < s.tokensSent x.1 r)))

/-- The boundary token of the fed micro-batch is marked as sent, and the queues' heads are judged anew (R230). -/
def State.noteSent (s : State) : State :=
  match s.feeding with
  | none => s
  | some m =>
    if s.inputsDone m then (s.modFab (fun f => { f with micros := f.micros.map (fun x => if x = m then { x with tokenSent := true } else x) })).queAll
    else s

/-- DL moves past the packets that have been sent whole. -/
def State.moveDl (s : State) (q : Nat) (tiles : List Nat) : State :=
  let w := s.qW q
  let pre := ((s.queue q).pks.takeWhile (fun p => p.st == .delivering && p.allOut tiles)).foldl (fun n p => n + p.room) 0
  s.put (QUE_Q_PTR2.DL q) (qAdv (s.get (QUE_Q_PTR.RD q)) pre w)

/-- PACKET_NOTICE (R230, R231): the head packet of the fed micro-batch starts its delivery, with a notice to each
consumer. -/
def execPacketNotice (q : Nat) (s : State) : Out := act s fun s =>
  match s.feeding, s.headPk q with
  | some m, some p =>
    let cons := s.consumersOf s.active q
    let tiles := cons.map (·.1)
    let before := (s.queue q).pks.takeWhile (fun x => x != p)
    if m.run.drawer = s.active ∧ m.run.mb = p.req.mb ∧ cons.isEmpty = false ∧ bit (s.get QUE_FLUSH.REQ) q = false ∧
        before.all (fun x => !x.req.isEnd) = true then
      let n : QPacket := { p with st := .delivering }
      let s1 := cons.foldl (fun s c => match s.phys c.1 with
        | none => s
        | some b => s.fromAgent .queueStore b (.notice c.1 c.2.1 c.2.2 (padTo 64 (n.notice q)))) (s.setPk q p n)
      (s1.moveDl q tiles).queSync q
    else s
  | _, _ => s

/-- A notice reaches a consumer, which holds it and awaits the packet's words; a packet of none is taken as it arrives
(R231, R485). -/
def State.rxNotice (s : State) (tile binding route : Nat) (body : List Byte) : State :=
  match s.phys tile with
  | none => s
  | some b =>
    let le := fun (o n : Nat) => leNat ((body.drop o).take n)
    let t := ((((s.put (BEN_QUE_LAST.SEQ b) (le 0 4)).put (BEN_QUE_LAST.BINDING b) binding).put (BEN_QUE_LAST.SPILLED b) (bits (le 7 1) 1 1)).put
      (BEN_QUE_LAST.END b) (bits (le 7 1) 0 1)).put (BEN_QUE_LAST.WORDS b) (le 4 2)
    if le 4 2 = 0 then t
    else t.modBench b (fun x => { x with rx := x.rx ++ [{ route := route, seq := le 0 4, words := le 4 2, isEnd := bit (le 7 1) 0 }] })

/-- The parts of 64 bits of a stretch of words, and the errors of `u` in each: data bits from the first word on, and check
bits, 8 for each part (R214). -/
def partErrors (g : Seg) (u : Upset) : List (Nat × Nat) :=
  (List.range (g.len / 8)).map (fun i => (g.at_ / 8 + i,
    u.flips.eraseDups.countP (fun b => b / 64 == i) + u.checks.eraseDups.countP (fun b => b / 8 == i)))

/-- A stretch of words read for delivery, with the effects of the errors that it meets (R214). -/
def State.queRead (s : State) (q seq : Nat) (g : Seg) (u : Upset) : State :=
  (partErrors g u).foldl (fun s x =>
    let bad := !(s.badIn .qst (8 * x.1) 8).isEmpty
    if bad || decide (1 < x.2) then
      let s1 := if bad then s else { s with bad := s.bad ++ [(Space.qst.num, x.1)] }
      let s2 := ((s1.incSat (QUE_Q_ERR.UE q)).incSat QUE_ERR_TOTAL.UE).setF QUE_EVENT.UE
      s2.raiseSuspect s.runNow { unit := unitId 5 q, cls := 1, reason := 0x0701, ctx := 0, detail := seq % 2 ^ 32 }
    else if x.2 = 1 then (s.incSat (QUE_Q_ERR.CE q)).incSat QUE_ERR_TOTAL.CE
    else s) s

/-- Words of queue packets that a route's buffer holds or that are on their way to it (R485). -/
def State.rxHeld (s : State) (b tile route : Nat) : Nat :=
  ((s.bench b).rx.filter (fun r => r.route == route)).foldl (fun a r => a + r.got.length / 64) 0 +
    s.mesh.flits.foldl (fun a f => match f.msg with
      | .words t r _ _ d => if t = tile ∧ r = route then a + d.length / 64 else a
      | _ => a) 0

/-- WORD_DELIVER (R231, R485): the next words of the packet being delivered go to a consumer whose buffer has room;
their read may find bits wrong (R214). -/
def execWordDeliver (q tile : Nat) (x : WordRead) (s : State) : Out := act s fun s =>
  let cons := s.consumersOf s.active q
  let tiles := cons.map (·.1)
  match cons.find? (fun c => c.1 == tile), (s.queue q).pks.find? (fun p => p.st == .delivering && decide (p.sentTo tile < p.req.words)),
      s.phys tile with
  | some c, some p, some b =>
    let k := p.sentTo tile
    let n := x.words
    if 0 < n ∧ k + n ≤ p.req.words ∧ s.rxHeld b tile c.2.2 + n ≤ 64 then
      let segs := (List.range n).map (fun i => Seg.mk .qst (s.qWord q (qAdv p.base (k + i) (s.qW q))) 64)
      let s1 := segs.zipIdx.foldl (fun s g => s.queRead q p.seq g.1
        { flips := (x.upset.flips.filter (fun b => b / 512 == g.2)).map (· % 512), checks := (x.upset.checks.filter (fun b => b / 64 == g.2)).map (· % 64) }) s
      let data := s1.rdSegs segs
      let s2 := (s1.setPk q p { p with sent := SMap.set p.sent 0 tile (k + n) }).fromAgent .queueStore b (.words tile c.2.2 p.seq p.req.mb data)
      (s2.moveDl q tiles).queSync q
    else s
  | _, _, _ => s

/-- Whether a consumer of a queue waits for a packet on a route (R233). -/
def State.rxStalled (s : State) (tile route : Nat) : Bool := (s.phys tile).any (fun p => (s.bench p).starved == some route)

/-- Words of a packet reach a consumer: they wait in its buffer for a COPY, or they are discarded and counted once its
descriptors are over; a Bench that lends and was stalled for want of them asks to resume (R55, R233, R485). -/
def State.wordsIn (s : State) (tile route seq mb : Nat) (data : List Byte) : State :=
  match s.phys tile with
  | none => s
  | some b =>
    let n := data.length / 64
    let disc := s.discards tile mb
    let upd := fun (r : RxPacket) => if r.route = route ∧ r.seq = seq then
      { r with recv := r.recv + n, got := if disc then r.got else r.got ++ data } else r
    let s1 := s.modBench b (fun x => { x with
      rx := (x.rx.map upd).filter (fun r => !(disc && r.recv == r.words && r.got.isEmpty))
      asking := x.asking || (x.lending && x.waiting.isSome && s.rxStalled tile route) })
    if disc then s1.incSat (BEN_QUE_DISCARD.WORDS b) n else s1

/-- Whether a consumer has taken a packet whole: nothing of it is on its way or waits for a COPY. -/
def State.tookPk (s : State) (p : QPacket) (c : Nat × Nat × Nat) : Bool :=
  decide (p.req.words ≤ p.sentTo c.1) &&
    !(s.onMesh (fun g => match g with
      | .notice t _ r body => t == c.1 && r == c.2.2 && leNat (body.take 4) == p.seq
      | .words t r q _ _ => t == c.1 && r == c.2.2 && q == p.seq
      | _ => false)) &&
    (match s.phys c.1 with
     | none => true
     | some b => !((s.bench b).rx.any (fun r => r.route == c.2.2 && r.seq == p.seq)))

/-- The queue store sends the boundary token of the fed micro-batch to the consumers of a queue whose END packet has been
taken, on every route whose bit is set in TOKEN_IN (R232). -/
def State.endTaken (s : State) (q : Nat) : State :=
  match s.feeding with
  | none => s
  | some m =>
    let s1 := s.modFab (fun f => { f with micros := f.micros.map (fun x => if x = m then { x with ended := q :: x.ended } else x) })
    let s2 := (s.consumersOf m.run.drawer q).foldl (fun s c =>
      match s.phys c.1, s.planeAt m.run.drawer c.1 with
      | some b, some v => if bit v.tokenIn c.2.2 then s.fromAgent .queueStore b (.token c.1 c.2.2) else s
      | _, _ => s) s1
    s2.noteSent

/-- The oldest packet is freed (R225, R232). -/
def State.freePk (s : State) (q : Nat) (p : QPacket) : State :=
  let s1 := s.modQueue q (fun x => { x with pks := x.pks.erase p })
  let rd := qAdv (s1.get (QUE_Q_PTR.RD q)) p.room (s1.qW q)
  let s2 := (s1.put (QUE_Q_PTR.RD q) rd).incMod (QUE_Q_SEQ.NEXT_DELIVER q)
  let s3 := if p.req.isEnd then s2.endTaken q else s2
  (s3.tryOpen q).queSync q

/-- PACKET_TAKEN (R225, R232): the last consumer has taken the last word; an END packet lets the boundary token go. -/
def execPacketTaken (q : Nat) (s : State) : Out := act s fun s =>
  match (s.queue q).pks.head? with
  | none => s
  | some p =>
    if p.st = .delivering ∧ (s.consumersOf s.active q).all (fun c => s.tookPk p c) = true then s.freePk q p else s

/-- The routes whose tokens of a RUN are taken together once all have arrived. -/
def State.takeTokens (s : State) (l : List (Nat × Nat)) (r : Run) : Option State :=
  if l.all (fun x => s.fab.prodTok.contains (tokKey x.1 x.2, r)) then
    some (s.modFab (fun f => { f with prodTok := l.foldl (fun m x => m.erase (tokKey x.1 x.2, r)) f.prodTok }))
  else none

/-- END_MARKER (R220): the token of a micro-batch has arrived on every PRODUCE route of a queue. -/
def execEndMarker (q : Nat) (s : State) : Out := act s fun s =>
  let due := s.fab.prodTok.findSome? (fun (x : Nat × Run) =>
    match s.producersOf x.2.drawer q with
    | [] => none
    | p :: ps => if (p :: ps).any (fun y => tokKey y.1 y.2 == x.1) then (s.takeTokens (p :: ps) x.2).map (fun t => (p.1, x.2, t)) else none)
  match due with
  | none => s
  | some (tile, r, t) => t.openArrive q (.bench tile) { words := 0, isEnd := true, step := r.step, mb := r.mb, tokens := 0 } []

/-! ## Flush, reset and abort (R217, R234 to R236) -/

/-- Every packet of a queue is discarded and every pointer and counter is zero (R217). -/
def State.queClear (s : State) (q : Nat) : State :=
  let s1 := s.setQueue q {}
  ((((((s1.setWord (QUE_Q_PTR.reg q) 0).setWord (QUE_Q_PTR2.reg q) 0).setWord (QUE_Q_RING_PTR.reg q) 0).setWord (QUE_Q_SEQ.reg q) 0).setWord
    (QUE_Q_STATUS.reg q) 0).put QUE_FLUSH.REQ (if bit (s.get QUE_FLUSH.REQ) q then s.get QUE_FLUSH.REQ - 2 ^ q else s.get QUE_FLUSH.REQ))

/-- QUE_UNIT_MAP follows the enabled queues. -/
def State.unitMap (s : State) : State :=
  let used := (List.range 64).foldl (fun w q =>
    if s.on (QUE_Q_CFG.EN q) then (List.range (s.get (QUE_Q_CFG.UNITS q))).foldl (fun w u => w ||| 2 ^ (s.get (QUE_Q_CFG.BASE_UNIT q) + u)) w else w) 0
  (s.put (QUE_UNIT_MAP.USED 0) used).put (QUE_UNIT_MAP.USED 1) (used / 2 ^ 64)

/-- A load turns off the queues of a mask (R217). -/
def State.queDrop (s : State) (mask : Nat) : State :=
  ((List.range 64).foldl (fun s q => if bit mask q then (s.queClear q).put (QUE_Q_CFG.EN q) 0 else s) s).unitMap

/-- A write of QUE_FLUSH (R234). -/
def State.flushRequest (s : State) (mask : Nat) : State :=
  (List.range 64).foldl (fun s q => if bit mask q then s.setF (QUE_Q_STATUS.FLUSH_PENDING q) else s)
    (s.put QUE_FLUSH.REQ (s.get QUE_FLUSH.REQ ||| mask))

/-- QUEUE_FLUSH_REQUEST (R234). -/
def execQueueFlushRequest (_iss : Issuer) (mask : Word) (s : State) : Out := act s fun s => s.flushRequest mask.toNat

/-- A requested flush takes effect where nothing of the queue moves (R234). -/
def State.doFlush (s : State) (q : Nat) : State :=
  let x := s.queue q
  if q < 64 ∧ bit (s.get QUE_FLUSH.REQ) q = true ∧ x.pks.all (fun p => p.st != .opening && p.st != .delivering && !p.returning) = true then
    let op := s.get (QUE_Q_PTR2.OP q)
    let s1 := s.setQueue q { x with pks := [] }
    let s2 := (((s1.put (QUE_Q_PTR.RD q) op).put (QUE_Q_PTR2.DL q) op).put (QUE_Q_PTR.WR q) op).put (QUE_Q_RING_PTR.RING_RD q)
      (s.get (QUE_Q_RING_PTR.RING_WR q))
    let s3 := (s2.incMod (QUE_Q_SEQ.NEXT_DELIVER q) x.pks.length).put QUE_FLUSH.REQ (s.get QUE_FLUSH.REQ - 2 ^ q)
    (((s3.clrF (QUE_Q_STATUS.FLUSH_PENDING q)).tryOpen q)).queSync q
  else s

/-- QUEUE_FLUSH (R234). -/
def execQueueFlush (q : Nat) (s : State) : Out := act s fun s => s.doFlush q

/-- A packet whose delivery has begun is taken as delivered and freed (R235). -/
def State.dropPk (s : State) (q : Nat) (p : QPacket) : State :=
  let s1 := s.modQueue q (fun x => { x with pks := x.pks.erase p })
  let rd := qAdv (s1.get (QUE_Q_PTR.RD q)) p.room (s1.qW q)
  ((s1.put (QUE_Q_PTR.RD q) rd).put (QUE_Q_PTR2.DL q) rd).incMod (QUE_Q_SEQ.NEXT_DELIVER q)

/-- An abort: local open packets are rewound, packets being delivered are freed, no Bench waits at a queue any more, and
the opens of this die in other devices are called back (R83, R233, R235, R324). -/
def State.queAbort (s : State) : State :=
  let s1 := (List.range 64).foldl (fun s q =>
    let x := s.queue q
    if x.pks.isEmpty && x.wait.isEmpty then s.clrF (QUE_Q_STATUS.CONSUMER_WAIT q)
    else
      let s0 := s.setQueue q { x with wait := x.wait.filter (fun w => (prodSource w.1) != 0) }
      let s1 := if (s0.openPk q).any (fun p => (prodSource p.prod) == 0) then s0.rewind q else s0
      let s2 := ((s1.queue q).pks.filter (fun p => p.st == .delivering)).foldl (fun s p => s.dropPk q p) s1
      ((s2.clrF (QUE_Q_STATUS.CONSUMER_WAIT q)).tryOpen q).queSync q) s
  { s1 with opens := (s1.opens.filter (fun o => o.st == 0 || o.st == 3)).map (fun o => { o with st := 3 }) }

/-! ## Configuration (R215) -/

/-- A value with only the writable bits of a register kept. -/
def writable (o : Nat) (v : Word) : Word :=
  match regSpec o with
  | none => 0
  | some r => BitVec.ofNat 64 (r.fields.foldl (fun a f => if f.acc = .ro then a else a + fget v f.hi f.lo * 2 ^ f.lo) 0)

/-- The image whose QUEUE_MASK holds a queue. -/
def State.queImage (s : State) (q : Nat) : Option Image :=
  match s.resident with
  | some im => if bit im.man.queueMask q then some im else s.staged.bind (fun im => if bit im.man.queueMask q then some im else none)
  | none => s.staged.bind (fun im => if bit im.man.queueMask q then some im else none)

/-- The conditions of R215 on a state that already holds the written value. -/
def State.queCfgOk (s : State) (q : Nat) : Bool :=
  let x := s.queue q
  let runs := s.fab.micros.map (fun m => m.run.drawer) ++ (s.fab.next.map (fun r => r.drawer)).toList
  let units := s.get (QUE_Q_CFG.UNITS q)
  let base := s.get (QUE_Q_CFG.BASE_UNIT q)
  let others := (List.range 64).filter (fun k => k != q && s.on (QUE_Q_CFG.EN k))
  x.pks.isEmpty && !(runs.any (fun d => s.binds d q)) &&
  (!(s.on (QUE_Q_CFG.EN q)) ||
    (match s.queImage q with
     | none => false
     | some im =>
       decide (1 ≤ units) && decide (units ≤ 128) && decide (base + units ≤ 128) &&
       others.all (fun k => !(overlap base units (s.get (QUE_Q_CFG.BASE_UNIT k)) (s.get (QUE_Q_CFG.UNITS k)))) &&
       decide (others.foldl (fun a k => if bit im.man.queueMask k then a + s.get (QUE_Q_CFG.UNITS k) else a) units ≤ im.man.qstoreUnits) &&
       s.get (QUE_Q_CFG.SOURCE q) != 3 &&
       (s.get (QUE_Q_RING.UNITS q) == 0 ||
         (inside (s.get (QUE_Q_RING.BASE q) * 2 ^ 16) (s.get (QUE_Q_RING.UNITS q) * 65536) im.man.wrdBase im.man.wrdBytes &&
          others.all (fun k => !(overlap (s.get (QUE_Q_RING.BASE q) * 2 ^ 16) (s.get (QUE_Q_RING.UNITS q) * 65536)
            (s.get (QUE_Q_RING.BASE k) * 2 ^ 16) (s.get (QUE_Q_RING.UNITS k) * 65536)))))))

/-- A write of QUE_Q_CFG[q] or QUE_Q_RING[q] (R215). -/
def State.queCfgWrite (s : State) (iss : Issuer) (q : Nat) (off : Nat) (v : Word) : State :=
  if q ≥ 64 then s
  else
    let t := s.setWord off (writable off v)
    if t.queCfgOk q then
      (if t.on (QUE_Q_CFG.EN q) then (t.queClear q).put (QUE_Q_STATUS.CONSUMERS q) (t.consumersOf t.active q).length else t).unitMap
    else (s.setF QUE_EVENT.CFG_REFUSED).queRecord (issTag iss) q 0 0

/-- QUEUE_CONFIG_WRITE (R215). -/
def execQueueConfigWrite (iss : Issuer) (q : Nat) (v : Word) (s : State) : Out := act s fun s => s.queCfgWrite iss q (QUE_Q_CFG.reg q) v

/-- QUEUE_RING_WRITE (R215). -/
def execQueueRingWrite (iss : Issuer) (q : Nat) (v : Word) (s : State) : Out := act s fun s => s.queCfgWrite iss q (QUE_Q_RING.reg q) v

/-! ## Queue packets of the links (R323 to R325) -/

/-- The packets that a link port has open are rewound (R224). -/
def State.rewindPort (s : State) (l : Nat) : State :=
  (List.range 64).foldl (fun s q => if (s.openPk q).any (fun p => match p.prod with
    | .link port _ => port == l
    | _ => false) then s.rewind q else s) s

/-- DATA_FLIT (R310, R313). A lost one: the port reports that link-level retry did not recover this flit's CRC failure, which
rewinds what it has open (R224). -/
def execDataFlit (l : Nat) (raw : List Byte) (x : FlitFate) (s : State) : Out :=
  act s fun s =>
    let t := s.rxFlit l raw x.fec 1 (fun s h p => s.rxSeq l h p)
    if x.lost && flitBad raw x.fec && s.get (LNK_PORT_STATUS.STATE l) == 2 then t.rewindPort l else t

/-- Opens of the links that wait, over every queue. -/
def State.pendOpens (s : State) : Nat := s.queues.foldl (fun n x => n + x.2.wait.countP (fun w => (prodSource w.1) == 1)) 0

/-- QUEUE_OPEN (R323): the packet is placed under R226, or the open is held, or, where 1,024 are held, turned away for now. -/
def execQueueOpen (src q port : Nat) (r : OpenReq) (s : State) : Out := act s fun s =>
  if q ≥ 64 ∨ r.words > 1024 then s.linkRecord (8 * (port / 8)) 1 0x0AFF
  else if !(s.openAllowed q (.link port src)) then s.rejectOpen q (.link port src)
  else
    let t := s.openArrive q (.link port src) r []
    if 1024 ≤ s.pendOpens ∧ (t.queue q).wait.any (fun w => w.1 == .link port src) = true then s.flpOr (unitId 5 q) 0 src 3 [BitVec.ofNat 8 q, 0] []
    else t

/-- QUEUE_DATA packets of a packet's words. -/
def State.sendData : Nat → State → Nat → Nat → List Byte → State
  | 0, s, _, _, _ => s
  | f + 1, s, dev, q, l =>
    if l.isEmpty then s else State.sendData f (s.flpOr (unitId 5 q) 0 dev 4 [BitVec.ofNat 8 q] (l.take 4096)) dev q (l.drop 4096)

/-- QUEUE_GRANT (R323, R324): the words go out, or an aborted packet is called back. -/
def execQueueGrant (src q : Nat) (s : State) : Out := act s fun s =>
  match s.opens.find? (fun o => o.dev == src && o.queue == q && (o.st == 0 || o.st == 3)) with
  | none => s
  | some o =>
    let s1 := { s with opens := s.opens.erase o }
    (if o.st = 3 then s1.flpOr (unitId 5 q) 0 src 5 [BitVec.ofNat 8 q] []
     else State.sendData (o.data.length / 4096 + 1) s1 src q o.data).askOpens

/-- QUEUE_REJECT (R323, R325). -/
def execQueueReject (src q reason : Nat) (s : State) : Out := act s fun s =>
  match s.opens.find? (fun o => o.dev == src && o.queue == q && (o.st == 0 || o.st == 3)) with
  | none => s
  | some o =>
    if reason = 0 ∧ o.st = 0 then { s with opens := s.opens.map (fun x => if x = o then { o with st := 1, stamp := s.now } else x) }
    else if reason = 1 then
      ((({ s with opens := s.opens.erase o } : State).setF LNK_EVENT.QUEUE_REJECTED).raise 0
        { unit := unitId 5 q, cls := 1, reason := 0x0A06, ctx := 0, detail := src * 2 ^ 32 }).askOpens
    else ({ s with opens := s.opens.erase o } : State).askOpens

/-- QUEUE_OPEN_RETRY (R323). -/
def execQueueOpenRetry (dev q : Nat) (s : State) : Out := act s fun s =>
  match s.opens.find? (fun o => o.dev == dev && o.queue == q && o.st == 1) with
  | none => s
  | some o =>
    if o.stamp + 400 ≤ s.now then
      ({ s with opens := s.opens.map (fun x => if x = o then { o with st := 0, stamp := s.now } else x) } : State).flpOr (unitId 5 q) s.runTag dev 1
        (openFields q o.req) []
    else s

/-- Whether the open packet of a queue is one that a device of the links has been granted. -/
def State.grantedTo (s : State) (q src : Nat) : Option QPacket :=
  (s.openPk q).bind (fun p => match p.prod with
    | .link port dev => if dev = src ∧ port ≠ 255 then some p else none
    | _ => none)

/-- QUEUE_DATA (R323, R324). -/
def execQueueData (src q : Nat) (data : List Byte) (s : State) : Out := act s fun s =>
  if q ≥ 64 then s
  else match s.grantedTo q src with
    | none => s.incSat (QUE_Q_ERR.REWOUND q)
    | some p =>
      let k := (s.queue q).got
      if data.length % 64 = 0 ∧ 0 < data.length ∧ data.length ≤ 4096 ∧ k + data.length / 64 ≤ p.req.words then
        (State.putWords (data.length + 1) s q p k data).modQueue q (fun x => { x with got := k + data.length / 64, lastData := s.now })
      else s

/-- QUEUE_ABORT (R324). -/
def execQueueAbort (src q : Nat) (s : State) : Out := act s fun s =>
  if q ≥ 64 then s
  else match s.grantedTo q src with
    | none => s.incSat (QUE_Q_ERR.REWOUND q)
    | some _ => s.rewind q

/-- QUEUE_STALL_TIMEOUT (R324). -/
def execQueueStallTimeout (q : Nat) (s : State) : Out := act s fun s =>
  match s.openPk q with
  | some p =>
    if (prodSource p.prod) = 1 ∧ (s.queue q).got < p.req.words ∧ (s.queue q).lastData + s.get LNK_STALL.TICKS ≤ s.now then
      (s.setF LNK_EVENT.QUEUE_STALL).rewind q
    else s
  | none => s

/-! ## Streams from other devices (R329, R330) -/

/-- A stream packet that matches no credit of its entry (R330). -/
def State.streamBad (s : State) : State :=
  (s.setF LNK_EVENT.STREAM_MISMATCH).raise 0 { unit := unitId 3 0, cls := 1, reason := 0x0A08, ctx := 0, detail := 0 }

/-- The record and entry that a stream packet names, when its source matches and a credit of its micro-batch is out. -/
def State.streamOk (s : State) (h : StreamHdr) : Bool :=
  match s.planeAt s.active h.tile, s.phys h.tile with
  | some v, some p =>
    v.rKind h.entry == 1 && v.rTarget h.entry == 2 && v.rPeer h.entry == h.src && v.rTile h.entry == h.srcTile &&
      v.rPeerEntry h.entry == h.srcEntry && decide (0 < SMap.get (s.bench p).strIn 0 (credKey h.entry h.mb))
  | _, _ => false

/-- STREAM_BLOCK (R330, R410, R414). -/
def execStreamBlock (h : StreamHdr) (data : List Byte) (s : State) : Out := act s fun s =>
  if s.replay || !(s.streamOk h) then s.streamBad
  else (s.capture 2 h.entry h.tile h.mb [] data).feedBlock h.tile h.entry h.mb data

/-- Tokens that have arrived on an IN entry of a tile since the fabric's oldest micro-batch. -/
def State.tokensIn (s : State) (tile route : Nat) : Nat :=
  SMap.get s.fab.tokens 0 (tokKey tile route) + s.fab.micros.countP (fun m => m.done.contains tile)

/-- A boundary token reaches an IN entry: it counts once, for the next micro-batch of the entry (R76). -/
def State.tokenIn (s : State) (tile route : Nat) : State :=
  let due := (s.fab.micros[s.tokensIn tile route]?).map (fun m => m.run)
  s.modFab (fun f => { f with
    tokens := SMap.set f.tokens 0 (tokKey tile route) (SMap.get f.tokens 0 (tokKey tile route) + 1)
    micros := f.micros.map (fun m => if some m.run = due then { m with lastToken := s.now } else m) })

/-- The link ports send a boundary token toward an IN entry (R76, R330). -/
def State.feedToken (s : State) (tile route : Nat) : State :=
  match s.phys tile with
  | none => s
  | some p => (s.fromAgent .linkComplex p (.token tile route)).noteSent

/-- STREAM_TOKEN (R330, R410). -/
def execStreamToken (h : StreamHdr) (s : State) : Out := act s fun s =>
  if s.replay || !(s.streamOk h) then s.streamBad
  else
    let s1 := s.capture 3 h.entry h.tile h.mb [] []
    match s.phys h.tile with
    | none => s1
    | some p => (s1.modBench p (fun b => { b with strIn := SMap.erase b.strIn (credKey h.entry h.mb) })).feedToken h.tile h.entry

/-- STREAM_CREDIT (R329): the receiver grants credits of a micro-batch to a sending entry here. -/
def execStreamCredit (src tile entry mb count : Nat) (s : State) : Out := act s fun s =>
  match s.phys tile with
  | none => s
  | some _ =>
    let known := (List.range 4).any (fun d => match s.planeAt d tile with
      | none => false
      | some v => v.rKind entry == 5 && v.rPeer entry == src)
    if known then s.addCredits tile entry mb count else s

end Sys2Proof.Machine
end

