-- ==== Sys2Proof/Machine/Snapshot.lean ====
section
/-! DEFINITION. Snapshots: their parts, the cut at a drained boundary, the seal, and their end (chapter 14, R423 to R432). -/

namespace Sys2Proof.Machine

/-- The plane copy of a drawer in device-reserved Wardrobe (Table 07.5). -/
def State.planeCopy (s : State) (d : Nat) : Nat := s.get FAB_WRD_LIMIT.LIMIT + 0x100000 + d * 0xC00000

/-! ## Chest slots (R424) -/

/-- Bytes of the device-state part (Table 14.6), and the offset of a slot's data. -/
def devBytes : Nat := 0x8000000
def slotData : Nat := 0x10000

/-- The manifest of the resident image. -/
def State.man (s : State) : Manifest := (s.resident.map (fun i => i.man)).getD {}

/-- The first byte of a Chest slot, and of its seal record. -/
def State.slotAt (s : State) (g : Nat) : Nat := s.man.chestBase + g * chestSlot s.man
def State.sealAt (s : State) (g : Nat) : Nat := s.slotAt g + chestSlot s.man - 4096

/-- A list of numbers as 8 bytes each, and the numbers in bytes. The manual gives no layout to the directory's header
or to the device-state part; both hold such lists (log 33). -/
def numBytes (l : List Nat) : List Byte := (l.map (leBytes 8)).flatten
def bytesNum : Nat → List Byte → List Nat
  | 0, _ => []
  | n + 1, l => leNat (l.take 8) :: bytesNum n (l.drop 8)

/-- The numbers of a slot's directory header: 0 SNAP_ID, 1 IMAGE_ID, 2 STEP, 3 T, 4 coordinates, 5 LNK_TORUS, 6 RED_GROUP,
7 RED_JOB, 8 part, 9 FAB_WRD_LIMIT, 10 ACTIVE_DRAWER, 11 entries. -/
def State.header (s : State) (a : Nat) : List Nat := bytesNum 12 ((s.rdA true a 96).getD [])

/-- A slot's generation registers follow its directory and seal (R424). -/
def State.genSync (s : State) (g : Nat) : State :=
  let h := s.header (s.slotAt g)
  let sid := s.leA true (s.sealAt g) 8
  let ok := s.resident.isSome && decide (0 < chestSlot s.man) && sid != 0 && sid == h.getD 0 0
  ((s.setWord (CKP_GEN.reg g) (BitVec.ofNat 64 (b2n ok * 2 ^ 63 + (if ok then s.leA true (s.sealAt g + 8) 1 % 2 else 0) * 2 ^ 62 +
    h.getD 4 0 % 2 ^ 15 * 2 ^ 32 + h.getD 0 0 % 2 ^ 32))).put (CKP_GEN_CUT.STEP g) (h.getD 2 0)).put (CKP_GEN_CUT.T g) (h.getD 3 0)

/-- Every slot's generation registers, after an image has been loaded. -/
def State.genSyncAll (s : State) : State := (List.range 4).foldl (fun s g => s.genSync g) s

/-- The newest sealed slot of a list. -/
def State.newest (s : State) (l : List Nat) : Option Nat :=
  l.foldl (fun b g => if s.on (CKP_GEN.SEALED g) then
    (match b with
     | none => some g
     | some x => if s.get (CKP_GEN.SNAP_ID x) < s.get (CKP_GEN.SNAP_ID g) then some g else b) else b) none

/-! ## Parts (R423) -/

/-- A directory entry: KIND, FLAGS, TILE, SOURCE, BYTES, offset in the slot. -/
structure DirEnt where
  kind  : Nat
  flags : Nat
  tile  : Nat
  src   : Nat
  bytes : Nat
  off   : Nat := 0
  deriving DecidableEq, Repr

/-- The region list (Table 14.7): BASE, BYTES, FLAGS. -/
def State.regions (s : State) : List (Nat × Nat × Nat) :=
  (List.range (s.get CKP_REGIONS.ENTRIES)).map (fun i =>
    let a := s.get CKP_REGIONS.ADDR + 16 * i
    (s.leA true a 8, s.leA true (a + 8) 6, s.leA true (a + 14) 2))

/-- Whether the region list keeps Table 14.7. -/
def State.regionsOk (s : State) : Bool :=
  let m := s.man
  let rs := s.regions
  decide (s.get CKP_REGIONS.ENTRIES ≤ 64) && rs.all (fun r =>
    r.1 % 65536 == 0 && r.2.1 != 0 && r.2.1 % 65536 == 0 && decide (r.2.2 < 2) && decide (m.wrdBase ≤ r.1) && decide (r.1 + r.2.1 ≤ m.wrdBase + m.wrdBytes) &&
    !(decide (r.1 < m.chestBase + m.chestBytes) && decide (m.chestBase < r.1 + r.2.1)) &&
    !(decide (r.1 < s.get RAS_CAPTURE.BASE + s.get RAS_CAPTURE.MIB * 2 ^ 20) && decide (s.get RAS_CAPTURE.BASE < r.1 + r.2.1))) &&
  (List.range rs.length).all (fun i => (List.range i).all (fun j =>
    let x := rs.getD i (0, 0, 0)
    let y := rs.getD j (0, 0, 0)
    decide (x.1 + x.2.1 ≤ y.1) || decide (y.1 + y.2.1 ≤ x.1)))

/-- The directory of a cut (Table 14.6, R430), with every part's place in the slot. -/
def State.directory (s : State) : List DirEnt :=
  let m := s.man
  let lim := s.get FAB_WRD_LIMIT.LIMIT
  let sp := (List.range 1024).filterMap (fun t =>
    if 0 < m.scratch.getD t 0 ∧ (s.phys t).isSome = true then some (DirEnt.mk 1 2 t (spAddr t 0) (m.scratch.getD t 0) 0) else none)
  let qs := (List.range 64).filterMap (fun q =>
    if s.on (QUE_Q_CFG.EN q) then some (DirEnt.mk 3 2 0 (qstBase + s.get (QUE_Q_CFG.BASE_UNIT q) * 0x10000) (s.get (QUE_Q_CFG.UNITS q) * 0x10000) 0) else none)
  let rank := s.get RED_GROUP.RANK
  let size := s.get RED_GROUP.SIZE
  let wr := (s.regions.zipIdx).map (fun x =>
    DirEnt.mk 5 (x.1.2.2 % 2 + (if x.1.2.2 % 2 = 0 ∨ rank = x.2 % size then 2 else 0)) 0 x.1.1 x.1.2.1 0)
  let all := [DirEnt.mk 0 2 0 0 devBytes 0] ++ sp ++ (if m.shelfBytes = 0 then [] else [DirEnt.mk 2 2 0 (shelfBase + m.shelfBase) m.shelfBytes 0]) ++ qs ++
    [DirEnt.mk 4 2 0 (lim + 0x100000) 0x3000000 0] ++ wr
  (all.foldl (fun (a : List DirEnt × Nat) e => (a.1 ++ [{ e with off := a.2 }], a.2 + e.bytes)) ([], slotData)).1

/-- The 64 KiB granules of a part: space, source address, bytes, offset in the slot, state. -/
def DirEnt.granules (e : DirEnt) : List (Nat × Nat × Nat × Nat × Nat) :=
  (List.range ((e.bytes + 65535) / 65536)).map (fun i =>
    (e.kind, e.src + 65536 * i, min 65536 (e.bytes - 65536 * i), e.off + 65536 * i, if e.kind = 0 then 1 else 0))

/-- A directory entry as bytes (R424). -/
def DirEnt.enc (e : DirEnt) : List Byte :=
  leBytes 1 e.kind ++ leBytes 1 e.flags ++ leBytes 2 e.tile ++ leBytes 4 0 ++ leBytes 8 e.src ++ leBytes 8 e.bytes ++ leBytes 8 e.off

def dirOf (l : List Byte) : DirEnt :=
  ⟨leAt l 0 1, leAt l 1 1, leAt l 2 2, leAt l 8 8, leAt l 16 8, leAt l 24 8⟩

/-! ## The device-state part -/

/-- A section of numbers: records of one length behind their count. -/
def numSec (l : List (List Nat)) : List Nat := l.length :: l.flatten

/-- The records of a section, and what follows it. -/
def takeSec (k : Nat) : List Nat → List (List Nat) × List Nat
  | [] => ([], [])
  | n :: l => ((List.range n).map (fun i => (l.drop (k * i)).take k), l.drop (k * n))

/-- A manifest as numbers, and back. -/
def Manifest.nums (m : Manifest) : List Nat :=
  [m.planeMask, m.partMask, m.loadKind, m.contexts, m.shelfBase, m.shelfBytes, m.wrdBase, m.wrdBytes, m.chestBase, m.chestBytes, m.queueMask, m.linkMask,
   m.qstoreUnits, m.syncObjects, m.redChannels, m.maxMb, m.powerClaim % 2 ^ 64, m.powerClaim / 2 ^ 64 % 2 ^ 64, m.powerClaim / 2 ^ 128] ++
  numSec (m.planeKind.map (fun x => [x])) ++ numSec (m.rowWidth.map (fun x => [x])) ++ numSec (m.scratch.map (fun x => [x]))

def manifestOf (l : List Nat) : Manifest × List Nat :=
  let n := fun i => l.getD i 0
  let (pk, l1) := takeSec 1 (l.drop 19)
  let (rw, l2) := takeSec 1 l1
  let (sc, l3) := takeSec 1 l2
  ({ planeMask := n 0, partMask := n 1, loadKind := n 2, contexts := n 3, shelfBase := n 4, shelfBytes := n 5, wrdBase := n 6, wrdBytes := n 7,
     chestBase := n 8, chestBytes := n 9, queueMask := n 10, linkMask := n 11, qstoreUnits := n 12, syncObjects := n 13, redChannels := n 14, maxMb := n 15,
     powerClaim := n 16 + n 17 * 2 ^ 64 + n 18 * 2 ^ 128, planeKind := pk.flatten, rowWidth := rw.flatten, scratch := sc.flatten }, l3)

/-- Whether a register belongs to the device-state part: every block but HST, LNK and PWR (Table 14.6). -/
def inPart (o : Nat) : Bool := regBlock o != 12 && regBlock o != 10 && regBlock o != 1

/-- The offset of a register as the part names it: a BEN register by its logical tile; none without one. -/
def State.partOff (s : State) (o : Nat) : Option Nat :=
  if o < 0x1000000 then some o else (s.tileAt ((o - 0x1000000) / 0x1000)).map (fun t => 0x1000000 + t * 0x1000 + o % 0x1000)

/-- The image context of a physical one, and back (R351). -/
def State.imageCtx (s : State) (x : Nat) : Nat := ((List.range 16).find? (fun k => s.physCtx 0 k == x)).getD 0

/-- A key of the A and W counters with its context as the image numbers it, or mapped back. -/
def mapKey (f : Nat → Nat) (k : Nat) : Nat := if k < 2 ^ 32 then objKey false 0 (f (k / 2 ^ 16)) (k % 2 ^ 16) else k

/-- A producer as numbers, and back. -/
def prodNums : Producer → List Nat
  | .link p d => [0, p, d]
  | .bct c => [1, c, 0]
  | .bench t => [2, t, 0]
def prodOf (k a b : Nat) : Producer := if k = 0 then .link a b else if k = 1 then .bct a else .bench a

/-- The device-state part of a cut. -/
def State.devNums (s : State) : List Nat :=
  let im : Image := s.resident.getD { addr := 0, id := 0, length := 0, man := {} }
  let regs := s.regs.filterMap (fun e => if inPart e.1 then (s.partOff e.1).map (fun o => [o, e.2.toNat]) else none)
  let own := s.ctxOf 1
  let cells := s.cells.filterMap (fun (x : Nat × Cell) => if x.2.valid && own.contains x.2.ctx then
    some [x.1, s.imageCtx x.2.ctx, x.2.vid, b2n x.2.barrier, x.2.n, x.2.gen, x.2.count, x.2.next, x.2.last, x.2.setLost] else none)
  let tags := (s.benches.map (fun (x : Nat × Bench) =>
    match s.tileAt x.1 with
    | none => []
    | some t => (x.2.tagA.map (fun e => [t, 0, mapKey s.imageCtx e.1, e.2])) ++ (x.2.tagW.map (fun e => [t, 1, mapKey s.imageCtx e.1, e.2])))).flatten
  let pks := ((List.range 64).map (fun q => ((s.queue q).pks.filter (fun p => p.st == .committed || p.st == .inRing)).map (fun p =>
    [q, b2n p.ring] ++ prodNums p.prod ++ [p.req.words, b2n p.req.isEnd, p.req.step, p.req.mb, p.req.tokens, p.seq, b2n p.spilled, p.base, p.stampO, p.stampC]))).flatten
  [im.addr, im.id, im.length] ++ im.man.nums ++ numSec regs ++ numSec cells ++ numSec tags ++ numSec pks

/-! ## Requests, the cut, the seal and the end (R425, R427, R431, R432) -/

/-- A command's code in RESULT (Table 14.9). -/
def State.snapCmd (s : State) (cmd : Option (Nat × Nat × Nat)) (id code : Nat) : State :=
  match cmd with
  | none => s
  | some c => s.finish c.1 c.2.1 0 (id * 2 ^ 32 + code)

/-- A request is refused. -/
def State.snapRefuse (s : State) (cmd : Option (Nat × Nat × Nat)) (code : Nat) : State := (s.setF CKP_EVENT.REFUSED).snapCmd cmd 0 code

/-- A snapshot is requested (R425, R431). -/
def State.snapRequest (s : State) (cmd : Option (Nat × Nat × Nat)) : State :=
  if s.man.chestBytes = 0 then s.snapRefuse cmd 2
  else if s.ckp.snap.isSome || s.ckp.want.isSome then s.snapRefuse cmd 1
  else (s.modCkp (fun c => { c with want := some cmd })).put CKP_STATUS.PHASE 1

/-- The cut (R425): at step 5 of a drained boundary, when one is requested. -/
def State.snapCut (s : State) : State :=
  match s.ckp.want with
  | none => s
  | some cmd =>
    let s0 := (s.modCkp (fun c => { c with want := none })).put CKP_STATUS.PHASE 0
    let dir := s.directory
    let total := dir.foldl (fun a e => a + e.bytes) 0
    if s.man.chestBytes = 0 then s0.snapRefuse cmd 2
    else if !s.regionsOk then s0.snapRefuse cmd 10
    else if total + 0x11000 > chestSlot s.man ∨ 2040 < dir.length then s0.snapRefuse cmd 3
    else
      let last := s.newest [0, 1]
      let slot := match last with
        | none => 0
        | some g => 1 - g
      let sid := match last with
        | none => 1
        | some g => (s.get (CKP_GEN.SNAP_ID g) + 1) % 2 ^ 32
      let hdr := [sid, (s.resident.map (fun i => i.id)).getD 0, s.get RED_STATUS.STEP, s.get (SBD_BANK_T.T (s.get SBD_BANK.ACTIVE)), s.coord, (s.word LNK_TORUS.reg).toNat,
        (s.word RED_GROUP.reg).toNat, (s.word RED_JOB.reg).toNat, s.get GLB_ID.PART, s.get FAB_WRD_LIMIT.LIMIT, s.get FAB_STATUS.ACTIVE_DRAWER, dir.length]
      let base := s0.slotAt slot
      let s1 := (s0.wr! true (s0.sealAt slot) (List.replicate 4096 0)).wr! true base (padTo 256 (numBytes hdr) ++ (dir.map DirEnt.enc).flatten)
      let nums := s1.devNums
      let s2 := s1.wr! true (base + slotData) (numBytes (nums.length :: nums))
      let gs := (dir.map DirEnt.granules).flatten
      let sn : Snap := { slot := slot, id := sid, granules := gs, cmd := if cmd.any (fun c => c.2.2 == 0) then none else cmd }
      let s3 := (((((s2.genSync slot).modCkp (fun c => { c with snap := some sn })).put CKP_STATUS.PHASE 2).put CKP_STATUS.SNAP_ID sid).put CKP_STATUS.SLOT slot).put
        CKP_COW.PENDING (gs.countP (fun g => g.2.2.2.2 == 0))
      if cmd.any (fun c => c.2.2 == 0) then s3.snapCmd cmd sid 0 else s3

/-- A snapshot that has not been sealed ends (R432); a cut that is pending is not made. -/
def State.snapEnd (s : State) (code : Nat) : State :=
  let s1 := match s.ckp.want with
    | none => s
    | some cmd => (((s.modCkp (fun c => { c with want := none })).put CKP_STATUS.PHASE 0).setF CKP_EVENT.ABANDONED).snapCmd cmd 0 code
  match s1.ckp.snap with
  | none => s1
  | some sn =>
    if sn.sealedOwn then s1
    else ((((s1.modCkp (fun c => { c with snap := none })).put CKP_STATUS.PHASE 0).put CKP_COW.PENDING 0).setF CKP_EVENT.ABANDONED).snapCmd sn.cmd sn.id code

/-- The snapshot is over, at the buddy too or without one (Table 14.8). -/
def State.snapOver (s : State) (sn : Snap) (phase code : Nat) : State :=
  ((s.modCkp (fun c => { c with snap := none })).put CKP_STATUS.PHASE phase).snapCmd sn.cmd sn.id code

/-- The own seal (R427): written last, once every granule is COPIED. -/
def State.snapSeal (s : State) : State :=
  match s.ckp.snap with
  | none => s
  | some sn =>
    if sn.sealedOwn || sn.granules.any (fun g => g.2.2.2.2 == 0) then s
    else
      let s1 := s.wr! true (s.sealAt sn.slot) (leBytes 8 sn.id ++ leBytes 8 (b2n sn.degraded) ++ leBytes 8 s.now ++ leBytes 8 s.domain)
      let s2 := ((s1.genSync sn.slot).setF CKP_EVENT.SEALED).put CKP_STATUS.PHASE 3
      let done := sn.cmd.any (fun c => c.2.2 == 1)
      let s3 := if done then s2.snapCmd sn.cmd sn.id 0 else s2
      let sn1 : Snap := { sn with sealedOwn := true, cmd := if done then none else sn.cmd }
      if s.on HST_BUDDY.VALID && sn.drain then s3.modCkp (fun c => { c with snap := some sn1 }) else s3.snapOver sn1 0 7

end Sys2Proof.Machine
end

