-- ==== Sys2Proof/Machine/Load.lean ====
section
/-! DEFINITION. Loading a Varern image: the checks, the claims and what a load that succeeds does (chapter 03, R65 to
R74, R217, R346, R351, R352). -/

namespace Sys2Proof.Machine

/-- The image being loaded, as it stands in the Wardrobe. -/
def State.imageAt (s : State) (a : Nat) : View := ⟨s.wrd, a⟩

/-- The image that a load keeps: a staged load keeps the resident one. -/
def State.kept (s : State) (staged : Bool) : Option Image := if staged then s.resident else none

/-- The outcome of a check: its code, DETAIL, and the amounts needed and available. -/
abbrev Refuse := Nat × Nat × Nat × Nat

/-- The load ends: its registers and the LOAD command that waits for it (Table 03.7, R384). A load that is accepted writes 0
to DETAIL (log 67). -/
def State.endLoad (s : State) (code detail need have_ : Nat) : State :=
  let ch := (s.load.bind (fun l => l.chan))
  let s1 := { ((((s.put FAB_LOAD_STATUS.STATE (if code = 0 then 5 else 6)).put FAB_LOAD_STATUS.REASON code).put FAB_LOAD_STATUS.DETAIL detail).clrF
    FAB_LOAD_CTRL.GO) with load := none }
  let s2 := if code = 0 then s1 else (s1.put FAB_LOAD_NEED.AMOUNT need).put FAB_LOAD_HAVE.AMOUNT have_
  match ch with
  | none => s2
  | some c => s2.finish c.1 c.2 code (detail * 2 ^ 32)

/-- Checks 2 and 3 (Table 03.6, R69, R70). They name no amount: NEED and HAVE take 0 (log 67). -/
def State.check23 (s : State) (l : Load) : Option Refuse :=
  let lim := s.wrdLimit
  let len := (s.imageAt l.addr).imageLength
  let clash := match s.kept l.staged with
    | none => false
    | some k => overlap l.addr len k.man.wrdBase k.man.wrdBytes || overlap l.addr len k.man.chestBase k.man.chestBytes
  if l.addr + 256 > lim ∨ l.addr + len > lim ∨ l.addr % 4096 ≠ 0 ∨ clash = true then some (0x15, 0, 0, 0)
  else if !l.staged && !(s.on FAB_STATUS.IDLE) then some (0x11, 0, 0, 0)
  else if l.staged && (s.active == 3 ||
      s.fab.micros.any (fun m => m.run.drawer == 3) || s.fab.next.any (fun r => r.drawer == 3)) then some (0x11, 0, 0, 0)
  else none

/-- Checks 4 and 5. They name no amount: NEED and HAVE take 0 (log 67). -/
def State.check45 (s : State) (l : Load) : Option Refuse :=
  ((s.imageAt l.addr).formCheck fnListed s.coord (s.dim 0, s.dim 1, s.dim 2)).map (fun x => (x.1, x.2, 0, 0))

/-- Checks 6 and 7 (R66). -/
def State.check67 (s : State) (l : Load) : Option Refuse :=
  let v := s.imageAt l.addr
  let slot := v.sigSlot
  let hash := ((List.range 4).map (fun h => leBytes 8 (s.word (SEC_KEYSLOT_HASH.reg slot h)).toNat)).flatten
  if !(Config.sm2Verify v.sigKey (sm3 v.signed) v.sigRs) then some (0x01, 0, 0, 0)
  else if slot ≥ 16 ∨ sm3 v.sigKey ≠ hash ∨ s.get (SEC_KEYSLOT_USE.IMAGE slot) ≠ 1 then some (0x02, slot, 0, 0)
  else none

/-- The lowest bit set in a mask. -/
def lowBit (m n : Nat) : Option Nat := (List.range n).find? (fun k => bit m k)

/-- The contexts granted. -/
def State.granted (s : State) : Nat := (List.range 16).countP (fun x => s.on (SYN_CTX_STATE.GRANTED x))

/-- The number of bits set in the low `n`. -/
def pop (m n : Nat) : Nat := (List.range n).countP (fun k => bit m k)

/-- Check 10 (also R87). -/
def State.rowCheck (s : State) (m : Manifest) : Option Refuse :=
  ((List.range 32).find? (fun ty => decide (s.get (TMAP_ROW_STATE.WIDTH ty) < m.rowWidth.getD ty 0))).map
    (fun ty => (0x06, ty, m.rowWidth.getD ty 0, s.get (TMAP_ROW_STATE.WIDTH ty)))

/-- Whether the Shelf region passes FAB_SHELF_LIMIT (check 12, also R87). -/
def State.shelfPast (s : State) (m : Manifest) : Bool :=
  decide (0 < m.shelfBytes) && decide (m.shelfBase + m.shelfBytes > s.get FAB_SHELF_LIMIT.BYTES)

/-- Checks 8 to 20. Of a region that does not fit, NEED takes the end address and HAVE the limit, also where it only overlaps
another (log 67). -/
def State.check820 (s : State) (l : Load) : Option Refuse :=
  let m := (s.imageAt l.addr).manifest
  let len := (s.imageAt l.addr).imageLength
  let k := s.kept l.staged
  let km := (k.map (fun i => i.man)).getD {}
  let lim := s.wrdLimit
  let ctxHave := s.granted - km.contexts
  if !(bit m.partMask (b2n s.isQ)) then some (0x05, 0, m.partMask, 2 ^ b2n s.isQ)
  else if m.loadKind ≠ b2n l.staged ∨ (l.staged = true ∧ (m.planeMask ≠ 8 ∨ m.chestBytes ≠ 0)) then some (0x12, 0, 0, 0)
  else match s.rowCheck m with
  | some r => some r
  | none =>
    match (List.range 1024).find? (fun t => decide (m.scratch.getD t 0 + km.scratch.getD t 0 > 786432)) with
    | some t => some (0x07, t, m.scratch.getD t 0, 786432 - km.scratch.getD t 0)
    | none =>
      if s.shelfPast m || overlap m.shelfBase m.shelfBytes km.shelfBase km.shelfBytes then
        some (0x08, 0, m.shelfBase + m.shelfBytes, s.get FAB_SHELF_LIMIT.BYTES)
      else if decide (0 < m.wrdBytes) && decide (m.wrdBase + m.wrdBytes > lim) || overlap m.wrdBase m.wrdBytes km.wrdBase km.wrdBytes ||
          overlap m.wrdBase m.wrdBytes km.chestBase km.chestBytes || overlap m.wrdBase m.wrdBytes l.addr len then
        some (0x09, 0, m.wrdBase + m.wrdBytes, lim)
      else if decide (0 < m.chestBytes) && decide (m.chestBase + m.chestBytes > lim) || overlap m.chestBase m.chestBytes m.wrdBase m.wrdBytes ||
          overlap m.chestBase m.chestBytes km.wrdBase km.wrdBytes || overlap m.chestBase m.chestBytes km.chestBase km.chestBytes ||
          overlap m.chestBase m.chestBytes l.addr len then
        some (0x0F, 0, m.chestBase + m.chestBytes, lim)
      else match lowBit (m.queueMask &&& km.queueMask) 64 with
      | some q => some (0x0A, q, m.queueMask, 2 ^ 64 - 1 - km.queueMask)
      | none =>
        if m.qstoreUnits > 128 - km.qstoreUnits then some (0x0B, 0, m.qstoreUnits, 128 - km.qstoreUnits)
        else if m.syncObjects > 4096 - km.syncObjects then some (0x0C, 0, m.syncObjects, 4096 - km.syncObjects)
        else match (List.range 48).find? (fun k => bit m.linkMask k && !(bit (s.get FAB_AVAIL_LINKS.IN_SERVICE) k)) with
        | some k => some (0x0D, k, m.linkMask, s.get FAB_AVAIL_LINKS.IN_SERVICE)
        | none =>
          match lowBit (m.redChannels &&& km.redChannels) 16 with
          | some c => some (0x0E, c, m.redChannels, 2 ^ 16 - 1 - km.redChannels)
          | none => if m.contexts > ctxHave then some (0x10, 0, m.contexts, ctxHave) else none

/-- A load starts: checks 1 to 5 (Table 03.7 steps 1 and 2). -/
def State.startLoad (s : State) (staged : Bool) (addr : Nat) (chan : Option (Nat × Nat)) : State :=
  if s.load.isSome then
    let s1 := (((s.put FAB_LOAD_STATUS.REASON 0x16).put FAB_LOAD_STATUS.DETAIL 0).put FAB_LOAD_NEED.AMOUNT 0).put FAB_LOAD_HAVE.AMOUNT 0
    match chan with
    | some c => s1.complete c.1 c.2 0x16
    | none => s1
  else
    let l : Load := { staged := staged, addr := addr, chan := chan }
    let s1 := { ((((s.put FAB_LOAD_ADDR.ADDR addr).put FAB_LOAD_CTRL.MODE (b2n staged)).setF FAB_LOAD_CTRL.GO).put FAB_LOAD_STATUS.STATE 1) with
      load := some l }
    match s1.check23 l with
    | some r => s1.endLoad r.1 r.2.1 r.2.2.1 r.2.2.2
    | none => match s1.check45 l with
      | some r => s1.endLoad r.1 r.2.1 r.2.2.1 r.2.2.2
      | none => s1

/-- LOAD_GO (R69 to R71). -/
def execLoadGo (_iss : Issuer) (staged : Bool) (s : State) : Out := act s fun s => s.startLoad staged (s.get FAB_LOAD_ADDR.ADDR) none

/-- LOAD_VERIFY_DONE (Table 03.7 steps 3 to 5): checks 6 to 20, then the claimed functions are enabled. -/
def execLoadVerifyDone (s : State) : Out := act s fun s =>
  match s.load with
  | none => s
  | some l =>
    if s.get FAB_LOAD_STATUS.STATE ≠ 1 then s
    else match s.check67 l with
      | some r => s.endLoad r.1 r.2.1 r.2.2.1 r.2.2.2
      | none =>
        let s1 := s.put FAB_LOAD_STATUS.STATE 2
        match s1.check820 l with
        | some r => s1.endLoad r.1 r.2.1 r.2.2.1 r.2.2.2
        | none =>
          let claim := (s1.imageAt l.addr).manifest.powerClaim
          let s2 := { (s1.put FAB_LOAD_STATUS.STATE 3) with load := some { l with wakeAt := s1.now } }
          (List.range 256).foldl (fun s n => if bit claim n then s.fnEnable n else s) s2

/-- LOAD_CLAIMS_ON (Table 03.7 step 6): every claimed function is ON. -/
def execLoadClaimsOn (s : State) : Out := act s fun s =>
  match s.load with
  | none => s
  | some l =>
    let claim := (s.imageAt l.addr).manifest.powerClaim
    if s.get FAB_LOAD_STATUS.STATE = 3 ∧ (List.range 256).all (fun n => !(bit claim n) || s.get (PWR_FN_CTRL.STATUS n) == 2) = true then
      s.put FAB_LOAD_STATUS.STATE 4
    else s

/-- The wake time of a function in rack ticks (Table 02.5). -/
def wakeTicks (n : Nat) : Nat :=
  if n < 32 then 20 else if n = 32 then 400 else if n < 96 then 800 else if n < 144 then 8000 else if n < 152 then 200000000 else 80

/-- LOAD_POWER_TIMEOUT (check 21). NEED takes the function's bit in its 64-bit word of POWER_CLAIM, HAVE takes 0 (log 67). -/
def execLoadPowerTimeout (s : State) : Out := act s fun s =>
  match s.load with
  | none => s
  | some l =>
    let claim := (s.imageAt l.addr).manifest.powerClaim
    if s.get FAB_LOAD_STATUS.STATE = 3 then
      match (List.range 256).find? (fun n => bit claim n && s.get (PWR_FN_CTRL.STATUS n) != 2 && decide (l.wakeAt + wakeTicks n + 4000000 ≤ s.now)) with
      | some n => s.endLoad 0x13 n (2 ^ (n % 64)) 0
      | none => s
    else s

/-! ## Writing and claiming (Table 03.7 steps 6 and 7) -/

/-- Writes a tile's record of a drawer from the plane copy into the Bench it is mapped to (R67, R86). -/
def State.putRecord (s : State) (d tile : Nat) : State :=
  match s.phys tile with
  | none => s
  | some p => s.setMem .drw (Mem.copy (zeroBad s .wrd s.wrd) (s.planeCopy d + tile * 0x3000) s.drw ((p * 4 + d) * 0x3000) 0x3000)

/-- Writes every record of a drawer from its plane copy. -/
def State.putPlane (s : State) (d : Nat) : State := (List.range 1024).foldl (fun s t => s.putRecord d t) s

/-- Writes one section of an image: a plane with its copy, or a DATA section. -/
def State.putSection (s : State) (base : Nat) (e : Section) : State :=
  if e.type = 2 then ((s.cow (s.planeCopy e.drawer) e.len).copyA (base + e.off) (s.planeCopy e.drawer) e.len).putPlane e.drawer
  else if e.type = 3 then (s.cow e.target e.len).copyA (base + e.off) e.target e.len
  else s

/-- FAB_AVAIL_CNT follows the loaded images (R70, R351). -/
def State.availCnt (s : State) : State :=
  let ms := (s.resident.map (fun i => i.man)).toList ++ (s.staged.map (fun i => i.man)).toList
  let sum := fun (f : Manifest → Nat) => ms.foldl (fun a m => a + f m) 0
  ((((s.put FAB_AVAIL_CNT.CONTEXTS (s.granted - sum (fun m => m.contexts))).put FAB_AVAIL_CNT.RED_CHANNELS (16 - sum (fun m => pop m.redChannels 16))).put
    FAB_AVAIL_CNT.SYNC_CELLS (4096 - sum (fun m => m.syncObjects))).put FAB_AVAIL_CNT.QSTORE_UNITS (128 - sum (fun m => m.qstoreUnits))).put
    FAB_AVAIL_CNT.QUEUES (64 - sum (fun m => pop m.queueMask 64))

/-- The flags of FAB_STATUS and the image IDs follow the loaded images. -/
def State.imageFlags (s : State) : State :=
  ((((s.put FAB_STATUS.UNFIT_RESIDENT (b2n (s.resident.any (fun i => i.unfit)))).put FAB_STATUS.UNFIT_STAGED (b2n (s.staged.any (fun i => i.unfit)))).put
    FAB_STATUS.STAGED_VALID (b2n s.staged.isSome)).put FAB_RESIDENT_ID.IMAGE_ID ((s.resident.map (fun i => i.id)).getD 0)).put
    FAB_STAGED_ID.IMAGE_ID ((s.staged.map (fun i => i.id)).getD 0)

/-- Every window of every Bench closes, advancing the epoch of those that are OPEN, and every credit store empties
(R177, R182). -/
def State.closeWin (s : State) (p w : Nat) : State :=
  if s.on (BEN_WIN_STATE.OPEN p w) then
    let e := s.get (BEN_WIN_STATE.EPOCH p w)
    let n := (e + 1) % 2 ^ 32
    (s.clrF (BEN_WIN_STATE.OPEN p w)).put (BEN_WIN_STATE.EPOCH p w) (if n = 0 then 1 else n)
  else s

/-- The Benches that have a register of the window or credit groups listed. -/
def State.benWith (s : State) (lo hi : Nat) : List Nat :=
  (s.regs.filterMap (fun e =>
    if 0x1000000 ≤ e.1 ∧ lo ≤ e.1 % 0x1000 ∧ e.1 % 0x1000 < hi then some ((e.1 - 0x1000000) / 0x1000) else none)).eraseDups

def State.closeAll (s : State) : State :=
  let s1 := (s.benWith 0x300 0x380).foldl (fun s p => (List.range 8).foldl (fun s w => s.closeWin p w) s) s
  (s1.benWith 0x380 0x400).foldl (fun s p =>
    (List.range 8).foldl (fun s c => (s.setWord (BEN_CREDIT_KEY.reg p c) 0).setWord (BEN_CREDIT_STATE.reg p c) 0) s) s1

/-- DEFINE bindings of an image in the order of R351, with the defining tile: tile, ctx, vid, role, N. -/
def View.definesAt (v : View) : List (Nat × Nat × Nat × Nat × Nat) :=
  (v.planes.map (fun p => ((List.range 1024).map (fun t => (v.record p.2 t).defines.map (fun d => (t, d)))).flatten)).flatten

/-- The free cell with the fewest hops from a stop; the lower number decides a tie (R351). -/
def State.nearCell (s : State) (stop : Nat) : Option Nat :=
  ((List.range 4096).foldl (fun (best : Option (Nat × Nat)) c =>
    if (s.cell c).valid then best
    else
      let h := hops stop (cellStop c)
      match best with
      | none => some (h, c)
      | some b => if h < b.1 then some (h, c) else best) none).map (·.2)

/-- R351 step 1: the contexts of a loaded image. `owner`: 1 resident, 2 staged. -/
def State.claimCtx (s : State) (n owner : Nat) : State :=
  let free := (List.range 16).filter (fun x => s.on (SYN_CTX_STATE.GRANTED x) && s.get (SYN_CTX_STATE.OWNER x) == 0)
  (free.take n).zipIdx.foldl (fun s x =>
    (s.put (SYN_CTX_STATE.OWNER x.1) owner).put (SYN_IMAGE_CTX.CTX (owner - 1) x.2) x.1) (s.setWord (SYN_IMAGE_CTX.reg (owner - 1)) 0)

/-- R351 steps 1 and 2: contexts and cells of a loaded image. -/
def State.mapSync (s : State) (v : View) (owner : Nat) : State :=
  v.definesAt.foldl (fun s d =>
    let ctx := s.physCtx (owner - 1) d.2.1
    if (s.findCell ctx d.2.2.1).isSome then s
    else match (s.phys d.1).bind (fun p => s.nearCell p) with
      | none => s
      | some c =>
        (s.setCell c { valid := true, ctx := ctx, vid := d.2.2.1, barrier := d.2.2.2.1 == 3, n := d.2.2.2.2 }).incMod (SYN_CTX_STATE.CELLS ctx)) (s.claimCtx v.manifest.contexts owner)

/-- The drawers that an image defines. -/
def State.drawers (s : State) (m : Manifest) (staged : Bool) : State :=
  (List.range 4).foldl (fun s d =>
    if bit m.planeMask d then ((s.setF (FAB_DRAWER.VALID d)).put (FAB_DRAWER.OWNER d) (b2n staged)).put (FAB_DRAWER.KIND d) (m.planeKind.getD d 0)
    else if staged then s else s.setWord (FAB_DRAWER.reg d) 0) s

/-- What a full load releases of the loaded images (R69, R182, R217, R352). -/
def State.release (s : State) : State := (((s.queDrop (2 ^ 64 - 1)).switchOut 1).switchOut 2).closeAll

/-- What a successful load does (Table 03.7 step 7, R69, R70, R182, R217, R346, R351, R352). -/
def State.commitLoad (s : State) (l : Load) : State :=
  let v := s.imageAt l.addr
  let m := v.manifest
  let im : Image := { addr := l.addr, id := v.imageId, length := v.imageLength, man := m }
  let s1 := if l.staged then
      let t := (s.queDrop ((s.staged.map (fun i => i.man.queueMask)).getD 0)).switchOut 2
      { (t.drawers m true).mapSync v 2 with staged := some im }
    else
      { (s.release.drawers m false).mapSync v 1 with resident := some im, staged := none }
  let s2 := ((s1.extend (if l.staged then 3 else 2) (sm3 v.signed)).zeroTags (fun _ => true)).modRed (fun r => { r with checked := false })
  let s3 := s2.snapEnd 9
  ((if l.staged then s3 else s3.genSyncAll).availCnt.claims.imageFlags.queAll).endLoad 0 0 0 0

/-- What a load that failed while writing leaves (R72). -/
def State.failWrite (s : State) (l : Load) : State :=
  let s1 := if l.staged then
      ((s.queDrop ((s.staged.map (fun i => i.man.queueMask)).getD 0)).switchOut 2) |> fun t => { t.setWord (FAB_DRAWER.reg 3) 0 with staged := none }
    else
      let t := (((s.queDrop (2 ^ 64 - 1)).switchOut 1).switchOut 2)
      { (List.range 4).foldl (fun s d => s.setWord (FAB_DRAWER.reg d) 0) t with resident := none, staged := none }
  (s1.availCnt.claims.imageFlags.queAll).endLoad 0x14 0 0 0

/-- LOAD_WRITE_DONE (R72, R73). With an uncorrectable error, how many sections had been written is open (log 1). -/
def execLoadWriteDone (ue : Bool) (s : State) : Out := act s fun s =>
  match s.load with
  | none => s
  | some l =>
    if s.get FAB_LOAD_STATUS.STATE ≠ 4 then s
    else
      let secs := (s.imageAt l.addr).sections
      let bad := ue || !(s.badIn .wrd l.addr (s.imageAt l.addr).imageLength).isEmpty
      if bad then
        let (f, s1) := s.draw
        ((secs.take (f % (secs.length + 1))).foldl (fun s e => s.putSection l.addr e) s1).failWrite l
      else (secs.foldl (fun s e => s.putSection l.addr e) s).commitLoad l

end Sys2Proof.Machine
end

