-- ==== Sys2Proof/Machine/Fabric.lean ====
section
/-! DEFINITION. Micro-batches in the fabric: how a RUN starts, drained boundaries, drawer swaps, pending settings, the
tile map and aborts (chapter 03, R75 to R87, R121, R160, R173, R238 to R242, R257, R409 to R414, R481). -/

namespace Sys2Proof.Machine

/-! ## Pending settings (R79, R80, R160, R481) -/

/-- Whether an SH write is pending (R481). -/
def State.shPending (s : State) : Bool := !s.shadow.isEmpty || s.boardPending

/-- Whether a row's fences wait for a boundary (R85). -/
def State.fenceWant (s : State) (ty : Nat) : Nat := (s.get (TMAP_FENCE_REQ.REQ ty)) ||| (s.get (TMAP_FENCE_FORCE.FORCE ty))
def State.mapPending (s : State) : Bool := (List.range 32).any (fun ty => s.fenceWant ty != s.get (TMAP_ROW_STATE.FENCE ty))

/-- While the fabric is idle, BOUNDARY reads 1 until what is pending has applied (R80). -/
def State.idleBits (s : State) : State :=
  if s.fab.phase = .idle ∧ s.fab.micros.isEmpty = true then s.put FAB_STATUS.BOUNDARY (b2n (s.shPending || s.mapPending)) else s

/-- The PENDING bits follow the fence masks and the clears that a change waits for (R80). -/
def State.fenceBits (s : State) : State :=
  ((List.range 32).foldl (fun s ty => s.put (TMAP_ROW_STATE.PENDING ty)
    (b2n (s.fenceWant ty != s.get (TMAP_ROW_STATE.FENCE ty) || s.fab.moving.contains ty))) s).idleBits

/-- SH_PENDING reads 1 while an SH write has not applied, the re-encodings of a class change included (R80, R481). -/
def State.shBit (s : State) : State := s.put FAB_STATUS.SH_PENDING (b2n (s.shPending || !s.fab.reenc.isEmpty))

/-- The regions whose class may differ between two states: the scratchpad regions of the class registers that are
pending, and the pages of the Shelf ranges that are. -/
def State.classRegions (s t : State) : List (Bool × Nat) :=
  let sp := (s.shadow.filterMap (fun e =>
    if 0x1000000 ≤ e.1 ∧ 0x200 ≤ e.1 % 0x1000 ∧ e.1 % 0x1000 < 0x218 then
      some ((List.range 64).map (fun r => (false, (e.1 - 0x1000000) / 0x1000 * 192 + (e.1 % 0x1000 - 0x200) / 8 * 64 + r))) else none)).flatten
  let pages := fun (u : State) (m : Nat) => (List.range (u.get (MEM_SHELF_WCLASS.PAGES m))).map (fun k => (true, u.get (MEM_SHELF_WCLASS.BASE_PAGE m) + k))
  let sh := (s.shadow.filterMap (fun e =>
    if 0x50100 ≤ e.1 ∧ e.1 < 0x50180 then some (pages s ((e.1 - 0x50100) / 8) ++ pages t ((e.1 - 0x50100) / 8)) else none)).flatten
  (sp ++ sh.filter (fun x => decide (x.2 < s.get FAB_SHELF_LIMIT.BYTES / 4096))).filter (fun x => if x.1 then s.shelfWeight x.2 != t.shelfWeight x.2 else s.spWeight (x.2 / 192) (x.2 % 192) != t.spWeight (x.2 / 192) (x.2 % 192))

/-- One register takes its pending SH fields. -/
def State.applyWord (s : State) (off : Nat) (w : Word) : State :=
  if 0x1000000 ≤ off ∧ off % 0x1000 = 0x260 then
    (List.range 8).foldl (fun s k => if bit w.toNat k then s.closeWin ((off - 0x1000000) / 0x1000) k else s) s
  else match regSpec off with
    | none => s
    | some r =>
      let s1 := r.fields.foldl (fun s f => if f.acc = .sh then s.put ⟨off, f.hi, f.lo⟩ (fget w f.hi f.lo) else s) s
      if off = NUM_ANOMALY_MASK.reg then s1.anomalyBits else s1

/-- Whether applying a register calls for the configuration check of R276 and R412. -/
def checkReg (off : Nat) : Bool := regBlock off == 8 || regBlock off == 9 || off == RAS_CAPTURE.reg || off == RAS_DIGEST_TABLE.reg

/-- Every pending SH write applies at once (R79). -/
def State.applySh (s : State) : State :=
  if s.shPending then
    let was := s.replay
    let s1 := s.shadow.foldl (fun t e => t.applyWord e.1 e.2) s
    let regions := s.classRegions s1
    let s2 := { s1 with shadow := [], boardPending := false }
    let s3 := if s.boardPending then s2.setF WRD_BOARD.VALID else s2
    let s4 := if regions.isEmpty then s3 else (s3.setF MEM_EVENT.CLASS_APPLIED).modFab (fun f => { f with reenc := regions.eraseDups })
    let s5 := if s.shadow.any (fun e => checkReg e.1) then s4.redCheck else s4
    (if s5.replay && !was then s5.modFab (fun f => { f with fed := 0 }) else s5).shBit
  else s

/-! ## The tile map (R84 to R87, R172, R173) -/

/-- new_row_map: the columns of a row's tiles under a fence mask (R84). -/
def newRowMap (fence : Nat) (old : List (Option Nat)) : List (Option Nat) :=
  let free := (List.range 33).filter (fun c => !(bit fence c))
  let width := min 32 free.length
  let keep := (List.range 32).map (fun tx => if tx < width then (old.getD tx none).bind (fun c => if bit fence c then none else some c) else none)
  let rest := free.filter (fun c => !(keep.contains (some c)))
  ((List.range 32).foldl (fun (a : List (Option Nat) × List Nat) tx =>
    if tx < width then
      match keep.getD tx none with
      | some c => (a.1 ++ [some c], a.2)
      | none => (a.1 ++ [a.2.head?], a.2.drop 1)
    else (a.1 ++ [none], a.2)) ([], rest)).1

/-- A row's columns as the map now gives them. -/
def State.rowCols (s : State) (ty : Nat) : List (Option Nat) := (List.range 32).map (fun tx => (s.phys (ty * 32 + tx)).map (fun p => p % 33))

/-- A row takes its new map. -/
def State.setRow (s : State) (ty : Nat) : State :=
  let fence := s.fenceWant ty
  let cols := newRowMap fence (s.rowCols ty)
  let s1 := (cols.zipIdx).foldl (fun s x => match x.1 with
    | some c => (s.setF (TMAP_ROW_COL.VALID ty (x.2 / 8) (x.2 % 8))).put (TMAP_ROW_COL.COL ty (x.2 / 8) (x.2 % 8)) c
    | none => (s.clrF (TMAP_ROW_COL.VALID ty (x.2 / 8) (x.2 % 8))).put (TMAP_ROW_COL.COL ty (x.2 / 8) (x.2 % 8)) 0) s
  (s1.put (TMAP_ROW_STATE.FENCE ty) fence).put (TMAP_ROW_STATE.WIDTH ty) (cols.countP Option.isSome)

/-- new_slice_hosts: the position that hosts each logical slice, after the map has changed (R173). `old` holds the
hosts before. -/
def State.newHosts (s : State) (old : List (Option Nat)) : List (Option Nat) :=
  let n := s.tiles
  let pos := (List.range 1024).map s.phys
  let free := (List.range 1024).filterMap (fun t => if n ≤ t then pos.getD t none else none)
  let own := (List.range n).map (fun k => pos.getD k none)
  let kept := (List.range n).map (fun k => match own.getD k none with
    | some h => some h
    | none => (old.getD k none).bind (fun h => if free.contains h then some h else none))
  let rest := free.filter (fun h => !(kept.contains (some h)))
  ((kept.foldl (fun (a : List (Option Nat) × List Nat) h => match h with
    | some x => (a.1 ++ [some x], a.2)
    | none => (a.1 ++ [a.2.head?], a.2.drop 1)) ([], rest)).1) ++ List.replicate (1024 - n) none

/-- The registers of a slice's host. -/
def State.setHost (s : State) (k : Nat) (h : Option Nat) : State :=
  match h with
  | none => s.clrF (MEM_SLICE_HOST.VALID k)
  | some p => ((s.setF (MEM_SLICE_HOST.VALID k)).put (MEM_SLICE_HOST.ROW k) (p / 33)).put (MEM_SLICE_HOST.COL k) (p % 33)

/-- The images are checked again after a map change (R87). -/
def State.refit (s : State) : State :=
  let bad := fun (i : Image) => i.unfit || (s.rowCheck i.man).isSome || s.shelfPast i.man
  let new := fun (o : Option Image) => o.any (fun i => bad i && !i.unfit)
  let mark := fun (i : Image) => { i with unfit := bad i }
  let s1 := { s with resident := s.resident.map mark, staged := s.staged.map mark }
  (if new s.resident || new s.staged then s1.setF TMAP_EVENT.UNFIT else s1).imageFlags

/-- Every changed fence mask applies, with the clears that it calls for (R85 to R87, R173). -/
def State.applyMap (s : State) : State :=
  let rows := (List.range 32).filter (fun ty => s.fenceWant ty != s.get (TMAP_ROW_STATE.FENCE ty))
  if rows.isEmpty then s
  else
    let s0 := rows.foldl (fun t ty => t.setRow ty) s
    let changed := rows.any (fun ty => s.rowCols ty != s0.rowCols ty)
    if !changed then s0.fenceBits
    else
      let tiles := (rows.map (fun ty => (List.range 32).map (fun tx => ty * 32 + tx))).flatten
      let moved := tiles.filter (fun t => (s0.phys t).isSome && s.phys t != s0.phys t)
      let old := (List.range 1024).map s.sliceHost
      let hosts := s0.newHosts old
      let slices := (List.range 1024).filter (fun k => (hosts.getD k none).isSome && hosts.getD k none != old.getD k none)
      let lost := tiles.filter (fun t => s.phys t != s0.phys t)
      let gone := (List.range 1024).filter (fun k => hosts.getD k none != old.getD k none)
      let t0 := gone.foldl (fun t k => t.cow (shelfBase + k * 0x600000) 0x600000) (lost.foldl (fun t n => t.cow (spAddr n 0) 0xC0000) s)
      let s1 := rows.foldl (fun t ty => t.setRow ty) t0
      let s2 := moved.foldl (fun t n =>
        let t1 := (List.range 4).foldl (fun t d => if t.on (FAB_DRAWER.VALID d) then t.putRecord d n else t) t
        match t1.phys n with
        | none => t1
        | some p => (t1.setBench p {}).clrPhys .sp (p * 0xC0000) 0xC0000) s1
      let s3 := (List.range 1024).foldl (fun t k => if hosts.getD k none = old.getD k none then t else t.setHost k (hosts.getD k none)) s2
      let s4 := slices.foldl (fun t k => match hosts.getD k none with
        | none => t
        | some p => t.clrPhys .shelf (p * 0x600000) 0x600000) s3
      let s5 := ((s4.setF TMAP_EVENT.MAP_CHANGED).incMod TMAP_GEN.GEN).put FAB_SHELF_LIMIT.BYTES (s4.tiles * 0x600000)
      let s6 := if moved.isEmpty then s5 else s5.setF TMAP_EVENT.LOST_TILE
      let s7 := if slices.isEmpty then s6 else s6.setF MEM_EVENT.SLICE_MOVED
      let out := moved.filterMap s7.phys ++ slices.filterMap (fun k => hosts.getD k none)
      let s8 := (((s7.modFab (fun f => { f with clears := out, moving := if out.isEmpty then [] else rows })).fenceBits).refit).queAll
      if moved.isEmpty then s8 else if s8.get SBD_STATUS.STATE = 0 then s8.put SBD_STATUS.STATE 5 else s8.refreshAll

/-! ## Bench state at the start of a micro-batch (R76, R128, R329) -/

/-- The address registers at the start of a micro-batch, with the KV offset of R269. -/
def aregs (v : View) (r : Run) : SMap Word :=
  (List.range 8).foldl (fun m n =>
    let a := v.aInit n
    let w := if bit r.kvMask n then a - a % 2 ^ 48 + (a + r.pos * r.kvStride) % 2 ^ 48 else a
    SMap.set m 0 n (BitVec.ofNat 64 w)) []

/-- The first descriptor in use at or after `k` (R174). -/
def View.nextDesc (v : View) (k : Nat) : Option Nat := (List.range 64).find? (fun d => decide (k ≤ d) && v.dOp d != 0)

/-- The status registers of a Bench with no work in progress: banks EMPTY, no product, no invocation, no transfer. DESIGN
CHOICE (log 63): BEN_VEC_STATUS.PC keeps the last value, for which the manual gives none while KIND is 0. -/
def State.benchIdle (s : State) (p : Nat) : State :=
  (((s.setWord (BEN_MAT_STATUS.reg p) 0).put (BEN_VEC_STATUS.KIND p) 0).put (BEN_VEC_STATUS.ROW p) 0).put (BEN_DMA_STATUS.STATE p) 0

/-- The words that CONSUME routes hold of a micro-batch whose descriptors are over are discarded (R485). -/
def State.rxDiscard (s : State) (p : Nat) (v : View) (r : Run) : State :=
  let ended := ((s.fab.micros.find? (fun m => m.run == r)).map (fun m => m.ended)).getD []
  let gone := fun (x : RxPacket) => (List.range v.queueBinds).any (fun i => v.qRole i == 1 && v.qRoute i == x.route && !(ended.contains (v.qQueue i)))
  let n := ((s.bench p).rx.filter gone).foldl (fun a x => a + x.got.length / 64) 0
  (s.incSat (BEN_QUE_DISCARD.WORDS p) n).modBench p (fun b => { b with
    rx := ((b.rx.map (fun x => if gone x then { x with got := [] } else x)).filter (fun x => !(gone x && x.recv == x.words))) })

/-- A Bench begins a micro-batch: its vector unit is reset, its descriptors start over, and its IN entries grant two
credits each (R128, R175, R329). DESIGN CHOICE (log 63): a Bench whose MODE is 0 ignores its record (R67) and keeps the V
and A registers it holds until it next takes part. -/
def State.benchStart (s : State) (tile : Nat) (r : Run) : State :=
  match s.phys tile, s.planeAt r.drawer tile with
  | some p, some v =>
    if v.mode = 0 then s
    else
      let b := s.bench p
      let first := v.nextDesc 0
      let b1 : Bench := { b with
        bankA := [], bankB := [], vreg := [], areg := aregs v r, stA := [], stB := [], prod := none, takenA := 0, takenB := 0, tileNo := 0, full := [], inv := none,
        deferd := [], rowBuf := [], pkIdx := [], sb := [], stalled := [], started := false, prog := 0, descDone := first.isNone,
        moved := false, nacked := false, waiting := none, starved := none, report := 0 }
      let s0 := (((s.setBench p b1).benchIdle p).put (BEN_DMA_STATUS.DESC p) (first.getD 0)).put (BEN_DMA_STATUS.STATE p) (b2n first.isSome)
      let s1 := if first.isNone then s0.rxDiscard p v r else s0
      (List.range v.routes).foldl (fun t i =>
        if v.rKind i = 1 ∧ (v.rTarget i = 0 ∨ v.rTarget i = 2) then t.grant tile i r.mb 2 v else t) s1
  | _, _ => s

/-! ## A RUN enters the fabric (R121, R257, R378, R409, R414) -/

/-- The word of NUM_STATUS when a step begins, and its predecessor's copy (R121). -/
def State.numStep (s : State) (step : Nat) : State :=
  if step = s.get NUM_STATUS.STEP then s
  else ((s.setWord NUM_STATUS_PREV.reg (s.word NUM_STATUS.reg)).clearNum).put NUM_STATUS.STEP step

/-- The loss sum when a step begins (R257). -/
def State.lossStep (s : State) (step : Nat) : State :=
  if step = s.get SBD_LOSS.STEP then s
  else
    let s1 := (s.put SBD_LOSS_PREV.STEP (s.get SBD_LOSS.STEP)).put SBD_LOSS_PREV.SUM (s.get SBD_LOSS.SUM)
    ((s1.put SBD_LOSS.SUM 0).put SBD_LOSS_COUNT.VALUES 0).put SBD_LOSS.STEP step

/-- One captured input is fed in replay (R414). -/
def State.feedOne (s : State) (a : Nat) : State :=
  let n := fun o k => s.leA true (a + o) k
  let data := (s.rdA true (a + 64) (n 8 4)).getD []
  let kind := n 4 1
  let unit := n 5 1
  let tile := n 6 2
  if kind = 1 then
    let src := n (16 + 0x14) 4
    let prod : Producer := if src / 2 ^ 30 = 2 then .bct (src % 1024) else .link 255 (src % 2 ^ 15)
    let r : OpenReq := { words := n (16 + 4) 2, isEnd := bit (n (16 + 7) 1) 0, step := n (16 + 8) 4, mb := n (16 + 12) 4, tokens := n (16 + 16) 4 }
    ((s.modQueue unit (fun x => { x with wait := x.wait ++ [(prod, r, data)] })).tryOpen unit).queSync unit
  else if kind = 2 then s.feedBlock tile unit (n 12 4) data
  else if kind = 3 then s.feedToken tile unit
  else s.wr! true (spAddr tile (n 16 8)) data

/-- The captured inputs of a RUN index, in capture order (R414). -/
def State.feed : Nat → State → Nat → Nat → State
  | 0, s, _, _ => s
  | f + 1, s, a, idx =>
    let base := s.get RAS_CAPTURE.BASE
    let kind := s.leA true (a + 4) 1
    if a + 64 > base + s.get RAS_CAPTURE.MIB * 2 ^ 20 ∨ kind = 0 ∨ kind > 4 then s
    else
      let s1 := if s.leA true a 4 = idx then s.feedOne a else s
      State.feed f s1 (a + 64 + (s.leA true (a + 8) 4 + 63) / 64 * 64) idx

/-- What a RUN of a training drawer does to the step's state when it starts (R121, R239, R257, R276, R409). -/
def State.stepStart (s : State) (r : Run) : State × Run :=
  let s0 := if s.red.checked then s else s.redCheck
  if r.kind = 3 then (s0, r)
  else if s0.replay then
    let i := s0.fab.fed
    ((s0.modFab (fun f => { f with fed := f.fed + 1 })), { r with index := some i })
  else
    let s1 := (s0.numStep r.step).lossStep r.step
    let s2 := if r.step = s1.get RED_STATUS.STEP then s1 else s1.enterAttempt r.step 0
    let i := s2.red.runNext
    let s3 := (s2.modRed (fun x => { x with runNext := i + 1 })).redEnd
    (if s3.on RAS_CTRL.CAPTURE then s3.incSat RAS_CAPTURE_USED.RUNS else s3, { r with index := some i })

/-- A micro-batch enters the fabric: the input agents feed it, and every Bench that is free begins it. -/
def State.enterMicro (s : State) (r0 : Run) : State :=
  let (s1, r) := s.stepStart r0
  let s2 := (s1.clrF FAB_STATUS.IDLE).modFab (fun f => { f with phase := .running, micros := f.micros ++ [{ run := r }] })
  let free := fun (t : Nat) => s1.fab.micros.all (fun m => m.done.contains t)
  let s3 := (s2.members r.drawer).foldl (fun s m => if free m.1 then s.benchStart m.1 r else s) s2
  let s4 := match r.index with
    | some i => if s3.replay then State.feed (s3.get RAS_CAPTURE.MIB * 16384) s3 (s3.get RAS_CAPTURE.BASE) i else s3
    | none => s3
  s4.noteSent.queAll

/-! ## Drained boundaries (Table 03.8) -/

/-- Step 5 has ended: the swap's FLIP, the RESUME, or an idle fabric. -/
def State.afterApply (s : State) : State :=
  if !(s.fab.clears.isEmpty && s.fab.reenc.isEmpty) then (s.modFab (fun f => { f with phase := .applying })).setF FAB_STATUS.BOUNDARY
  else match s.fab.next with
    | none => (((s.modFab (fun f => { f with phase := .idle })).clrF FAB_STATUS.BOUNDARY).put FAB_STATUS.IDLE (b2n s.fab.micros.isEmpty)).idleBits
    | some r =>
      let ph : Phase := if r.drawer = s.active then .resuming else .flipping
      (s.modFab (fun f => { f with phase := ph, ready := [] })).setF FAB_STATUS.BOUNDARY

/-- A RUN that has started takes its place: at once in an idle fabric or behind the current micro-batch at a
pass-through boundary; otherwise it waits for the drained boundary (R78, R80, R81). -/
def State.startRun (s : State) (r : Run) : State :=
  let quiet := !s.shPending && !s.mapPending && s.ckp.want.isNone
  let same := r.drawer == s.active
  if s.fab.phase = .idle ∧ quiet = true ∧ same = true then s.enterMicro r
  else if s.fab.phase = .running ∧ quiet = true ∧ same = true ∧ s.fab.aborting = false then s.enterMicro r
  else
    let s1 := (s.clrF FAB_STATUS.IDLE).modFab (fun f => { f with next := some r })
    let s2 := if same then s1 else (s1.setF FAB_STATUS.SWAP_PENDING).put FAB_STATUS.NEXT_DRAWER r.drawer
    if s.fab.phase = .idle ∧ quiet = true then (s2.modFab (fun f => { f with swapFrom := s.now })).afterApply else s2

/-- Step 5: pending settings and map changes apply, and a requested cut is made (R425). -/
def State.applyAll (s : State) : State := (s.applySh.applyMap.snapCut).afterApply

/-- Whether a map change waits for a flit that is addressed by a logical tile number (R86). -/
def State.mapWaits (s : State) : Bool := s.mapPending && s.mesh.flits.any (fun f => f.msg.tile?.isSome)

/-- IDLE_APPLY (R80): at an idle fabric, or for a RUN that waits on it, what is pending applies. -/
def execIdleApply (s : State) : Out := act s fun s =>
  if s.fab.phase = .idle ∧ s.fab.micros.isEmpty = true ∧ s.mapWaits = false ∧ (s.shPending = true ∨ s.mapPending = true ∨ s.ckp.want.isSome = true ∨ s.fab.next.isSome = true) then s.applyAll else s

/-- TILE_CLEAR_DONE (R86, R173). -/
def execTileClearDone (s : State) : Out := act s fun s =>
  if s.fab.phase = .applying ∧ s.fab.clears.isEmpty = false then
    ((s.modFab (fun f => { f with clears := [], moving := [] })).fenceBits).afterApply else s

/-- BENCH_FLIP (Table 03.8 step 7). -/
def execBenchFlip (tile : Nat) (s : State) : Out := act s fun s =>
  if s.fab.phase = .flipping ∧ (s.phys tile).isSome = true ∧ s.fab.ready.contains tile = false then
    s.modFab (fun f => { f with ready := tile :: f.ready }) else s

/-- The swap's statistics (R81). -/
def State.swapStats (s : State) : State :=
  let t := min (2 ^ 32 - 1) (s.now - s.fab.swapFrom)
  ((s.incMod FAB_SWAP_COUNT.COUNT).put FAB_SWAP_STATS.LAST_TICKS t).put FAB_SWAP_STATS.MAX_TICKS (max t (s.get FAB_SWAP_STATS.MAX_TICKS))

/-- RESUME (Table 03.8 step 9): the drawer is in force, and the fabric runs. -/
def State.resumed (s : State) (r : Run) : State :=
  let s1 := if s.fab.phase = .flipping then (s.put FAB_STATUS.ACTIVE_DRAWER r.drawer).swapStats else s
  (((s1.clrF FAB_STATUS.SWAP_PENDING).put FAB_STATUS.NEXT_DRAWER 0).clrF FAB_STATUS.BOUNDARY).modFab (fun f => { f with
    phase := .running, next := none, ready := [], tokens := [] })

/-- Whether the Sideboard holds a RUN of a drawer: every RUN while it updates, gathers or refreshes (R262), and a swap into
D2 from the end of a step's last backward RUN until the step's vote has an outcome (R33). -/
def State.sbdHolds (s : State) (d : Nat) : Bool :=
  decide (3 ≤ s.get SBD_STATUS.STATE) || (d == 2 && s.active != 2 && (s.red.drainDone || s.red.contributed.isSome || s.red.waitRevote))

/-- SWAP_RESUME (Table 03.8 steps 8 to 10; R33, R262). -/
def execSwapResume (s : State) : Out := act s fun s =>
  match s.fab.next with
  | none => s
  | some r =>
    let ready := s.fab.phase == .resuming || (s.fab.phase == .flipping && (List.range 1024).all (fun t => (s.phys t).isNone || s.fab.ready.contains t))
    if ready && !(s.sbdHolds r.drawer) then (s.resumed r).enterMicro r else s

/-- A status word takes flags (R120 to R122). -/
def State.numOr (s : State) (kind flags : Nat) : State :=
  let o := if kind = 3 then NUM_STATUS_GEN.reg else NUM_STATUS.reg
  (s.setWord o (s.word o ||| BitVec.ofNat 64 (flags % 128))).anomalyBits

/-- The digest table entry of a RUN (R412). -/
def State.digestEntry (s : State) (m : Micro) : State :=
  match m.run.index with
  | none => s
  | some i =>
    if i < 4096 ∧ (s.on RAS_CTRL.CAPTURE = true ∨ s.replay = true) then
      let d := if m.digest = 2 ^ 64 - 1 then 0 else m.digest
      s.wr! true (s.get RAS_DIGEST_TABLE.ADDR + 16 * i) (leBytes 8 d ++ leBytes 4 m.run.mb ++ leBytes 1 m.run.drawer ++
        leBytes 1 (b2n m.run.accStart + 2 * b2n m.run.accDrain) ++ [0, 0])
    else s

/-- A micro-batch has ended: its RUN completes (R77, R83, R120, R296, R412). -/
def State.endMicro (s : State) (m : Micro) (aborted : Bool) : State :=
  let s1 := if s.replay ∧ m.run.kind ≠ 3 then s else s.numOr m.run.kind m.flags
  let s2 := if aborted then s1 else s1.digestEntry m
  let s3 := if m.run.accDrain && m.run.training && !aborted && !s.replay then s2.modRed (fun r => { r with drainDone := true }) else s2
  s3.complete m.run.chan m.run.seq (if aborted then 0x30 else 0)

/-- Whether the DONE report of every Bench of a micro-batch has reached the home cell (R76, R77). -/
def State.allDone (s : State) (m : Micro) : Bool := (s.members m.run.drawer).all (fun x => m.home.contains x.1)

/-- The drained boundary that an abort ends in: sync objects are cleared, every micro-batch completes ABORTED, then the
ABORT commands (R83, R362). -/
def State.abortEnd (s : State) : State :=
  let s0 := s.syncAbort
  let s1 := s0.fab.micros.foldl (fun s m => s.endMicro m true) s0
  let s2 := (s1.clrF FAB_CTRL.ABORT).modFab (fun f => { f with micros := [], aborting := false, tokens := [], swapFrom := s.now })
  let s3 := (s2.incMod FAB_BOUNDARY_COUNT.COUNT).applyAll.queAll
  s.fab.abortChan.foldl (fun s c => s.complete c.1 c.2 0) (s3.modFab (fun f => { f with abortChan := [] }))

/-- The oldest micro-batch ends: a pass-through boundary where another has entered behind it, else a drained one (R78,
R81). -/
def State.boundaryEnd (s : State) (m : Micro) (rest : List Micro) : State :=
  let s0 := if s.on SBD_LOSS_WIN.EN = true ∧ m.run.kind = 1 ∧ m.lossDone = false then s.lossAdd else s
  let s1 := (s0.endMicro m false).modFab (fun f => { f with micros := rest })
  if rest.isEmpty then
    ((s1.modFab (fun f => { f with tokens := [], swapFrom := m.lastToken })).incMod FAB_BOUNDARY_COUNT.COUNT).applyAll.queAll
  else s1.noteSent.queAll

/-- BOUNDARY_COMPLETE (R77, R78, R81, R83). -/
def execBoundaryComplete (s : State) : Out := act s fun s =>
  match s.fab.micros with
  | [] => s
  | m :: rest =>
    if s.fab.aborting then (if s.fab.micros.all s.allDone && !s.mapWaits then s.abortEnd else s)
    else if s.allDone m && m.tokenSent && !(rest.isEmpty && s.mapWaits) then s.boundaryEnd m rest
    else s

/-- BOUNDARY_TIMEOUT (R82). -/
def execBoundaryTimeout (s : State) : Out := act s fun s =>
  match s.fab.micros with
  | [] => s
  | m :: rest =>
    match m.firstDone, ((s.members m.run.drawer).find? (fun x => !(m.done.contains x.1))) with
    | some t, some x =>
      if m.timedOut = false ∧ t + s.get FAB_BOUNDARY_TIMEOUT.TICKS ≤ s.now then
        (s.modFab (fun f => { f with micros := { m with timedOut := true } :: rest })).raise m.run.tag
          { unit := unitId 0 ((s.phys x.1).getD 0xFFF), cls := 1, reason := 0x02FF, ctx := 0, detail := x.1 + 6 * 2 ^ 16 }
      else s
    | _, _ => s

/-! ## Abort and fences (R83, R85) -/

/-- What an abort leaves on the mesh: DONE reports, and the sync operations and releases that are not a Bench's. -/
def Mesh.abort (m : Mesh) : Mesh :=
  (m.withdraw (fun r => r.2 == 9)).keep (fun g => match g with
    | .done .. | .sync .. | .release .. => true
    | _ => false)

/-- A Bench reports DONE for a micro-batch with the sticky bits it has raised in it; the report goes to the home cell (R76,
R77, R120). -/
def State.sendDone (s : State) (tile : Nat) (r : Run) (report : Nat) : State :=
  let s1 := s.modFab (fun f => { f with
    micros := f.micros.map (fun m => if m.run = r then
      { m with done := tile :: m.done, firstDone := some (m.firstDone.getD s.now) } else m) })
  s1.toStop ((s.phys tile).getD 0) (Config.homeStop % 1056) (.done r [(tile, report)])

/-- Every Bench reports DONE for every micro-batch in the fabric without a token; it has raised bits only in the one it
works on. -/
def State.abortDone (s : State) : State :=
  s.fab.micros.foldl (fun s m =>
    (s.members m.run.drawer).foldl (fun s x =>
      if m.done.contains x.1 then s
      else s.sendDone x.1 m.run (if s.runAt x.1 = some m.run then ((s.phys x.1).map (fun p => (s.bench p).report)).getD 0 else 0)) s) s

/-- Every Bench discards its work and reports DONE, and queues, windows and the Benches' remote operations and waits end
with it; the drained boundary is due (R83, R182, R235). A Bench whose stall ends so asks to resume (R55). -/
def State.abortMark (s : State) : State :=
  let live := (s.members s.active).filterMap (fun m => s.phys m.1)
  let stop := fun (b : Bench) => ({ tagA := b.tagA, tagW := b.tagW, lending := b.lending, asking := b.asking || b.lending, ramp := b.ramp,
                                    rampAt := b.rampAt, descDone := true } : Bench)
  let s0 := ({ s with mesh := s.mesh.abort, waits := s.waits.filter (fun w => w.slot != 9) } : State).abortDone
  let s1 := live.foldl (fun s p => (s.modBench p stop).benchIdle p) s0
  let s2 := ((s1.queAbort.closeAll).snapEnd 9)
  let s3 := { s2 with remote := s2.remote.filter (fun r => r.issuer / 2 ^ 14 != 0) }
  (s3.setF FAB_CTRL.ABORT).modFab (fun f => { f with
    aborting := true, micros := f.micros.map (fun m => { m with tokenSent := true }),
    prodTok := f.prodTok.filter (fun x => f.micros.all (fun m => m.run != x.2)) })

/-- A write of FAB_CTRL.ABORT (R83); a RUN that only waits to start ends at once. -/
def State.doAbort (s : State) : State :=
  if s.idle || s.fab.aborting then s
  else if s.fab.micros.isEmpty then
    match s.fab.next with
    | none => s
    | some r =>
      let s1 := (((s.modFab (fun f => { f with next := none })).clrF FAB_STATUS.SWAP_PENDING).put FAB_STATUS.NEXT_DRAWER 0).complete r.chan r.seq 0x30
      s1.afterApply
  else if s.fab.micros.any (fun m => m.run.training) then s.abortMark.contribute fRepeat
  else s.abortMark

/-- ABORT (R83). -/
def execAbort (_iss : Issuer) (s : State) : Out := act s fun s => s.doAbort

/-- A write of TMAP_FENCE_REQ (R85). -/
def State.fenceReq (s : State) (ty mask : Nat) : State :=
  if ty < 32 then (s.put (TMAP_FENCE_REQ.REQ ty) (s.get (TMAP_FENCE_REQ.REQ ty) ||| mask % 2 ^ 33)).fenceBits else s

/-- FENCE_REQUEST (R85). -/
def execFenceRequest (_iss : Issuer) (ty mask : Nat) (s : State) : Out := act s fun s => s.fenceReq ty mask

end Sys2Proof.Machine
end

