-- ==== Sys2Proof/Machine/Matrix.lean ====
section
/-! DEFINITION. The scoreboard of a Bench, its operand stagers, the matrix unit and the numerics counters (chapter 04
and R166 to R169). -/

namespace Sys2Proof.Machine

/-! ## A Bench at work -/

/-- The Bench of a logical tile, its record and the RUN it works on; none where the tile does not take part (R76). -/
def State.work (s : State) (tile : Nat) : Option (Nat × View × Run) :=
  if s.fab.aborting then none
  else match s.phys tile, s.runAt tile with
    | some p, some r => (s.planeAt r.drawer tile).bind (fun v => if v.mode = 0 then none else some (p, v, r))
    | _, _ => none

/-- The same while the Bench's group has power: a group that is OFF gates its matrix and vector units (R61). -/
def State.atWork (s : State) (tile : Nat) : Option (Nat × View × Run) :=
  (s.work tile).filter (fun x => decide (2 ≤ s.get (PWR_FN_CTRL.STATUS (x.1 / 33))))

/-! ## The scoreboard (R166 to R169) -/

/-- The granule of a space: 0 scratchpad, 1 Shelf, 3 Wardrobe, 4 remote window (R166). -/
def granule (space : Nat) : Nat := if space = 1 then 32 else if space = 3 then 64 else 16

/-- Whether two ranges of one space overlap after rounding outward. -/
def SbEntry.meets (x y : SbEntry) : Bool :=
  let g := granule x.space
  x.space == y.space && decide (x.lo / g * g < (y.lo + y.len + g - 1) / g * g) && decide (y.lo / g * g < (x.lo + x.len + g - 1) / g * g)

/-- Whether a pending access holds an access of another unit back (R167); one of the die's own memories always ends. -/
def SbEntry.holds (x e : SbEntry) : Bool := x.unit != e.unit && (x.write || e.write) && x.meets e

/-- Whether an access stalls on a pending access of another unit (R167). -/
def Bench.conflict (b : Bench) (e : SbEntry) : Bool := b.sb.any (fun x => x.holds e)

/-- Whether an access extends an entry: the newest of its unit, of the same kind and space, up to its beginning (R169). -/
def SbEntry.extends? (x e : SbEntry) : Bool :=
  x.unit == e.unit && x.write == e.write && x.space == e.space && x.lo + x.len == e.lo && decide (x.len + e.len ≤ 65536)

/-- The newest entry of a unit. -/
def Bench.newest (b : Bench) (unit : Nat) : Option SbEntry := (b.sb.filter (fun x => x.unit == unit)).getLast?

/-- Whether an access has an entry: a free one, or one it extends (R169). -/
def Bench.hasEntry (b : Bench) (e : SbEntry) : Bool := decide (b.sb.length < 16) || (b.newest e.unit).any (fun x => x.extends? e)

/-- Whether every access of a list can be issued now. -/
def Bench.free? (b : Bench) (l : List SbEntry) : Bool :=
  l.all (fun e => !(b.conflict e) && b.hasEntry e) && b.stalled.all (fun x => l.all (fun e => x.unit != e.unit))

/-- The scoreboard with an access pending. -/
def Bench.pend (b : Bench) (e : SbEntry) : Bench :=
  match b.newest e.unit with
  | some x => if x.extends? e then { b with sb := b.sb.map (fun y => if y = x then { x with len := x.len + e.len } else y) }
              else { b with sb := b.sb ++ [e] }
  | none => { b with sb := b.sb ++ [e] }

/-- The Bench with a unit's accesses of the die's own memories over, as they are when the unit issues its next ones: each
row of a unit performs its accesses in order, and the last of them stay pending behind it (R158, R168). A write to a
remote window stays pending until its answer. -/
def Bench.settle (b : Bench) (unit : Nat) : Bench := { b with sb := b.sb.filter (fun e => e.unit != unit || e.space == 4) }

/-- The scoreboard with a list of accesses of one unit issued in order; where no entry is free the unit's oldest one has
ended (R168, R169). -/
def Bench.issue (b : Bench) (l : List SbEntry) : Bench :=
  l.foldl (fun b e => (if b.hasEntry e then b else
    match b.sb.find? (fun x => x.unit == e.unit && x.space != 4) with
    | some x => { b with sb := b.sb.erase x }
    | none => b).pend e) b

/-- An access that cannot be issued stalls: it is counted once, and its unit waits (R167). -/
def State.stall (s : State) (p : Nat) (l : List SbEntry) : State :=
  let b := s.bench p
  match l.find? (fun e => b.conflict e || !(b.hasEntry e)) with
  | none => s
  | some e =>
    if b.stalled.any (fun x => x.unit == e.unit) then s
    else (s.incSat (BEN_SB_STATUS.STALLS p)).modBench p (fun b => { b with stalled := b.stalled ++ [e] })

/-- A unit issues a list of accesses: whether it may, and the state with them pending, or with the stall (R166 to R169). -/
def State.issue (s : State) (p unit : Nat) (l : List SbEntry) : Bool × State :=
  let s0 := s.modBench p (fun b => b.settle unit)
  if (s0.bench p).free? l then (true, s0.modBench p (fun b => b.issue l)) else (false, s0.stall p l)

/-- The pending accesses that hold stalled ones back end, all but those of remote windows; where they wait for an entry
alone, the oldest does (R168, R169). -/
def Bench.ended (b : Bench) : Bench :=
  let rest := b.sb.filter (fun x => x.space == 4 || !(b.stalled.any (fun e => x.holds e)))
  if rest.length < b.sb.length then { b with sb := rest }
  else match b.sb.find? (fun x => x.space != 4) with
    | some x => if b.stalled.any (fun e => !(b.hasEntry e)) then { b with sb := b.sb.erase x } else b
    | none => b

/-- SCOREBOARD_STALL_END (R167 to R169): the accesses that stalled ones wait for end, and what none holds back any longer
proceeds. -/
def execScoreboardStallEnd (tile : Nat) (s : State) : Out := act s fun s =>
  match s.phys tile with
  | none => s
  | some p => s.modBench p (fun b0 =>
      let b := b0.ended
      { b with stalled := b.stalled.filter (fun e => b.conflict e || !(b.hasEntry e)) })

/-! ## Counters (R119, R120) -/

/-- What an operation counts: elements in each counter, and the sticky bits of Table 04.10. -/
structure Tally where
  ovf  : Nat := 0
  gen  : Nat := 0
  prop : Nat := 0
  ufl  : Nat := 0
  deriving DecidableEq, Repr

/-- The sticky bits of a tally whose overflows belong to bit `o`: 0 ACC64, 1 FW40, 2 a store. -/
def Tally.flags (t : Tally) (o : Nat) : Nat :=
  (if t.ovf = 0 then 0 else 2 ^ o) + (if t.gen = 0 then 0 else 8) + (if t.prop = 0 then 0 else 16) + (if t.ufl = 0 then 0 else 32)

/-- The tally of one rounding. -/
def Rnd.tally (r : Rnd) : Tally := { ovf := b2n r.ovf, gen := b2n r.gen, ufl := b2n r.ufl }

def Tally.add (a b : Tally) : Tally := { ovf := a.ovf + b.ovf, gen := a.gen + b.gen, prop := a.prop + b.prop, ufl := a.ufl + b.ufl }

/-- The tally of a list of roundings. -/
def tallyOf (l : List Rnd) : Tally := l.foldl (fun t r => t.add r.tally) {}

/-- A physical Bench raises sticky bits (R120). -/
def State.sticky (s : State) (p flags : Nat) : State :=
  if flags = 0 then s
  else (s.put (BEN_NUM_STICKY.FLAGS p) (s.get (BEN_NUM_STICKY.FLAGS p) ||| flags)).modBench p (fun b => { b with report := b.report ||| flags })

/-- The counters and sticky bits of a physical Bench take a tally. -/
def State.count (s : State) (p : Nat) (t : Tally) (o : Nat) : State :=
  ((((s.incSat (BEN_NUM_OVF.COUNT p) t.ovf).incSat (BEN_NUM_NAN_GEN.COUNT p) t.gen).incSat (BEN_NUM_NAN_PROP.COUNT p) t.prop).incSat
    (BEN_NUM_UFL.COUNT p) t.ufl).sticky p (t.flags o)

/-- NUM_COUNTER_CLEAR (BEN_NUM_CTRL). -/
def State.numClear (s : State) (p : Nat) : State :=
  ((((s.put (BEN_NUM_OVF.COUNT p) 0).put (BEN_NUM_NAN_GEN.COUNT p) 0).put (BEN_NUM_NAN_PROP.COUNT p) 0).put (BEN_NUM_UFL.COUNT p) 0).put
    (BEN_RES_COUNT.COUNT p) 0

def execNumCounterClear (tile : Nat) (s : State) : Out := act s fun s =>
  match s.phys tile with
  | none => s
  | some p => s.numClear p

/-- CG_TEST (R118): one call of the generator from the test key and counter. -/
def State.cgTest (s : State) : State :=
  let key := fun i => if i % 2 = 0 then s.get (NUM_CG_TEST_KEY.KEY_LO (i / 2)) else s.get (NUM_CG_TEST_KEY.KEY_HI (i / 2))
  let ctr := fun i => if i % 2 = 0 then s.get (NUM_CG_TEST_CTR.CTR_LO (i / 2)) else s.get (NUM_CG_TEST_CTR.CTR_HI (i / 2))
  let x := cg (key 0) (key 1) (key 2) (key 3) (ctr 0) (ctr 1) (ctr 2) (ctr 3)
  (s.setWord (NUM_CG_TEST_OUT.reg 0) (BitVec.ofNat 64 x)).setWord (NUM_CG_TEST_OUT.reg 1) (BitVec.ofNat 64 (x / 2 ^ 64))

def execCgTest (s : State) : Out := act s fun s => s.cgTest

/-! ## Free results (R472, log 1) -/

/-- The n-th free value after those drawn. -/
def State.freeAt (s : State) (n : Nat) : Nat := Config.freeNat (s.freeCtr + n)

/-- The state with `n` free values drawn. -/
def State.skipFree (s : State) (n : Nat) : State := { s with freeCtr := s.freeCtr + n }

/-! ## Products of a record (R98, R101, R134, R144) -/

/-- The ROLE 0 source, and the ROLE 1 sources whose products a tile takes: two for a gate, else one. -/
def View.srcA (v : View) : Option Nat := (v.roleSrcs 0).head?
def View.srcBs (v : View) : List Nat := (v.roleSrcs 1).take (if v.gate then 2 else 1)

/-- Blocks along the depth of every product. -/
def View.depth (v : View) : Nat := (v.srcA.map v.sK).getD 0

/-- Output tiles of a micro-batch: row blocks and column blocks. -/
def View.rowBlocks (v : View) : Nat := (v.srcA.map v.sMn).getD 0
def View.colBlocks (v : View) : Nat := (v.srcBs.head?.map v.sMn).getD 0

/-- Products of a micro-batch; only a PRODUCT Bench has any (Table 03.4). -/
def View.products (v : View) : Nat := if v.mode = 1 then v.rowBlocks * v.colBlocks * v.srcBs.length else 0

/-- The n-th product: ib, jb, its ROLE 1 source, its bank. -/
def View.product (v : View) (n : Nat) : Nat × Nat × Nat × Nat :=
  let g := v.srcBs.length
  let t := n / g
  (t / v.colBlocks, t % v.colBlocks, v.srcBs.getD (n % g) 0, if v.gate then n % 2 else t % 2)

/-- The format in which a source's blocks are stored (R140). -/
def View.sStored (v : View) (i : Nat) : Nat := if v.sPrologue i then v.inFormat i else v.sFormat i

/-- The offset of a block of a scratchpad or Shelf source (Table 04.4). -/
def View.blockOff (v : View) (i mn k : Nat) : Nat := v.sBase i + mn * v.sStrideMn i + k * v.sStrideK i

/-- The scoreboard entry of a read of a KIND 1 or KIND 2 source by a stager. -/
def blockEntry (unit kind off n : Nat) : SbEntry := ⟨unit, if kind = 1 then 0 else 1, off, n, false⟩

/-- The die-local address of an offset in space 0, 1 or 3 of a tile. -/
def spaceAddr (tile space off : Nat) : Nat := if space = 0 then spAddr tile off else if space = 1 then shelfBase + off else off

/-- Reads a block of a KIND 1 or KIND 2 source; outside every range it reads as zero (R11). The manual bounds no block by its
tile's scratchpad window: one that runs past it reads on (DESIGN CHOICE, log 63). -/
def State.readBlock (s : State) (tile : Nat) (r : Run) (kind off n : Nat) : List Byte × State :=
  (s.fetch true (some r) (spaceAddr tile (kind - 1) off) n).getD (List.replicate n 0, s)

/-- The oldest stream block that waits on an IN entry of a Bench. -/
def Bench.landedOn (b : Bench) (route : Nat) : Option (List Byte) := (b.landed.find? (fun x => x.1 == route)).map (·.2)

/-- The Bench with that block taken. -/
def Bench.unland (b : Bench) (route : Nat) : Bench :=
  match b.landed.find? (fun x => x.1 == route) with
  | none => b
  | some x => { b with landed := b.landed.erase x }

/-- A buffer of a stream source is freed: one more credit, until the entry's token has arrived (R329). -/
def State.freed (s : State) (tile : Nat) (v : View) (r : Run) (src : Nat) : State :=
  if v.sKind src = 3 ∧ SMap.get s.fab.tokens 0 (tokKey tile (v.sRoute src)) = 0 then s.grant tile (v.sRoute src) r.mb 1 v else s

/-- STAGER_BLOCK_TAKEN (R100, R101): the next block in order enters a stager buffer. -/
def execStagerBlockTaken (tile src : Nat) (s : State) : Out := act s fun s =>
  match s.atWork tile with
  | none => s
  | some (p, v, r) =>
    let b := s.bench p
    let a := v.sRole src == 0
    let taken := if a then b.takenA else b.takenB
    let st := if a then b.stA else b.stB
    let n := taken / v.depth
    let k := taken % v.depth
    let pr := v.product n
    let due := if a then v.srcA == some src else pr.2.2.1 == src && v.sRole src == 1
    if v.depth = 0 ∨ v.products ≤ n ∨ due = false ∨ 2 ≤ st.length then s
    else
      let mn := if a then pr.1 else pr.2.1
      let fmt := v.sStored src
      let off := v.blockOff src mn k
      let put := fun (s : State) (bytes : List Byte) => s.modBench p (fun b =>
        let blk : Block :=
          { src := src, k := k, mn := mn, bytes := bytes, pro := v.sPrologue src, ord := b.takenA + b.takenB,
            key := [r.step, r.mb, r.drawer, tile, src, mn, k] }
        if a then { b with stA := b.stA ++ [blk], takenA := taken + 1 } else { b with stB := b.stB ++ [blk], takenB := taken + 1 })
      if v.sKind src = 3 then
        match b.landedOn (v.sRoute src) with
        | none => s
        | some d => put (s.modBench p (fun b => b.unland (v.sRoute src))) d
      else if fmt = 0x21 then put s []
      else
        let e := blockEntry (if a then 0 else 1) (v.sKind src) off (blockBytes fmt)
        let (go, s0) := if s.held true (spaceAddr tile e.space off) e.len then (false, s) else s.issue p e.unit [e]
        if go then
          let (d, s1) := s0.readBlock tile r (v.sKind src) off (blockBytes fmt)
          put s1 d
        else s0

/-! ## Products (R102, R103, R241) -/

/-- The state of a bank in BEN_MAT_STATUS: 0 EMPTY, 1 FILLING, 2 FULL, 3 DRAINING. -/
def bankFld (p bank : Nat) : Fld := if bank = 0 then BEN_MAT_STATUS.BANK_A p else BEN_MAT_STATUS.BANK_B p
def State.bankSt (s : State) (p bank : Nat) : Nat := s.get (bankFld p bank)

/-- A bank's contents. -/
def Bench.bank (b : Bench) (k : Nat) : SMap Word := if k = 0 then b.bankA else b.bankB
def Bench.setBank (b : Bench) (k : Nat) (m : SMap Word) : Bench := if k = 0 then { b with bankA := m } else { b with bankB := m }

/-- A bank from its 1,024 words; a word of zero is not listed. -/
def bankOf (l : List Nat) : SMap Word :=
  (l.zipIdx).filterMap (fun x => if x.1 % 2 ^ 64 = 0 then none else some (x.2, BitVec.ofNat 64 x.1))

/-- PRODUCT_START (R102, R103, R134): the bank starts at +0 or at the initial tile of a ROLE 2 source. -/
def execProductStart (tile : Nat) (s : State) : Out := act s fun s =>
  match s.atWork tile with
  | none => s
  | some (p, v, r) =>
    let b := s.bench p
    let (ib, jb, sb, bank) := v.product b.tileNo
    if b.prod.isSome ∨ v.products ≤ b.tileNo ∨ s.bankSt p bank ≠ 0 then s
    else
      let start := fun (s : State) (m : SMap Word) (t : Tally) =>
        let s1 := s.modBench p (fun b => { b.setBank bank m with prod := some { ib := ib, jb := jb, bank := bank, srcB := sb } })
        (((s1.put (bankFld p bank) 1).setF (BEN_MAT_STATUS.BUSY p)).count p t 0)
      match (if r.accStart then none else (v.roleSrcs 2).head?) with
      | none => start s [] {}
      | some i =>
        let take := fun (s : State) (d : List Byte) =>
          let ws := (List.range 1024).map (fun e => ofAcc (leNat ((d.drop (8 * e)).take 8)))
          start s (bankOf (ws.map (fun w => (toAcc w).bits))) { prop := ws.countP Val.isNan }
        if v.sKind i = 3 then
          match b.landedOn (v.sRoute i) with
          | none => s
          | some d => take ((s.modBench p (fun b => b.unland (v.sRoute i))).freed tile v r i) d
        else
          let off := v.blockOff i ib jb
          let e := blockEntry 0 (v.sKind i) off 8192
          let (go, s0) := if s.held true (spaceAddr tile e.space off) e.len then (false, s) else s.issue p e.unit [e]
          if go then
            let (d, s1) := s0.readBlock tile r (v.sKind i) off 8192
            take s1 d
          else s0

/-! ## One beat (R88, R101, R105 to R107) -/

/-- The bits of the element of a staged block in stored row `r` and column `c`. -/
def Block.elem (b : Block) (v : View) (r c : Nat) : Nat :=
  if v.sPrologue b.src then
    match SMap.find? b.out (32 * r + c) with
    | some x => x - 1
    | none => Config.openResult 0x100 (b.key ++ [r, c]) % 2 ^ elemBits (v.sFormat b.src)
  else elemAt (v.sFormat b.src) b.bytes (32 * r + c)

/-- The scale byte of a stored row or column. -/
def Block.scale (b : Block) (v : View) (r c : Nat) : Nat :=
  ((b.bytes.drop (32 * rowBytes (v.sFormat b.src) + (if v.sScaleCols b.src then c else r))).headD 0).toNat

/-- The value of an element of a staged block (R96). -/
def Block.val (b : Block) (v : View) (r c : Nat) : Val :=
  let f := v.sFormat b.src
  if isMx f then mxVal f (b.elem v r c) (b.scale v r c) else elemVal f (b.elem v r c)

/-- The stored place of element (x, k) of operand A or of element (k, x) of operand B (R99). -/
def View.place (v : View) (src : Nat) (a : Bool) (x k : Nat) : Nat × Nat :=
  if a = v.sTranspose src then (k, x) else (x, k)

/-- The 32 elements of operand A or B at depth `k` of a block: bits and value. -/
def Block.line (b : Block) (v : View) (a : Bool) (k : Nat) : List (Nat × Val) :=
  (List.range 32).map (fun x => let (r, c) := v.place b.src a x k; (b.elem v r c, b.val v r c))

/-- hi and lo of an FP32 element (R107). -/
def fpHi (x : Nat) : Val := ofF32 (x / 65536 * 65536)
def fpLo (x : Nat) : Val := fBf16.decode ((fBf16.store false rne 0 ((ofF32 x).add (fpHi x).negate)).bits)

/-- What one pair of elements adds in a pass of its class; none adds nothing (R105, R107). -/
def pairTerm (cls pass : Nat) (a b : Nat × Val) : Option Val :=
  if cls = 3 then
    if a.2.finite && b.2.finite then
      some (if pass = 0 then (fpLo a.1).mul (fpHi b.1) else if pass = 1 then (fpHi a.1).mul (fpLo b.1) else (fpHi a.1).mul (fpHi b.1))
    else if pass = 2 then some (a.2.mul b.2) else none
  else some (a.2.mul b.2)

/-- The terms of a k-step, or of a beat's two products, with whether each is a NaN of operands none of which is (R105,
R107). -/
def accTerms (pairs : List (Nat × Val × Nat × Val)) (cls pass : Nat) : List (Val × Bool) :=
  pairs.filterMap (fun (x : Nat × Val × Nat × Val) =>
    (pairTerm cls pass (x.1, x.2.1) (x.2.2.1, x.2.2.2)).map (fun t => (t, t.isNan && !x.2.1.isNan && !x.2.2.2.isNan)))

/-- One ACC64 addition of a k-step's terms, or of the exact sum of a beat's two products (R105, R106). -/
def accSum (acc : Nat) (ts : List (Val × Bool)) : Rnd :=
  match ts with
  | [] => ⟨acc, false, false, false⟩
  | (t0, g0) :: rest =>
    let sum := rest.foldl (fun v (x : Val × Bool) => v.add x.1) t0
    let genSum := sum.isNan && (t0 :: rest.map (·.1)).all (fun t => !t.isNan)
    let v := ofAcc acc
    let out := v.add sum
    let r := toAcc out
    { r with gen := g0 || rest.any (·.2) || genSum || (out.isNan && !v.isNan && !sum.isNan) }
def accStep (acc : Nat) (pairs : List (Nat × Val × Nat × Val)) (cls pass : Nat) : Rnd := accSum acc (accTerms pairs cls pass)

/-- The modulus that shows a difference of two integers, if one does (R123). -/
def residueOf (d : Nat) : Option Nat := if d % 3 ≠ 0 then some 3 else if d % 7 ≠ 0 then some 7 else none

/-- Whether a product significand that comes out as `m` differs from the product of its operands' residues (R123). -/
def productHit (t : Val) (m : Nat) : Option Nat :=
  match t with
  | .fin _ n _ => residueOf (if n ≤ m then m - n else n - m)
  | _ => none

/-- A product with another significand. -/
def Val.withSig (t : Val) (m : Nat) : Val :=
  match t with
  | .fin s _ e => .fin s m e
  | t => t

/-- Whether a change of a value is one that the residues modulo 3 and 7 show, and the modulus that shows it (R123). -/
def residueHit (good bad : Nat) : Option Nat :=
  match ofAcc good, ofAcc bad with
  | .fin s m e, .fin t n f =>
    let q := min e f
    residueOf (signedAt s m e q - signedAt t n f q).natAbs
  | _, _ => none

/-- A residue mismatch (R124). -/
def State.residue (s : State) (tile p : Nat) (r : Run) (modulus bank elem : Nat) : State :=
  let s1 := (((s.incSat (BEN_RES_COUNT.COUNT p)).put (BEN_RES_LAST.STAMP p) s.compact).sticky p 64).incSat NUM_RES_TOTAL.COUNT
  s1.raiseSuspect (some r)
    { unit := unitId 0 p, cls := 1, reason := 0x0406, ctx := 0,
      detail := tile + 2 ^ 16 + modulus * 2 ^ 24 + bank * 2 ^ 32 + elem * 2 ^ 48 }

/-- The staged blocks that the current k-step of a product reads. -/
def Bench.operands (b : Bench) (pr : Prod) : Option (Block × Block) :=
  match (if pr.pass = 0 then b.stA.head? else pr.usedA[pr.k / 32]?), (if pr.pass = 0 then b.stB.head? else pr.usedB[pr.k / 32]?) with
  | some x, some y => if x.pro || y.pro then none else some (x, y)
  | _, _ => none

/-- A product's place after a k-step: blocks that it has finished leave their stagers. -/
def State.nextStep (s : State) (tile p : Nat) (v : View) (r : Run) (cls n : Nat) (pr : Prod) (x y : Block) : State :=
  let k := pr.k + n
  let pr1 := { pr with k := k, sub := 0 }
  if k % 32 ≠ 0 then s.modBench p (fun b => { b with prod := some pr1 })
  else
    let pr2 := if cls = 3 ∧ k = 32 * v.depth ∧ pr.pass < 2 then { pr1 with pass := pr.pass + 1, k := 0 } else pr1
    if pr.pass = 0 then
      let pr3 := if cls = 3 then { pr2 with usedA := pr.usedA ++ [x], usedB := pr.usedB ++ [y] } else pr2
      ((s.modBench p (fun b => { b with prod := some pr3, stA := b.stA.drop 1, stB := b.stB.drop 1 })).freed tile v r x.src).freed tile v r y.src
    else s.modBench p (fun b => { b with prod := some pr2 })

/-- Whether a product has taken its last k-step. -/
def Prod.over (pr : Prod) (v : View) (cls : Nat) : Bool := pr.k == 32 * v.depth && (cls != 3 || pr.pass == 2 || v.depth == 0)

/-- The elements that the k-steps of a beat read from a staged block: one list for each k-step. -/
def Block.lines (b : Block) (v : View) (a : Bool) (k n : Nat) : List (List (Nat × Val)) :=
  (List.range n).map (fun d => b.line v a ((k + d) % 32))

/-- The pairs of elements that a beat multiplies for element `e` of a bank, from the lines of its k-steps. -/
def beatPairs (la lb : List (List (Nat × Val))) (e : Nat) : List (Nat × Val × Nat × Val) :=
  (la.zip lb).map (fun (l : List (Nat × Val) × List (Nat × Val)) =>
    let a := l.1.getD (e / 32) (0, .nan)
    let b := l.2.getD (e % 32) (0, .nan)
    (a.1, a.2, b.1, b.2))

/-- What a beat makes of element `e` of a bank (R105 to R107). -/
def beatRnd (la lb : List (List (Nat × Val))) (cls pass : Nat) (bank : SMap Word) (e : Nat) : Rnd :=
  accStep (SMap.get bank 0 e).toNat (beatPairs la lb e) cls pass

/-- The element that goes wrong in a beat, what it comes out as, and the modulus that the checks see it by, if any
(R123). -/
def beatWrong (la lb : List (List (Nat × Val))) (cls pass : Nat) (bank : SMap Word) : BeatUpset → Nat × Nat × Option Nat
  | .sum e w => (e, w.toNat, residueHit (beatRnd la lb cls pass bank e).bits w.toNat)
  | .prod e k m =>
    let ts := accTerms (beatPairs la lb e) cls pass
    match ts[k]? with
    | none => (e, (beatRnd la lb cls pass bank e).bits, none)
    | some t => (e, (accSum (SMap.get bank 0 e).toNat (ts.set k (t.1.withSig m, t.2))).bits, productHit t.1 m)

/-- MATRIX_BEAT (R88, R101, R105 to R107, R119, R123, R124, R472). `upset` is an error in one element. BEN_MAT_BEATS
saturates, as the counters of Table 04.9 do (DESIGN CHOICE, log 63). -/
def execMatrixBeat (tile : Nat) (upset : Option BeatUpset) (s : State) : Out := act s fun s =>
  match s.atWork tile with
  | none => s
  | some (p, v, r) =>
    match (s.bench p).prod with
    | none => s
    | some pr =>
      let cls := pairClass v.fmtA v.fmtB
      match (s.bench p).operands pr with
      | none => s
      | some (x, y) =>
        if pr.over v cls then s
        else
          let s0 := s.incSat (BEN_MAT_BEATS.BEATS p)
          if 2 ≤ cls ∧ pr.sub = 0 then s0.modBench p (fun b => { b with prod := some { pr with sub := 1 } })
          else
            let n := if cls = 0 then 2 else 1
            let la := x.lines v true pr.k n
            let lb := y.lines v false pr.k n
            let rs := (List.range 1024).map (beatRnd la lb cls pr.pass ((s.bench p).bank pr.bank))
            let nans := if cls = 3 ∧ pr.pass < 2 then 0 else ((la ++ lb).flatten).countP (fun (q : Nat × Val) => q.2.isNan)
            let right := rs.map (fun q => q.bits)
            let wrong := upset.map (beatWrong la lb cls pr.pass ((s.bench p).bank pr.bank))
            let ws := match wrong with
              | none => right
              | some (e, w, _) => right.set e w
            let ws1 := if s.dip then (List.range 1024).map s.freeAt else ws
            let s1 := (if s.dip then s0.skipFree 1024 else s0).modBench p (fun b => b.setBank pr.bank (bankOf ws1))
            let s2 := s1.count p { tallyOf rs with prop := nans } 0
            let s3 := match wrong with
              | some (e, _, some m) => if s.on NUM_CTRL.RESIDUE_EN ∧ e < 1024 then s2.residue tile p r m pr.bank e else s2
              | _ => s2
            s3.nextStep tile p v r cls n pr x y

/-- PRODUCT_DONE (R102): the last k-step is over, and the bank is FULL. -/
def execProductDone (tile : Nat) (s : State) : Out := act s fun s =>
  match s.atWork tile with
  | none => s
  | some (p, v, _) =>
    match (s.bench p).prod with
    | none => s
    | some pr =>
      if pr.over v (pairClass v.fmtA v.fmtB) then
        ((s.put (bankFld p pr.bank) 2).clrF (BEN_MAT_STATUS.BUSY p)).modBench p (fun b => { b with
          prod := none, tileNo := b.tileNo + 1, full := b.full ++ [(pr.bank, pr.ib, pr.jb)] })
      else s

end Sys2Proof.Machine
end

