-- ==== Sys2Proof/Machine/Vector.lean ====
section
/-! DEFINITION. The vector unit: invocations, the 40 instructions, their rounding and their memory accesses (chapter
05, R126 to R153, R241, R245, R277). -/

namespace Sys2Proof.Machine

/-! ## Invocations (R131, R133, R144, R150) -/

/-- The oldest staged block whose prologue is due (R133). -/
def Bench.proDue (b : Bench) : Option Block :=
  ((b.stA ++ b.stB).filter (fun x => x.pro)).foldl (fun a x => match a with
    | none => some x
    | some y => if x.ord < y.ord then some x else a) none

/-- The place of an invocation in BEN_VEC_STATUS. -/
def State.vecStatus (s : State) (p kind row pc : Nat) : State :=
  ((s.put (BEN_VEC_STATUS.KIND p) kind).put (BEN_VEC_STATUS.ROW p) row).put (BEN_VEC_STATUS.PC p) pc

/-- An invocation starts. -/
def State.invoke (s : State) (p : Nat) (i : Inv) : State := (s.modBench p (fun b => { b with inv := some i })).vecStatus p i.kind 0 i.entry

/-- The stored-row and stored-column block indices of a staged block (R138). -/
def View.storedIdx (v : View) (b : Block) : Nat × Nat :=
  if (v.sRole b.src == 0) != v.sTranspose b.src then (b.mn, b.k) else (b.k, b.mn)

/-- PROLOGUE_START (R133). -/
def execPrologueStart (tile : Nat) (s : State) : Out := act s fun s =>
  match s.atWork tile with
  | none => s
  | some (p, v, _) =>
    let b := s.bench p
    match b.proDue with
    | none => s
    | some x =>
      if b.inv.isSome ∨ b.deferd.isEmpty = false then s
      else
        let (ib, jb) := v.storedIdx x
        s.invoke p { kind := 1, entry := v.proEntry, pc := v.proEntry, ib := ib, jb := jb, src := x.ord }

/-- EPILOGUE_START (R133, R142, R144). -/
def execEpilogueStart (tile : Nat) (s : State) : Out := act s fun s =>
  match s.atWork tile with
  | none => s
  | some (p, v, _) =>
    let b := s.bench p
    if b.inv.isSome ∨ b.deferd.isEmpty = false ∨ b.proDue.isSome = true ∨ v.epiEntry = 0xFFFF then s
    else match b.full with
      | [] => s
      | (bank, ib, jb) :: rest =>
        let i : Inv := { kind := 2, entry := v.epiEntry, pc := v.epiEntry, ib := ib, jb := jb, bank := bank, gate := v.gate }
        if v.gate then
          (if rest.isEmpty then s
           else (((s.put (bankFld p 0) 3).put (bankFld p 1) 3).modBench p (fun b => { b with full := rest.drop 1 })).invoke p i)
        else ((s.put (bankFld p bank) 3).modBench p (fun b => { b with full := rest })).invoke p i

/-- DEFERRED_START (R150): the passes of a row block come before anything else. -/
def execDeferredStart (tile : Nat) (s : State) : Out := act s fun s =>
  match s.atWork tile with
  | none => s
  | some (p, v, _) =>
    let b := s.bench p
    match b.inv, b.deferd with
    | none, (pass, ib, jb) :: rest =>
      let entry := if pass = 1 then v.defer1 else v.defer2
      (s.modBench p (fun b => { b with deferd := rest })).invoke p { kind := 3, entry := entry, pc := entry, ib := ib, jb := jb, dpass := pass }
    | _, _ => s

/-! ## One instruction -/

/-- What an instruction sees: its Bench, record, RUN, invocation and word. -/
structure VCtx where
  tile : Nat
  p : Nat
  v : View
  r : Run
  i : Inv
  w : Nat

/-- Performs the instruction at the program counter when its opcode is `op`. `f` answers the state after it, and whether
it has been issued; one that has not waits (R36). -/
def State.vec (s : State) (tile op : Nat) (f : VCtx → State → State × Bool) : State :=
  match s.atWork tile with
  | none => s
  | some (p, v, r) =>
    match (s.bench p).inv with
    | none => s
    | some i =>
      if wOp (v.prog i.pc) ≠ op then s
      else
        let (s1, done) := f ⟨tile, p, v, r, i, v.prog i.pc⟩ s
        if done then
          ((s1.incSat (BEN_VEC_BEATS.BEATS p)).modBench p (fun b => { b with inv := b.inv.map (fun x => { x with pc := i.pc + 1 }) })).put
            (BEN_VEC_STATUS.PC p) (i.pc + 1)
        else s1

/-- The 32 lanes of a V register. -/
def State.lanes (s : State) (p reg : Nat) : List Nat := (List.range 32).map (fun j => (SMap.get (s.bench p).vreg 0 (32 * reg + j)).toNat)

/-- Writes lanes of a V register; while the core voltage is out of its range every result is a free value (R472). -/
def State.setLanes (s : State) (p reg : Nat) (l : List Nat) : State :=
  let l1 := if s.dip then (List.range 32).map s.freeAt else l
  (if s.dip then s.skipFree 32 else s).modBench p (fun b => { b with
    vreg := (l1.zipIdx).foldl (fun m x => SMap.set m 0 (32 * reg + x.2) (BitVec.ofNat 40 x.1)) b.vreg })

/-- A V register with a NaN in its canonical form (R93). -/
def canonFw (x : Nat) : Nat := if (ofFw x).isNan then fFw40.nanBits else x % 2 ^ 40

/-- A result rounded to FW40; `ops` are its operands. -/
def fwOf (ops : List Val) (v : Val) : Rnd := { toFw v with gen := v.isNan && ops.all (fun o => !o.isNan) }

/-- An instruction whose lanes are results of roundings: they are stored and counted. -/
def VCtx.results (c : VCtx) (s : State) (l : List Rnd) : State :=
  (s.setLanes c.p (wVd c.w) (l.map (fun x => x.bits))).count c.p (tallyOf l) 1

/-- Lane-wise instructions of one, two and three operands. -/
def State.vec1 (s : State) (tile op : Nat) (f : Nat → Rnd) : State :=
  s.vec tile op (fun c s => (c.results s ((s.lanes c.p (wVa c.w)).map f), true))
def State.vec2 (s : State) (tile op : Nat) (f : Nat → Nat → Rnd) : State :=
  s.vec tile op (fun c s => (c.results s (List.zipWith f (s.lanes c.p (wVa c.w)) (s.lanes c.p (wVb c.w))), true))

/-- Instructions whose result may be an exact zero, whose sign the manual does not state: it depends on the operand alone
(R29; log 1). -/
def State.vecZ (s : State) (tile op : Nat) (f : Val → Option Rnd) : State :=
  s.vec tile op (fun c s =>
    (c.results s ((s.lanes c.p (wVa c.w)).map (fun x => (f (ofFw x)).getD ⟨Config.openResult op [x] % 2 * 2 ^ 39, false, false, false⟩)), true))

/-- An exact lane-wise instruction. -/
def State.vecX (s : State) (tile op : Nat) (f : VCtx → State → List Nat) : State :=
  s.vec tile op (fun c s => (s.setLanes c.p (wVd c.w) (f c s), true))

/-- The larger and the smaller of two FW40 values (R137). -/
def fwMax (a b : Nat) : Nat :=
  if (ofFw a).isNan || (ofFw b).isNan then fFw40.nanBits
  else if (ofFw a).lt (ofFw b) then b else if (ofFw b).lt (ofFw a) then a else min a b
def fwMin (a b : Nat) : Nat :=
  if (ofFw a).isNan || (ofFw b).isNan then fFw40.nanBits
  else if (ofFw a).lt (ofFw b) then a else if (ofFw b).lt (ofFw a) then b else max a b

/-- CSEL's conditions (Table 05.3). -/
def cselHolds (fn a : Nat) : Bool :=
  let v := ofFw a
  if fn = 0 then (Val.fin false 0 0).lt v
  else if fn = 1 then !v.isNan && !(v.lt (.fin false 0 0))
  else if fn = 2 then v.isZero
  else v.isNan

/-- 1 ÷ √x with its special values (R137). -/
def rsqrtVal : Val → Val
  | .nan => .nan
  | .inf n => if n then .nan else .fin false 0 0
  | .fin n m e => if m = 0 then .inf false else if n then .nan else ((Val.fin false 1 0).div (.fin false m e)).sqrt

/-! ## Control and arithmetic -/

def execVNop (tile : Nat) (s : State) : Out := act s fun s => s.vec tile 0x00 (fun _ s => (s, true))

/-- ENDR (R131): the next row's body, or the tail. -/
def execVEndr (tile : Nat) (s : State) : Out := act s fun s =>
  match s.atWork tile with
  | none => s
  | some (p, v, _) =>
    match (s.bench p).inv with
    | none => s
    | some i =>
      if wOp (v.prog i.pc) ≠ 1 then s
      else
        let j : Inv := if i.row < 31 ∧ i.tail = false then { i with row := i.row + 1, pc := i.entry } else { i with tail := true, pc := i.pc + 1 }
        (s.modBench p (fun b => { b with inv := some j })).vecStatus p i.kind j.row j.pc

/-- The passes that the epilogue of a row block's last tile makes due (R150). -/
def View.passes (v : View) (ib : Nat) : List (Nat × Nat × Nat) :=
  let pass := fun n => (List.range v.colBlocks).map (fun jb => (n, ib, jb))
  pass 1 ++ (if v.defer2 = 0xFFFF then [] else pass 2)

/-- ENDT (R131, R140, R142, R150): the invocation ends. -/
def execVEndt (tile : Nat) (s : State) : Out := act s fun s =>
  match s.atWork tile with
  | none => s
  | some (p, v, _) =>
    match (s.bench p).inv with
    | none => s
    | some i =>
      if wOp (v.prog i.pc) ≠ 2 ∨ i.tail = false then s
      else
        let s1 := (s.modBench p (fun b => { b with inv := none, rowBuf := [] })).vecStatus p 0 0 0
        if i.kind = 1 then
          let fin := fun (x : Block) => if x.ord = i.src then { x with pro := false } else x
          s1.modBench p (fun b => { b with stA := b.stA.map fin, stB := b.stB.map fin })
        else if i.kind = 2 then
          let s2 := if i.gate then (s1.put (bankFld p 0) 0).put (bankFld p 1) 0 else s1.put (bankFld p i.bank) 0
          if v.deferred ∧ i.jb + 1 = v.colBlocks then s2.modBench p (fun b => { b with deferd := b.deferd ++ v.passes i.ib }) else s2
        else s1

def execVAdd (tile : Nat) (s : State) : Out := act s fun s => s.vec2 tile 0x04 (fun a b => fwOf [ofFw a, ofFw b] ((ofFw a).add (ofFw b)))
def execVSub (tile : Nat) (s : State) : Out := act s fun s =>
  s.vec2 tile 0x05 (fun a b => fwOf [ofFw a, ofFw b] ((ofFw a).add (ofFw b).negate))
def execVMul (tile : Nat) (s : State) : Out := act s fun s => s.vec2 tile 0x06 (fun a b => fwOf [ofFw a, ofFw b] ((ofFw a).mul (ofFw b)))

/-- FMA: the exact product and sum, one rounding. -/
def execVFma (tile : Nat) (s : State) : Out := act s fun s =>
  s.vec tile 0x07 (fun c s =>
    let l := (List.zip (s.lanes c.p (wVa c.w)) (s.lanes c.p (wVb c.w))).zip (s.lanes c.p (wVc c.w))
    (c.results s (l.map (fun (x : (Nat × Nat) × Nat) =>
      fwOf [ofFw x.1.1, ofFw x.1.2, ofFw x.2] (((ofFw x.1.1).mul (ofFw x.1.2)).add (ofFw x.2)))), true))

def execVMax (tile : Nat) (s : State) : Out := act s fun s =>
  s.vecX tile 0x08 (fun c s => List.zipWith fwMax (s.lanes c.p (wVa c.w)) (s.lanes c.p (wVb c.w)))
def execVMin (tile : Nat) (s : State) : Out := act s fun s =>
  s.vecX tile 0x09 (fun c s => List.zipWith fwMin (s.lanes c.p (wVa c.w)) (s.lanes c.p (wVb c.w)))
def execVAbs (tile : Nat) (s : State) : Out := act s fun s =>
  s.vecX tile 0x0A (fun c s => (s.lanes c.p (wVa c.w)).map (fun x => canonFw (x % 2 ^ 39)))
def execVNeg (tile : Nat) (s : State) : Out := act s fun s =>
  s.vecX tile 0x0B (fun c s => (s.lanes c.p (wVa c.w)).map (fun x => canonFw (x ^^^ 2 ^ 39)))
def execVCsel (tile : Nat) (s : State) : Out := act s fun s =>
  s.vecX tile 0x0C (fun c s =>
    ((s.lanes c.p (wVa c.w)).zip ((s.lanes c.p (wVb c.w)).zip (s.lanes c.p (wVc c.w)))).map (fun (x : Nat × Nat × Nat) =>
      if cselHolds (wFn c.w) x.1 then x.2.1 else x.2.2))
def execVRint (tile : Nat) (s : State) : Out := act s fun s =>
  s.vec tile 0x0D (fun c s => (c.results s ((s.lanes c.p (wVa c.w)).map (fun a => fwOf [ofFw a] (rintVal (wFn c.w) (ofFw a)))), true))
def execVXln (tile : Nat) (s : State) : Out := act s fun s =>
  s.vecX tile 0x0E (fun c s =>
    let l := s.lanes c.p (wVa c.w)
    (List.range 32).map (fun j => l.getD (j ^^^ 2 ^ wVb c.w) 0))
def execVMov (tile : Nat) (s : State) : Out := act s fun s => s.vecX tile 0x0F (fun c s => s.lanes c.p (wVa c.w))
def execVDiv (tile : Nat) (s : State) : Out := act s fun s => s.vec2 tile 0x10 (fun a b => fwOf [ofFw a, ofFw b] ((ofFw a).div (ofFw b)))
def execVRcp (tile : Nat) (s : State) : Out := act s fun s => s.vec1 tile 0x11 (fun a => fwOf [ofFw a] ((Val.fin false 1 0).div (ofFw a)))
def execVSqrt (tile : Nat) (s : State) : Out := act s fun s => s.vec1 tile 0x12 (fun a => fwOf [ofFw a] (ofFw a).sqrt)
def execVRsqrt (tile : Nat) (s : State) : Out := act s fun s => s.vec1 tile 0x13 (fun a => fwOf [ofFw a] (rsqrtVal (ofFw a)))
def execVExp2 (tile : Nat) (s : State) : Out := act s fun s => s.vec1 tile 0x14 (fun a => fwExp2 (ofFw a))
def execVLog2 (tile : Nat) (s : State) : Out := act s fun s => s.vecZ tile 0x15 fwLog2
def execVSigm (tile : Nat) (s : State) : Out := act s fun s => s.vec1 tile 0x16 (fun a => fwSigm (ofFw a))
def execVErf (tile : Nat) (s : State) : Out := act s fun s => s.vec1 tile 0x17 (fun a => fwErf (ofFw a))
def execVTanh (tile : Nat) (s : State) : Out := act s fun s => s.vec1 tile 0x18 (fun a => fwTanh (ofFw a))
def execVSinpi (tile : Nat) (s : State) : Out := act s fun s => s.vecZ tile 0x19 fwSinPi
def execVCospi (tile : Nat) (s : State) : Out := act s fun s => s.vecZ tile 0x1A fwCosPi

/-! ## Rows, constants, positions and random bits (R138, R139, R245) -/

/-- One round of the butterfly. -/
def butterfly (f : Nat → Nat → Nat) (l : List Nat) (n : Nat) : List Nat :=
  (List.range 32).map (fun j => f (l.getD j 0) (l.getD (j ^^^ 2 ^ n) 0))

/-- One round of the butterfly sum, with its roundings. -/
def sumRound (x : List Nat × Tally) (n : Nat) : List Nat × Tally :=
  let l := (List.range 32).map (fun j =>
    let a := ofFw (x.1.getD j 0)
    let b := ofFw (x.1.getD (j ^^^ 2 ^ n) 0)
    fwOf [a, b] (a.add b))
  (l.map (fun r => r.bits), x.2.add (tallyOf l))

/-- RSUM (R138): five rounds, then one more addition into lane i. -/
def execVRsum (tile : Nat) (s : State) : Out := act s fun s =>
  s.vec tile 0x1C (fun c s =>
    let (l, t) := (List.range 5).foldl sumRound (s.lanes c.p (wVa c.w), {})
    let d := s.lanes c.p (wVd c.w)
    let a := ofFw (d.getD c.i.row 0)
    let b := ofFw (l.getD 0 0)
    let r := fwOf [a, b] (a.add b)
    ((s.setLanes c.p (wVd c.w) (d.set c.i.row r.bits)).count c.p (t.add r.tally) 1, true))

def execVRmax (tile : Nat) (s : State) : Out := act s fun s =>
  s.vecX tile 0x1D (fun c s =>
    let l := (List.range 5).foldl (butterfly fwMax) (s.lanes c.p (wVa c.w))
    let d := s.lanes c.p (wVd c.w)
    d.set c.i.row (fwMax (d.getD c.i.row 0) (l.getD 0 0)))

def execVBcl (tile : Nat) (s : State) : Out := act s fun s =>
  s.vecX tile 0x1E (fun c s => List.replicate 32 ((s.lanes c.p (wVa c.w)).getD c.i.row 0))

/-- The source of the block that a prologue processes. -/
def VCtx.block (c : VCtx) (s : State) : Option Block := let b := s.bench c.p; (b.stA ++ b.stB).find? (fun x => x.ord == c.i.src)

/-- A position as an FW40 integer; one that FW40 cannot hold exactly has no stated value. -/
def posBits (n : Nat) : Nat :=
  let r := (toFw (.fin false n 0)).bits
  match ofFw r with
  | .fin _ m e => if upTo m e = n ∧ 0 ≤ e ∨ (e < 0 ∧ m = n * 2 ^ (-e).toNat) then r else Config.openResult 0x1F [n] % 2 ^ 40
  | _ => Config.openResult 0x1F [n] % 2 ^ 40

/-- POS (R138). -/
def execVPos (tile : Nat) (s : State) : Out := act s fun s =>
  s.vec tile 0x1F (fun c s =>
    let src := ((c.block s).map (fun x => x.src)).getD 0
    let (rb, cb) := if c.i.kind = 1 then (c.v.proRowBase src, c.v.proColBase src) else (c.v.rowBase, c.v.colBase)
    let at_ := fun j => if wImm20 c.w % 4 = 0 then cb + 32 * c.i.jb + j else if wImm20 c.w % 4 = 1 then rb + 32 * c.i.ib + c.i.row else c.r.pos
    (s.setLanes c.p (wVd c.w) ((List.range 32).map (fun j => posBits (at_ j))), true))

/-- LDK (R139): a constant in every lane. -/
def execVLdk (tile : Nat) (s : State) : Out := act s fun s =>
  s.vec tile 0x20 (fun c s =>
    let x := canonFw (c.v.konst (wImm20 c.w % 64))
    ((s.setLanes c.p (wVd c.w) (List.replicate 32 x)).count c.p { prop := if (ofFw x).isNan then 32 else 0 } 1, true))

/-- c[1] of every generator call of an output tile. -/
def VCtx.tileIdx (c : VCtx) : Nat := (c.v.tileBase + c.i.ib * c.v.tileRowStride + c.i.jb) % 2 ^ 32

/-- ρ of lane j of the current row for a use index and a purpose (R115, R138, R245). -/
def VCtx.rho (c : VCtx) (s : State) (purpose use j : Nat) : Nat :=
  cgBits (s.get NUM_CG_SEED.SEED) c.r.step c.r.mb use (32 * c.i.row + j) c.tileIdx c.v.layer purpose

/-- RNDU: ρ × 2^−16. -/
def execVRndu (tile : Nat) (s : State) : Out := act s fun s =>
  s.vecX tile 0x21 (fun c s => (List.range 32).map (fun j =>
    (toFw (.fin false (c.rho s (if bit c.w 7 then 2 else 4) (wImm20 c.w % 128) j) (-16))).bits))

/-- ADDA (R139). -/
def execVAdda (tile : Nat) (s : State) : Out := act s fun s =>
  s.vec tile 0x29 (fun c s =>
    let n := wVd c.w % 8
    let a := (SMap.get (s.bench c.p).areg 0 n).toNat
    let x := wrap 48 ((aAddr a : Int) + signed 20 (wImm20 c.w) * 32)
    (s.modBench c.p (fun b => { b with areg := SMap.set b.areg 0 n (BitVec.ofNat 64 (a - aAddr a + x)) }), true))

/-! ## Accesses through address registers (R143, R152) -/

/-- An address register. -/
def VCtx.areg (c : VCtx) (s : State) : Nat := (SMap.get (s.bench c.p).areg 0 (wAreg c.w)).toNat

/-- Whether a range of space 0, 1 or 3 lies within the bounds of R143. -/
def VCtx.bounds (c : VCtx) (s : State) (space a n : Nat) : Bool :=
  match s.owner c.r.drawer with
  | none => false
  | some im => (PlaneCtx.mk im.man 0 0 (0, 0, 0)).rangeOk c.tile space a n

/-- A refused access (R152). -/
def VCtx.fault (c : VCtx) (s : State) (space addr : Nat) : State :=
  let s1 := (s.setF (BEN_VEC_STATUS.ADDR_FAULT c.p)).setWord (BEN_VEC_FAULT.reg c.p)
    (BitVec.ofNat 64 (space * 2 ^ 62 + c.i.pc * 2 ^ 48 + addr % 2 ^ 48))
  s1.raise c.r.tag { unit := unitId 0 c.p, cls := 1, reason := 0x1114, ctx := 0, detail := c.tile + 3 * 2 ^ 16 + addr % 2 ^ 48 * 2 ^ 64 }

/-- The scoreboard entry of an access of the vector unit. -/
def vecEntry (space a n : Nat) (write : Bool) : SbEntry := ⟨2, space, a, n, write⟩

/-- Reads ranges of one space for the vector unit: their bytes; none is a refusal; a stall answers nothing. -/
def VCtx.read (c : VCtx) (s : State) (space : Nat) (l : List (Nat × Nat)) : State × Option (Option (List (List Byte))) :=
  if space = 2 ∨ !(l.all (fun (x : Nat × Nat) => c.bounds s space x.1 x.2)) then (c.fault s space ((l.headD (0, 0)).1), some none)
  else
    let es := l.map (fun (x : Nat × Nat) => vecEntry space x.1 x.2 false)
    let (go, s0) := if l.any (fun x => s.held false (spaceAddr c.tile space x.1) x.2) then (false, s) else s.issue c.p 2 es
    if go then
      let (ds, s1) := l.foldl (fun (a : List (List Byte) × State) (x : Nat × Nat) =>
        let (d, t) := (a.2.fetch false (some c.r) (spaceAddr c.tile space x.1) x.2).getD (List.replicate x.2 0, a.2)
        (a.1 ++ [d], t)) ([], s0)
      (s1, some (some ds))
    else (s0, none)

/-- The values of a row of 32 elements in a format with their scale bytes. -/
def rowVals (fmt : Nat) (bytes : List Byte) (scale : Nat → Nat) : List Val :=
  (List.range 32).map (fun j => if isMx fmt then mxVal fmt (elemAt fmt bytes j) (scale j) else elemVal fmt (elemAt fmt bytes j))

/-- A loaded row becomes FW40 (R137): exact but for ACC64 and MX, which round. -/
def VCtx.load (c : VCtx) (s : State) (l : List Val) : State :=
  let rs := l.map toFw
  (s.setLanes c.p (wVd c.w) (rs.map (fun x => x.bits))).count c.p { tallyOf rs with prop := l.countP Val.isNan } 1

/-- A refused load: the canonical NaN in every lane (R152). -/
def VCtx.loadNan (c : VCtx) (s : State) : State := s.setLanes c.p (wVd c.w) (List.replicate 32 fFw40.nanBits)

/-- LD (R138). -/
def execVLd (tile : Nat) (s : State) : Out := act s fun s =>
  s.vec tile 0x22 (fun c s =>
    let a := c.areg s
    let f := wFmt c.w
    let base := aAddr a + wImm7 c.w * 32
    let at_ := base + (if wX c.w = 1 then c.i.row * rowBytes f else 0)
    let rs := (at_, rowBytes f) :: (if isMx f then [(base + 32 * rowBytes f + c.i.row, 1)] else [])
    match c.read s (aSpace a) rs with
    | (s1, none) => (s1, false)
    | (s1, some none) => (c.loadNan s1, true)
    | (s1, some (some ds)) => (c.load s1 (rowVals f (ds.headD []) (fun _ => leNat ((ds.drop 1).headD []))), true))

/-- LDS (R140): row i of the prologue's input block. -/
def execVLds (tile : Nat) (s : State) : Out := act s fun s =>
  s.vec tile 0x23 (fun c s =>
    match c.block s with
    | none => (c.loadNan s, true)
    | some x =>
      let f := c.v.inFormat x.src
      let i := c.i.row
      if f = 0x21 then
        match c.read s 0 [(c.v.blockOff x.src x.mn x.k + i * 160, 160)] with
        | (s1, none) => (s1, false)
        | (s1, some none) => (c.loadNan s1, true)
        | (s1, some (some ds)) => (c.load s1 (rowVals f (ds.headD []) (fun _ => 0)), true)
      else
        let row := (x.bytes.drop (i * rowBytes f)).take (rowBytes f)
        let scale := fun j => ((x.bytes.drop (32 * rowBytes f + (if c.v.sScaleCols x.src then j else i))).headD 0).toNat
        (c.load s (rowVals f row scale), true))

/-- The ACC64 words of row i of the bank that a BANK operand names; a deferred pass has no bank, and there they are free
values, the same in every run (R29; log 1). -/
def VCtx.bankRow (c : VCtx) (s : State) (bankOp : Nat) : List Nat :=
  if c.i.kind = 2 then
    let m := (s.bench c.p).bank (if c.i.gate then bankOp else c.i.bank)
    (List.range 32).map (fun j => (SMap.get m 0 (32 * c.i.row + j)).toNat)
  else (List.range 32).map (fun j =>
    Config.openResult 0x24 [c.r.step, c.r.mb, c.r.drawer, c.tile, c.i.ib, c.i.jb, c.i.dpass, c.i.pc, c.i.row, bankOp, j] % 2 ^ 64)

/-- SAT and mode of a store-like instruction (R91, R135). -/
def VCtx.sat (c : VCtx) : Bool := if wMode c.w = 3 then bit c.v.round 2 else wSat c.w == 1
def VCtx.mode (c : VCtx) : Nat := if wMode c.w = 3 then c.v.round % 4 else wMode c.w

/-- Rounds the lanes of a row into a format under the instruction's rounding (R110 to R115). -/
def VCtx.roundRow (c : VCtx) (s : State) (fmt : Nat) (l : List Val) : List Rnd :=
  (l.zipIdx).map (fun x => storeAs fmt c.sat c.mode (if c.mode = 2 then c.rho s 1 (wImm7 c.w) x.2 else 0) x.1)

/-- LDA (R142). -/
def execVLda (tile : Nat) (s : State) : Out := act s fun s =>
  s.vec tile 0x24 (fun c s =>
    let l := (c.bankRow s (wAreg c.w % 2)).map ofAcc
    if wFmt c.w = 0 ∨ c.v.strict = false then (c.load s l, true)
    else
      let rs := c.roundRow s (wFmt c.w) l
      let out := rs.map (fun x => (toFw (elemVal (wFmt c.w) x.bits)).bits)
      ((s.setLanes c.p (wVd c.w) out).count c.p { tallyOf rs with prop := l.countP Val.isNan } 2, true))

/-- SPL (R147). -/
def execVSpl (tile : Nat) (s : State) : Out := act s fun s =>
  s.vec tile 0x28 (fun c s =>
    if c.v.strict then
      let rs := c.roundRow s (wFmt c.w) ((s.lanes c.p (wVd c.w)).map ofFw)
      ((s.setLanes c.p (wVd c.w) (rs.map (fun x => (toFw (elemVal (wFmt c.w) x.bits)).bits))).count c.p (tallyOf rs) 2, true)
    else (s, true))

/-- STG (R140): row i of the prologue's output block. -/
def execVStg (tile : Nat) (s : State) : Out := act s fun s =>
  s.vec tile 0x26 (fun c s =>
    match c.block s with
    | none => (s, true)
    | some x =>
      let f := c.v.sFormat x.src
      let rs := (s.lanes c.p (wVd c.w)).map (fun y => storeAs f (wSat c.w == 1) (wMode c.w % 2) 0 (ofFw y))
      let bitsOf := fun (j : Nat) => if s.dip then s.freeAt j % 2 ^ elemBits f else (rs.getD j ⟨0, false, false, false⟩).bits
      let upd := fun (y : Block) => if y.ord = x.ord then { y with
        out := (List.range 32).foldl (fun m j => SMap.insert m (32 * c.i.row + j) (bitsOf j + 1)) y.out } else y
      (((if s.dip then s.skipFree 32 else s).modBench c.p (fun b => { b with stA := b.stA.map upd, stB := b.stB.map upd })).count c.p (tallyOf rs) 2, true))

/-! ## Stores (R143) -/

/-- What a store writes of one row: its roundings, and the scale bytes it forms with their place. -/
structure RowOut where
  elems : List Nat
  scale : Option Nat
  tally : Tally

/-- A row in a format that is not MX, or an MX block along the row; `raw` holds the source's bits. -/
def VCtx.rowOut (c : VCtx) (s : State) (fmt : Nat) (raw : List Nat) (val : Nat → Val) : RowOut :=
  if fmt = 0x20 then ⟨raw, none, {}⟩
  else if isMx fmt then
    let (x, rs) := storeMx fmt c.mode ((List.range 32).map (fun j => if c.mode = 2 then c.rho s 1 (wImm7 c.w) j else 0)) (raw.map val)
    ⟨rs.map (fun r => r.bits), some x, tallyOf rs⟩
  else if fmt = 0x21 then
    let rs := raw.map (fun r => toFw (val r))
    ⟨rs.map (fun r => r.bits), none, tallyOf rs⟩
  else
    let rs := c.roundRow s fmt (raw.map val)
    ⟨rs.map (fun r => r.bits), none, tallyOf rs⟩

/-- The counter flag of a store: a raw FW40 store is an FW40 rounding (R110, R120). -/
def storeFlag (fmt : Nat) : Nat := if fmt = 0x21 then 1 else 2

/-- The source words that a store has held so far, row by row. -/
def VCtx.held (c : VCtx) (s : State) (now : List Nat) : List (List Nat) :=
  (List.range 32).map (fun i => if i = c.i.row then now else
    let d := SMap.get (s.bench c.p).rowBuf [] (64 * c.i.pc + i)
    (List.range 32).map (fun j => leNat ((d.drop (8 * j)).take 8)))

/-- Holds this row's source words. -/
def VCtx.hold (c : VCtx) (s : State) (now : List Nat) : State :=
  s.modBench c.p (fun b => { b with rowBuf := SMap.set b.rowBuf [] (64 * c.i.pc + c.i.row) (packElems 64 now) })

/-- A whole block in an MX format with one scale per stored column: data bytes and scales (R97, R143). -/
def VCtx.colBlock (c : VCtx) (s : State) (fmt : Nat) (rows : List (List Nat)) (val : Nat → Val) : List Byte × Tally :=
  let cols := (List.range 32).map (fun j =>
    storeMx fmt c.mode ((List.range 32).map (fun i =>
      if c.mode = 2 then cgBits (s.get NUM_CG_SEED.SEED) c.r.step c.r.mb (wImm7 c.w) (32 * i + j) c.tileIdx c.v.layer 1 else 0))
      (rows.map (fun r => val (r.getD j 0))))
  let elems := (List.range 1024).map (fun e => (((cols.getD (e % 32) (0, [])).2).getD (e / 32) ⟨0, false, false, false⟩).bits)
  (packElems (elemBits fmt) elems ++ cols.map (fun x => BitVec.ofNat 8 x.1), cols.foldl (fun t x => t.add (tallyOf x.2)) {})

/-- The block of a stream or a queue packet: every row's data, then the scales of an MX format (R99, R143). -/
def VCtx.streamBlock (c : VCtx) (s : State) (fmt : Nat) (rows : List (List Nat)) (val : Nat → Val) : List Byte × List Nat :=
  let outs := (rows.zipIdx).map (fun x => { c with i := { c.i with row := x.2 } }.rowOut s fmt x.1 val)
  let elems := (outs.map (fun o => o.elems)).flatten
  (packElems (elemBits fmt) elems ++ (if isMx fmt then outs.map (fun o => BitVec.ofNat 8 (o.scale.getD 0)) else []), elems)

/-- Whether the route entry of a SPACE 2 store may take it (R152). -/
def VCtx.routeOk (c : VCtx) (route fmt : Nat) : Bool :=
  let k := c.v.rKind route
  k != 0 && k != 1 && (k != 6 || fmt == 1)

/-- A store through SPACE 2: the rows collect, and the block leaves with row 31 (R143, R152, R241, R277). -/
def VCtx.storeRoute (c : VCtx) (s : State) (fmt : Nat) (raw : List Nat) (val : Nat → Val) (addr : Nat) : State × Bool :=
  let route := addr % 64
  if !(c.routeOk route fmt) then
    let s1 := c.fault s 2 addr
    (if c.v.rKind route = 6 then s1.drainErr (c.v.rTarget route) else s1, true)
  else
    let cols := wX c.w == 1 && isMx fmt
    let one := c.rowOut s fmt raw val
    if c.i.row < 31 then ((c.hold s raw).count c.p (if cols then {} else one.tally) (storeFlag fmt), true)
    else
      let rows := c.held s raw
      let (cb, ct) := if cols then c.colBlock s fmt rows val else ([], {})
      let (sb, elems) := if cols then ([], []) else c.streamBlock s fmt rows val
      let data := if cols then cb else sb
      let tally := if cols then ct else one.tally
      if c.v.rKind route = 6 then
        let s1 := s.count c.p tally (storeFlag fmt)
        (if c.r.accDrain then
           s1.drainAll c.v c.tile route route (c.v.rParam route + 1024 * (c.i.ib * c.v.colBlocks + c.i.jb)) elems
         else s1, true)
      else if s.canSend c.v c.tile route c.r.mb then
        (((s.count c.p tally (storeFlag fmt)).sendBlock c.v c.tile route c.r data), true)
      else (s, false)

/-- A store through SPACE 0, 1 or 3 (R143, R152). -/
def VCtx.storeMem (c : VCtx) (s : State) (fmt : Nat) (raw : List Nat) (val : Nat → Val) (space addr : Nat) : State × Bool :=
  let rb := rowBytes fmt
  let cols := wX c.w == 1 && isMx fmt
  if cols && decide (c.i.row < 31) then (c.hold s raw, true)
  else
    let one := c.rowOut s fmt raw val
    let (l, t) : List (Nat × List Byte) × Tally :=
      if cols then let (d, t) := c.colBlock s fmt (c.held s raw) val; ([(addr, d)], t)
      else ((addr + c.i.row * rb, packElems (elemBits fmt) one.elems) ::
        (match one.scale with
         | none => []
         | some x => [(addr + 32 * rb + c.i.row, [BitVec.ofNat 8 x])]), one.tally)
    if !(l.all (fun (x : Nat × List Byte) => c.bounds s space x.1 x.2.length)) then (c.fault s space (addr + (if cols then 0 else c.i.row * rb)), true)
    else
      let es := l.map (fun (x : Nat × List Byte) => vecEntry space x.1 x.2.length true)
      let (go, s0) := if l.any (fun x => s.held false (spaceAddr c.tile space x.1) x.2.length) then (false, s) else s.issue c.p 2 es
      if go then
        let s1 := l.foldl (fun s (x : Nat × List Byte) => (s.store false (spaceAddr c.tile space x.1) x.2).getD s) s0
        (s1.count c.p t (storeFlag fmt), true)
      else (s0, false)

/-- A store of a row (R143). During a dip what it writes is free (R472). -/
def VCtx.store (c : VCtx) (s : State) (raw : List Nat) (val : Nat → Val) : State × Bool :=
  let a := c.areg s
  let raw1 := if s.dip then (List.range 32).map s.freeAt else raw
  let (s1, done) := if aSpace a = 2 then c.storeRoute s (wFmt c.w) raw1 val (aAddr a) else c.storeMem s (wFmt c.w) raw1 val (aSpace a) (aAddr a)
  (if s.dip && done then s1.skipFree 32 else s1, done)

/-- ST (R143). -/
def execVSt (tile : Nat) (s : State) : Out := act s fun s =>
  s.vec tile 0x25 (fun c s => c.store s (s.lanes c.p (wVd c.w)) (fun x => ofFw x))

/-- STA (R142, R143): one rounding from ACC64. A store that R152 refuses counts the NaNs of its row all the same (DESIGN
CHOICE, log 63). -/
def execVSta (tile : Nat) (s : State) : Out := act s fun s =>
  s.vec tile 0x27 (fun c s =>
    let raw := c.bankRow s (wVd c.w % 2)
    let (s1, done) := c.store s raw (fun x => ofAcc x)
    if done then (s1.count c.p { prop := (raw.map ofAcc).countP Val.isNan } 2, true) else (s1, false))

end Sys2Proof.Machine
end

