-- ==== Sys2Proof/Machine/Dma.lean ====
section
/-! DEFINITION. Scratchpad and Shelf accesses, the patrol scrubber, transfer descriptors, windows, credits and remote
writes (chapter 06; R346, R358 and R485 for a Bench's transfer engine). -/

namespace Sys2Proof.Machine

/-! ## Accesses (R154 to R164, R170, R171) -/

def memKind (shelf : Bool) : Space := if shelf then .shelf else .sp
/-- Bytes of a scratchpad or of a Shelf slice, and of one row of it. -/
def memBytes (shelf : Bool) : Nat := if shelf then 0x600000 else 0xC0000
def memRow (shelf : Bool) : Nat := if shelf then 32 else 16

/-- The die-local address of an offset of a physical Bench's scratchpad or slice, if it has one now. -/
def State.memAddr (s : State) (shelf : Bool) (p off : Nat) : Option Nat :=
  if shelf then (s.sliceAt p).map (fun k => shelfBase + k * 0x600000 + off) else (s.tileAt p).map (fun t => spAddr t off)

/-- Whether an access to a range of a physical Bench's scratchpad or slice must wait (R61, R160). -/
def State.accessHeld (s : State) (shelf : Bool) (p off len : Nat) : Bool := s.segHeld ⟨memKind shelf, p * memBytes shelf + off, len⟩

/-! ### Banks (R154 to R157) -/

/-- The bank of a scratchpad offset, and its row there. -/
def spBank (off : Nat) : Nat := off / 16 % 24
def spBankRow (off : Nat) : Nat := off / 16 / 24
/-- The group of banks, 8g to 8g + 7, of a wide access at an offset. -/
def wideGroup (off : Nat) : Nat := off / 128 % 3

/-- The source that a bank or a port serves next, round-robin, of those that wait. -/
def nextSource (last : Nat) (l : List Nat) : Nat := (([1, 2, 3, 4].map (fun i => (last + i) % 4)).find? l.contains).getD last

/-- The port that an access uses, and the sources among which it takes turns: the narrow sources of a bank, or the own Bench
and the mesh at a slice's port (R156, R171). -/
def portOf (shelf : Bool) (a : Access) : Nat := if shelf then 24 else spBank a.off
def sourceOf (shelf : Bool) (src : Nat) : Nat := if shelf && src != 3 then 0 else src

/-- Whether the beat's wide access occupies the bank of a narrow access that has not yet waited seven beats (R157). -/
def State.blockedBy (s : State) (shelf : Bool) (p : Nat) (a : Access) : Bool :=
  !shelf && a.src != 0 && a.wide.any (fun g => decide (8 * g ≤ spBank a.off) && decide (spBank a.off < 8 * g + 8)) &&
    decide (SMap.get (s.bench p).blocked 0 a.src < 7)

/-- Whether a wide access must let a narrow one go first that has waited seven beats (R157). -/
def State.yields (s : State) (shelf : Bool) (p : Nat) (a : Access) : Bool :=
  !shelf && a.src == 0 && a.rivals.any (fun r => decide (7 ≤ SMap.get (s.bench p).blocked 0 r))

/-- Whether it is the turn of a narrow access, or of a Shelf access, among those that wait. -/
def State.itsTurn (s : State) (shelf : Bool) (p : Nat) (a : Access) : Bool :=
  (!shelf && a.src == 0) ||
    nextSource (SMap.get (s.bench p).turn 3 (portOf shelf a)) ((a.src :: a.rivals).map (sourceOf shelf)) == sourceOf shelf a.src

/-- Whether an access is performed in its beat. -/
def State.accessGo (s : State) (shelf : Bool) (p : Nat) (a : Access) : Bool :=
  s.itsTurn shelf p a && !(s.blockedBy shelf p a) && !(s.yields shelf p a)

/-- The Bench after a beat in which a narrow access was performed, or had to wait for the wide port. -/
def Bench.served (b : Bench) (shelf : Bool) (a : Access) : Bench :=
  if !shelf && a.src == 0 then b
  else { b with turn := SMap.set b.turn 3 (portOf shelf a) (sourceOf shelf a.src), blocked := if shelf then b.blocked else SMap.set b.blocked 0 a.src 0 }
def Bench.wait (b : Bench) (a : Access) : Bench := { b with blocked := SMap.set b.blocked 0 a.src (SMap.get b.blocked 0 a.src + 1) }

/-! ### Check codes (R159 to R164) -/

/-- The first byte of the first row that a range touches, and the code words of its rows. -/
def rowBase (shelf : Bool) (p off : Nat) : Nat := p * memBytes shelf + off / memRow shelf * memRow shelf
def State.rowWords (s : State) (shelf : Bool) (p off len : Nat) : List (Nat × Nat) :=
  let r := memRow shelf
  let n := (off + len + r - 1) / r - off / r
  ((List.range (n * (r / 8))).map (fun i => s.codeWord (memKind shelf) (rowBase shelf p off / 8 + i))).eraseDups

/-- Whether bit `i` of the check bits that an access meets belongs to a code word (R159): 18 for each 128 data bits, of which
the activation class has 8 and one row parity for each half. -/
def checkOf (base : Nat) (w : Nat × Nat) (i : Nat) : Bool :=
  let c := i % 18
  (w.1 - base) / 16 == i / 18 && (w.2 == 16 || c % 2 == w.1 / 8 % 2)

/-- What a read of a code word finds (Table 06.1): 0 nothing, 1 one and 2 two corrected bits, 3 uncorrectable. The row parity
of the activation class shows an access to the wrong row. -/
def State.judge (s : State) (shelf : Bool) (base : Nat) (u : Upset) (w : Nat × Nat) : Nat :=
  let n := u.flips.eraseDups.countP (fun b => decide (w.1 ≤ base + b / 8) && decide (base + b / 8 < w.1 + w.2)) +
    u.checks.eraseDups.countP (checkOf base w)
  let par := w.2 == 8 && (u.row || u.checks.any (fun i => decide (16 ≤ i % 18) && checkOf base w i))
  if par || !(s.badWords (memKind shelf) w.1 w.2).isEmpty then 3
  else if w.2 = 16 then min n 3
  else if n ≤ 1 then n else 3

/-- A correction of `n` bits (R161). -/
def State.memCe (s : State) (shelf : Bool) (p off n : Nat) : State :=
  let f := if shelf then (if n = 1 then BEN_SH_CE.COUNT p else BEN_SH_CE2.COUNT p) else (if n = 1 then BEN_SP_CE.COUNT p else BEN_SP_CE2.COUNT p)
  ((s.incSat f).incSat (if shelf then MEM_ERR_SHELF.CE else MEM_ERR_SCRATCH.CE)).setWord (BEN_MEM_ERR_LAST.reg p)
    (BitVec.ofNat 64 (b2n shelf * 2 ^ 63 + off))

/-- A code word becomes uncorrectable until it is written. -/
def State.markBad (s : State) (k : Space) (w : Nat × Nat) : State :=
  { s with bad := s.bad ++ ((List.range (w.2 / 8)).map (fun i => (k.num, w.1 / 8 + i))).filter (fun e => !(s.bad.contains e)) }

/-- The effects of a read of code words, by what it finds in each (R161, R162, R164). An access to the wrong row leaves the
row that it should have reached as it is. -/
def State.checkRead (s : State) (shelf : Bool) (p base : Nat) (u : Upset) (words : List (Nat × Nat)) (run : Option Run) (scrub : Bool) : State :=
  words.foldl (fun s w =>
    let off := w.1 - p * memBytes shelf
    match s.judge shelf base u w with
    | 0 => s
    | 3 => let s1 := if u.row && w.2 == 8 then s else s.markBad (memKind shelf) w
           if shelf then s1.shUe p off run scrub else s1.spUe p off run scrub
    | n => s.memCe shelf p off n) s

/-- Whether an access has the shape its source makes (R155, R156, R171). -/
def Access.shapeOk (shelf : Bool) (a : Access) : Bool :=
  decide (0 < a.len) && decide (a.off + a.len ≤ memBytes shelf) && a.wdata.all (fun d => d.length == a.len && !a.upset.row) &&
  (if !shelf && a.src == 0 then a.off % 128 == 0 && a.len == 128 else a.off / memRow shelf == (a.off + a.len - 1) / memRow shelf)

/-- The bytes that a read returns. One of the wrong row finds only errors in the activation class; in the weight class,
which does not detect it, what it returns is a free value (log 1). -/
def State.readData (s : State) (shelf : Bool) (p : Nat) (a : Access) : List Byte :=
  if a.upset.row then
    if (s.rowWords shelf p a.off a.len).all (fun w => w.2 == 8) then List.replicate a.len 0
    else (List.range a.len).map (fun i => BitVec.ofNat 8 (s.freeAt i))
  else Mem.rdN (zeroBad s (memKind shelf) (s.mem (memKind shelf))) (p * memBytes shelf + a.off) a.len

/-- The RUN that a read belongs to (R162): one of the Bench's own units, or of a Bench that reads a slice over the mesh. -/
def State.accessRun (s : State) (shelf : Bool) (p : Nat) (a : Access) : Option Run :=
  if a.src ≤ 2 then (s.tileAt p).bind s.runAt else if shelf then (a.back.bind s.tileAt).bind s.runAt else none

/-- An access is performed (R158 to R163, R171). A read leaves its data in `rd`; a slice answers one over the mesh on VC1. -/
def State.access (s : State) (shelf : Bool) (p : Nat) (a : Access) : State :=
  let base := rowBase shelf p a.off
  let at_ := p * memBytes shelf + a.off
  let words := s.rowWords shelf p a.off a.len
  match a.wdata with
  | none =>
    let s1 := (s.checkRead shelf p base a.upset words (s.accessRun shelf p a) false)
    let data := s1.readData shelf p a
    let s2 := if a.upset.row then s1.skipFree a.len else s1
    match (if shelf && a.src == 3 then a.back else none) with
    | some q => s2.toStop p q (.shelfData data)
    | none => s2.modBench p (fun b => { b with rd := data })
  | some d =>
    let s0 := match s.memAddr shelf p a.off with
      | some x => s.cow x a.len
      | none => s
    let part := words.filter (fun w => decide (w.1 < at_ + a.len) && decide (at_ < w.1 + w.2) &&
      !(decide (at_ ≤ w.1) && decide (w.1 + w.2 ≤ at_ + a.len)))
    (s0.checkRead shelf p base a.upset part none false).wrPhys (memKind shelf) at_ d

/-- One access in one beat (R155 to R163, R171): it waits for its turn, for the wide port or for its region, or it is
performed. -/
def State.memAccess (s : State) (shelf : Bool) (p : Nat) (a : Access) : State :=
  if s.inServ p && Access.shapeOk shelf a && !(s.accessHeld shelf p a.off a.len) then
    if s.accessGo shelf p a then (s.modBench p (fun b => b.served shelf a)).access shelf p a
    else if s.itsTurn shelf p a && s.blockedBy shelf p a then s.modBench p (fun b => b.wait a)
    else s
  else s

/-- SCRATCHPAD_ACCESS (R158 to R163). -/
def execScratchpadAccess (p : Nat) (a : Access) (s : State) : Out := act s fun s => s.memAccess false p a

/-- SHELF_ACCESS (R171). -/
def execShelfAccess (p : Nat) (a : Access) (s : State) : Out := act s fun s => s.memAccess true p a

/-- PATROL_SCRUB (R164): the scrubber reads one row, in a beat in which no other source waits for its bank. -/
def execPatrolScrub (shelf : Bool) (p off : Nat) (x : ScrubBeat) (s : State) : Out := act s fun s =>
  if s.on MEM_CTRL.SCRUB_EN && s.inServ p && decide (off < memBytes shelf) && !(s.accessHeld shelf p off 1) && !x.busy then
    let base := rowBase shelf p off
    let words := s.rowWords shelf p off 1
    let s1 := s.checkRead shelf p base x.upset words none true
    if words.any (fun w => s.judge shelf base x.upset w == 3) then s1.setF MEM_EVENT.SCRUB_UE else s1
  else s

/-! ## Re-encoding (R160) -/

/-- The first byte of a region in its memory, by its number among the scratchpad's or the logical Shelf's regions. -/
def State.regionAt (s : State) (shelf : Bool) (r : Nat) : Option (Nat × Nat) :=
  if shelf then (s.sliceHost (r / 1536)).map (fun p => (p, p * 0x600000 + r % 1536 * 4096)) else some (r / 192, r * 4096)

/-- Every word of a region is read and corrected under its old class and written under its new one: `flips` are the bits
of the region that are found wrong. An uncorrectable word is written as it reads, zero (log 65). -/
def State.reencode (s : State) (shelf : Bool) (r : Nat) (flips : List Nat) : State :=
  match s.regionAt shelf r with
  | none => s
  | some (p, base) =>
    let now := if shelf then s.shelfWeight r else s.spWeight p (r % 192)
    let n := if now then 8 else 16
    let word := fun (b : Nat) => (b / n * n, n)
    let stored := (s.bad.filter (fun e => e.1 == (memKind shelf).num && decide (base ≤ e.2 * 8) && decide (e.2 * 8 < base + 4096))).map (fun e => word (e.2 * 8))
    let wrong := fun (w : Nat × Nat) => flips.eraseDups.countP (fun b => word (base + b / 8) == w)
    ((stored ++ (flips.map (fun b => word (base + b / 8)))).eraseDups).foldl (fun s w =>
      let off := w.1 - p * memBytes shelf
      if stored.contains w || decide ((if n = 16 then 2 else 1) < wrong w) then
        (if shelf then s.shUe p off none else s.spUe p off none).wrPhys (memKind shelf) w.1 (List.replicate n 0)
      else s.memCe shelf p off (wrong w)) s

/-- Every region that is being re-encoded is written under its new class; `flips` are the bits found wrong, by memory, region
and bit. -/
def State.reencodeAll (s : State) (flips : List (Bool × Nat × Nat)) : State :=
  s.fab.reenc.foldl (fun s r => s.reencode r.1 r.2 ((flips.filter (fun f => f.1 == r.1 && f.2.1 == r.2 && decide (f.2.2 < 32768))).map (·.2.2))) s

/-- REENCODE_DONE (R160). Which bits are found wrong is open (log 65). -/
def execReEncodeDone (s : State) : Out := act s fun s =>
  if s.fab.phase = .applying ∧ s.fab.reenc.isEmpty = false then
    let s1 := { s with freeCtr := s.freeCtr + 1 }.reencodeAll (Config.wrongBits s.freeCtr)
    ((s1.modFab (fun f => { f with reenc := [] })).shBit).afterApply
  else s

/-! ## Window writes (R179 to R183) -/

/-- Answers a remote operation of another die (Table 11.9). -/
def State.memAnswer (s : State) (die tag status : Nat) (data : List Byte) : State :=
  match s.dieCoord die with
  | none => s
  | some c => s.flpOr (unitId 3 0) 0 c 0x1A (leBytes 2 tag ++ leBytes 1 status ++ [0] ++ leBytes 2 data.length) data

/-- The response code of a write at a window's owner (Table 06.4, R181, R414). -/
def State.winCode (s : State) (w : WinWrite) : Nat :=
  match s.phys w.tile with
  | none => 4
  | some p =>
    if w.off + w.data.length > 0xC0000 then 4
    else match w.sender with
      | none => if s.on FAB_STATUS.IDLE then 0 else 3
      | some (die, _) =>
        if s.replay && !(s.ownDie die) then 1
        else if !(s.on (BEN_WIN_STATE.OPEN p (w.window % 8))) || s.get (BEN_WIN_STATE.EPOCH p (w.window % 8)) != w.epoch then 1
        else if s.get (BEN_WIN_RANGE.OFFSET p (w.window % 8)) ≤ w.off ∧
            w.off + w.data.length ≤ s.get (BEN_WIN_RANGE.OFFSET p (w.window % 8)) + s.get (BEN_WIN_RANGE.BYTES p (w.window % 8)) then 0
        else 2

/-- A write reaches a window's owner: its code, and the state after it. One from another die is captured (R410). -/
def State.winWrite (s : State) (w : WinWrite) : Nat × State :=
  let code := s.winCode w
  if code ≠ 0 then (code, s)
  else
    let s1 := match w.sender with
      | some (die, _) => if s.ownDie die then s
        else s.capture 4 (w.window % 8) w.tile (((s.runAt w.tile).map (fun (r : Run) => r.mb)).getD 0) (leBytes 8 w.off) w.data
      | none => s
    (0, (s1.store true (spAddr w.tile w.off) w.data).getD s1)

/-! ## Credits (R178) -/

/-- The credit entry of a window's owner. -/
def State.creditOf (s : State) (p die tile win : Nat) : Option Nat :=
  (List.range 8).find? (fun c => s.on (BEN_CREDIT_KEY.VALID p c) && s.get (BEN_CREDIT_KEY.DIE p c) == die &&
    s.get (BEN_CREDIT_KEY.TILE p c) == tile && s.get (BEN_CREDIT_KEY.WINDOW p c) == win)

/-- A credit entry at its values; one of 0 bytes is free. -/
def State.setCredit (s : State) (p c : Nat) (cr : Credit) : State :=
  if cr.bytes = 0 then (s.setWord (BEN_CREDIT_KEY.reg p c) 0).setWord (BEN_CREDIT_STATE.reg p c) 0
  else (s.setWord (BEN_CREDIT_KEY.reg p c) (BitVec.ofNat 64 (2 ^ 63 + cr.die % 16 * 2 ^ 16 + cr.window % 8 * 2 ^ 13 + cr.tile % 1024))).setWord
    (BEN_CREDIT_STATE.reg p c) (BitVec.ofNat 64 (cr.epoch % 2 ^ 32 * 2 ^ 32 + min 0x1FFFFF cr.bytes))

/-- A record of a Bench (Table 14.3): kind, code and address. -/
def benchEvent (p tile kind code addr reason : Nat) : ErrEvent :=
  { unit := unitId 0 p, cls := 1, reason := reason, ctx := 0, detail := tile + kind * 2 ^ 16 + code * 2 ^ 24 + addr * 2 ^ 64 }

/-- A credit joins a Bench's credit store (R178). -/
def State.creditIn (s : State) (tile : Nat) (cr : Credit) : State :=
  match s.phys tile with
  | none => s
  | some p =>
    match s.creditOf p (cr.die % 16) (cr.tile % 1024) (cr.window % 8) with
    | some c =>
      if s.get (BEN_CREDIT_STATE.EPOCH p c) = cr.epoch then s.setCredit p c { cr with bytes := s.get (BEN_CREDIT_STATE.BYTES p c) + cr.bytes }
      else s.setCredit p c cr
    | none =>
      match (List.range 8).find? (fun c => !(s.on (BEN_CREDIT_KEY.VALID p c))) with
      | some c => s.setCredit p c cr
      | none => (s.setF (BEN_DMA_STATUS.CREDIT_LOST p)).raise ((s.runAt tile).map Run.tag |>.getD 0) (benchEvent p tile 5 0 0 0x1111)

/-- CREDIT_ARRIVE (R178): a credit that the mesh has delivered from a Bench of this die, or one that another die's FLP sync
message carries. -/
def execCreditArrive (tile : Nat) (cr : Credit) (s : State) : Out := act s fun s =>
  if s.ownDie cr.die then
    match s.arrived (fun _ g => g == .winCredit tile cr) with
    | none => s
    | some x => (s.takeUp x).creditIn tile cr
  else s.creditIn tile cr

/-- The 32 bytes of a window credit message; the manual leaves its layout open (log 32). -/
def creditBody (cr : Credit) : List Byte :=
  leBytes 1 cr.die ++ leBytes 1 cr.window ++ leBytes 2 cr.tile ++ leBytes 4 cr.epoch ++ leBytes 4 cr.bytes ++ List.replicate 20 0

/-! ## The transfer engine (R174, R175) -/

/-- A transfer engine at its current descriptor: physical Bench, record, RUN and descriptor. -/
def State.dma (s : State) (tile : Nat) : Option (Nat × View × Run × Nat) :=
  (s.work tile).bind (fun (x : Nat × View × Run) =>
    if (s.bench x.1).descDone then none else some (x.1, x.2.1, x.2.2, s.get (BEN_DMA_STATUS.DESC x.1)))

/-- The transfer engine when it may go on: a Bench that lends its share waits for its wake slot (R55, R358). -/
def State.dmaOn (s : State) (tile : Nat) : Option (Nat × View × Run × Nat) :=
  (s.dma tile).bind (fun (x : Nat × View × Run × Nat) => if (s.bench x.1).lending then none else some x)

/-- The transfer engine on a started descriptor of an OP whose work is not over. -/
def State.dmaAt (s : State) (tile op : Nat) : Option (Nat × View × Run × Nat) :=
  (s.dmaOn tile).bind (fun (x : Nat × View × Run × Nat) =>
    if x.2.1.dOp x.2.2.2 = op ∧ (s.bench x.1).started = true ∧ (s.bench x.1).moved = false then some x else none)

/-- The requester ID of a Bench (R340). -/
def State.benchReqId (s : State) (tile : Nat) : Nat := s.get WRD_BOARD.DIE * 1024 + tile

/-- The object of a sync binding: another die that holds it, its context and the key of its counters (R346, R347, R357). -/
def State.bindObj (s : State) (v : View) (r : Run) (b : Nat) : Option Nat × Nat × Nat :=
  if v.yRemote b && !(s.ownDie (v.yDie b)) then (some (v.yDie b), v.yCtx b % 16, objKey true (v.yDie b) (v.yCtx b % 16) (v.yVid b))
  else
    let ctx := s.physCtx (if v.yRemote b then 0 else b2n (s.on (FAB_DRAWER.OWNER r.drawer))) (v.yCtx b)
    (none, ctx, objKey false 0 ctx (v.yVid b))

/-- A Bench ARRIVEs on a binding (R346, R350, R357, R414). -/
def State.benchArrive (s : State) (tile p : Nat) (v : View) (r : Run) (b : Nat) : State :=
  let (die, ctx, key) := s.bindObj v r b
  let tag := SMap.get (s.bench p).tagA 0 key
  let req := s.benchReqId tile
  let s1 := s.modBench p (fun b => { b with tagA := SMap.set b.tagA 0 key ((tag + 1) % 4) })
  match die with
  | some d =>
    if s.replay then s1
    else match s1.dieCoord d with
      | none => s1.syncErr none 6 req r.tag
      | some c => s1.syncSend c { op := 0, tag := tag, phys := false, ctx := ctx, vid := v.yVid b, count := 1, req := req, cell := 0, gen := 0, reason := 0, flag := false }
  | none =>
    match s1.findCell ctx (v.yVid b) with
    | none => s1.syncErr none 6 req r.tag
    | some cell => s1.toStop p (cellStop cell) (.sync 0 cell ctx (v.yVid b) tag [(req, 9)])

/-- A Bench issues the WAIT of a binding (R346, R350, R357 to R359, R414). -/
def State.benchWait (s : State) (tile p : Nat) (v : View) (r : Run) (b : Nat) : State :=
  let (die, ctx, key) := s.bindObj v r b
  let tag := SMap.get (s.bench p).tagW 0 key
  let req := s.benchReqId tile
  let s1 := s.modBench p (fun b => { b with waiting := some s.now })
  let wait := fun (s : State) (on : WaitOn) =>
    ({ s with waits := s.waits ++ [{ req := req, on := on, tag := tag, stamp := s.now, slot := 9, stop := p, key := key }] } : State)
  match die with
  | some d =>
    if s.replay then s1.benchPass tile key
    else match s1.dieCoord d with
      | none => (wait s1 .nothing).syncErr none 6 req r.tag
      | some c => (wait s1 (.far d false ctx (v.yVid b))).syncSend c
          { op := 1, tag := tag, phys := false, ctx := ctx, vid := v.yVid b, count := 1, req := req, cell := 0, gen := 0, reason := 0, flag := false }
  | none =>
    match s1.findCell ctx (v.yVid b) with
    | none => (wait s1 .nothing).syncErr none 6 req r.tag
    | some cell => (wait s1 (.cell cell)).toStop p (cellStop cell) (.sync 1 cell ctx (v.yVid b) tag [(req, 9)])

/-- Whether every product, epilogue and final store of the micro-batch is over at a Bench (R76, Table 06.3); an access of
the die's own memories that is still on the scoreboard is acknowledged by then. -/
def State.tailDone (s : State) (p : Nat) (v : View) : Bool :=
  let b := s.bench p
  b.prod.isNone && b.tileNo == v.products && b.inv.isNone && b.deferd.isEmpty && b.proDue.isNone &&
    (b.full.isEmpty || v.epiEntry == 0xFFFF)

/-- DESCRIPTOR_TRIGGER (R175): the current descriptor's trigger is met, or its WAIT is issued. -/
def execDescriptorTrigger (tile : Nat) (s : State) : Out := act s fun s =>
  match s.dmaOn tile with
  | none => s
  | some (p, v, r, d) =>
    let b := s.bench p
    let start := (s.modBench p (fun b => { b with started := true })).put (BEN_DMA_STATUS.STATE p) 2
    if b.started then s
    else if v.dTrigger d = 0 then start
    else if v.dTrigger d = 1 then (if b.waiting.isSome then s else s.benchWait tile p v r (v.dWait d))
    else if s.tailDone p v then start else s

/-! ## COPY (R175, R233, R485) -/

/-- Bytes of a copy onto a higher part of its own source: those that the manual leaves open, since it gives no order
between the reads and the writes, are free values, the same in every run (R29; log 1). -/
def ownCopy (r : Run) (tile : Nat) (v : View) (d prog : Nat) (data : List Byte) : List Byte :=
  let gap := v.dDst d - v.dSrc d
  if v.dSrcSpace d = v.dDstSpace d ∧ v.dSrc d < v.dDst d ∧ gap < v.dLength d ∧ gap < prog + data.length then
    (data.zipIdx).map (fun x => if gap ≤ prog + x.2 then BitVec.ofNat 8 (Config.openResult 0x200 [r.step, r.mb, r.drawer, tile, d, prog + x.2]) else x.1)
  else data

/-- A COPY between memories moves its next bytes, at most 64 KiB. -/
def State.copyMem (s : State) (tile p : Nat) (v : View) (r : Run) (d : Nat) : State :=
  let b := s.bench p
  let n := min 65536 (v.dLength d - b.prog)
  let rd : SbEntry := ⟨3, v.dSrcSpace d, v.dSrc d + b.prog, n, false⟩
  let wr : SbEntry := ⟨3, v.dDstSpace d, v.dDst d + b.prog, n, true⟩
  let src := spaceAddr tile rd.space rd.lo
  let dst := spaceAddr tile wr.space wr.lo
  if s.held false src n || s.held false dst n then s
  else
    let (go, s0) := s.issue p 3 [rd, wr]
    if go then
      let (got, s1) := (s0.fetch false (some r) src n).getD (List.replicate n 0, s0)
      let s3 := (s1.store false dst (ownCopy r tile v d b.prog got)).getD s1
      s3.modBench p (fun b => { b with prog := b.prog + n, moved := decide (v.dLength d ≤ b.prog + n) })
    else s0

/-- CONSUMER_WAIT of the queue that feeds a route. -/
def State.rxSync (s : State) (v : View) (r : Run) (route : Nat) : State :=
  match (List.range v.queueBinds).find? (fun i => v.qRole i == 1 && v.qRoute i == route) with
  | none => s
  | some i => s.put (QUE_Q_STATUS.CONSUMER_WAIT (v.qQueue i)) (b2n ((s.consumersOf r.drawer (v.qQueue i)).any (fun c => s.rxStalled c.1 c.2.2)))

/-- A COPY waits for a packet of its route (R233). -/
def State.starve (s : State) (p : Nat) (v : View) (r : Run) (route : Nat) : State :=
  (s.modBench p (fun b => { b with waiting := some (b.waiting.getD s.now), starved := some route })).rxSync v r route

/-- A COPY from a CONSUME route takes the words of the packet at its head that have been delivered (R485). -/
def State.copyRx (s : State) (tile p : Nat) (v : View) (r : Run) (d : Nat) : State :=
  let b := s.bench p
  let route := v.dSrc d % 64
  match b.rx.find? (fun x => x.route == route) with
  | none => s.starve p v r route
  | some x =>
    if x.got.isEmpty then (if x.recv = 0 then s.starve p v r route else s)
    else
      let off := x.recv * 64 - x.got.length
      let data := x.got.take (v.dLength d - off)
      let wr : SbEntry := ⟨3, v.dDstSpace d, v.dDst d + off, data.length, true⟩
      let dst := spaceAddr tile wr.space wr.lo
      if s.held false dst data.length then s
      else
        let (go, s0) := if data.isEmpty then (true, s) else s.issue p 3 [wr]
        if go then
          let s1 := if data.isEmpty then s0 else (s0.store false dst data).getD s0
          let last := x.recv = x.words
          let s2 := (s1.modBench p (fun b => { b with
            rx := if last then b.rx.erase x else b.rx.map (fun y => if y = x then { x with got := [] } else y)
            prog := x.recv * 64, moved := last, waiting := none, starved := none })).rxSync v r route
          if last ∧ v.dLength d < x.words * 64 then
            (s2.setF (BEN_QUE_DISCARD.OVERRUN p)).raise r.tag (benchEvent p tile 8 0 0 0x1120)
          else s2
        else s0

/-- A COPY to a route entry sends its data in one row, when the entry can take it (R175, R277). -/
def State.copySend (s : State) (tile p : Nat) (v : View) (r : Run) (d : Nat) : State :=
  let route := v.dDst d % 64
  let n := v.dLength d
  let rd : SbEntry := ⟨3, v.dSrcSpace d, v.dSrc d, n, false⟩
  let src := spaceAddr tile rd.space rd.lo
  let fin := fun (s : State) => s.modBench p (fun b => { b with prog := n, moved := true })
  if v.rKind route = 6 ∧ r.accDrain = false then fin s
  else if !(s.canSend v tile route r.mb) || s.held false src n then s
  else
    let (go, s0) := s.issue p 3 [rd]
    if go then
      let (data, s1) := (s0.fetch false (some r) src n).getD (List.replicate n 0, s0)
      if v.rKind route = 6 then
        fin (s1.drainAll v tile route route (v.rParam route) ((List.range (n / 4)).map (fun k => leNat ((data.drop (4 * k)).take 4))))
      else fin (s1.sendBlock v tile route r data)
    else s0

/-! ## Remote writes (R178, R179, R183, R206, R210) -/

/-- The next write of a COPY to space 4: its board address and its bytes. -/
def State.nextWrite (s : State) (p : Nat) (v : View) (d : Nat) : Nat × Nat :=
  let b := s.bench p
  let a := v.dDst d + b.prog
  (a, min (min 256 (v.dLength d - b.prog)) (512 - a % 512))

/-- The credit entry that lets the next write go, if one does. -/
def State.writeCredit (s : State) (p : Nat) (v : View) (d : Nat) : Option Nat :=
  let (a, n) := s.nextWrite p v d
  (s.creditOf p (a / 2 ^ 48) ((a % 2 ^ 48 - spBase) / 0x100000) (v.dWindow d % 8)).bind (fun c =>
    if n ≤ s.get (BEN_CREDIT_STATE.BYTES p c) then some c else none)

/-- Whether a tile's transfer engine has a remote write outstanding. -/
def State.writesOut (s : State) (tile : Nat) : Bool := s.remote.any (fun o => o.issuer == tile)

/-- The work of a COPY to space 4 is over once every write has been sent, or one has been NACKed, and all are answered. -/
def State.copyEnds (s : State) (tile p : Nat) (v : View) (d : Nat) : State :=
  let b := s.bench p
  if (b.nacked || decide (v.dLength d ≤ b.prog)) && !(s.writesOut tile) then s.modBench p (fun b => { b with moved := true }) else s

/-- A write of a COPY comes to nothing: a NACK, an address error or a timeout (R179, R183, R210). `quiet`: an abort or a load
has closed the window, which leaves no record (R182). -/
def State.dmaNack (s : State) (tile p code addr : Nat) (quiet : Bool := false) : State :=
  let s0 := (s.put (BEN_DMA_STATUS.LAST_NACK p) code).modBench p (fun b => { b with nacked := true })
  if quiet then s0
  else
    let s1 := s0.setF (BEN_DMA_STATUS.NACK p)
    let e := benchEvent p tile 4 code addr 0x1110
    if code = 5 then
      match s.runAt tile with
      | some r => if r.training then (s1.raise r.tag { e with cls := 4 }).contribute fRepeat else s1.raise r.tag e
      | none => s1.raise 0 e
    else s1.raiseSuspect (s.runAt tile) e

/-- The answer of a remote write of a Bench (R168, R179). -/
def State.benchAnswer (s : State) (op : RemoteOp) (code : Nat) (quiet : Bool := false) : State :=
  let s0 := { s with remote := s.remote.erase op }
  match s0.dma op.tile with
  | none => s0
  | some (p, v, _, d) =>
    let board := op.die * 2 ^ 48 + op.addr
    let cut := fun (e : SbEntry) => if e.unit = 3 ∧ e.space = 4 ∧ e.lo ≤ board ∧ board < e.lo + e.len then
      { e with lo := board + op.bytes, len := e.lo + e.len - (board + op.bytes) } else e
    let s1 := s0.modBench p (fun b => { b with sb := (b.sb.map cut).filter (fun e => e.len != 0) })
    (if code = 0 then s1 else s1.dmaNack op.tile p code board quiet).copyEnds op.tile p v d

/-- A write to a window of this die goes to its owner's stop (R178); where the tile does not exist it comes to nothing
(R179). -/
def State.windowSend (s : State) (tile p : Nat) (v : View) (d : Nat) (op : RemoteOp) (epoch : Nat) (data : List Byte) : State × Bool :=
  let t := (op.addr - spBase) / 0x100000
  match s.phys t with
  | some q => (s.toStop p q (.winWrite { tile := t, off := (op.addr - spBase) % 0x100000, data := data, epoch := epoch,
                                         window := v.dWindow d % 8, sender := some (op.die, tile), tag := op.tag }), true)
  | none => (s, false)

/-- A write to a window of another die goes out as a MEM_WRITE (R178, R206); none where no route leads there. -/
def State.windowAsk (s : State) (op : RemoteOp) (epoch : Nat) (data : List Byte) : Option State :=
  if s.on WRD_BOARD.VALID = true ∨ op.die = 0 then
    (s.dieCoord op.die).bind (fun x => s.flp x 0x19 (leBytes 6 op.addr ++ leBytes 2 op.bytes ++ leBytes 2 op.tag ++ leBytes 2 op.tile ++ leBytes 4 epoch) data)
  else none

/-- The write that goes out under a credit: it is subtracted, and the write carries the entry's epoch (R178). -/
def State.windowOut (s : State) (tile p : Nat) (v : View) (d c : Nat) (a : Nat) (data : List Byte) : State :=
  let die := a / 2 ^ 48
  let n := data.length
  let epoch := s.get (BEN_CREDIT_STATE.EPOCH p c)
  let s2 := (s.setCredit p c { die := die, tile := s.get (BEN_CREDIT_KEY.TILE p c), window := v.dWindow d % 8, epoch := epoch,
                               bytes := s.get (BEN_CREDIT_STATE.BYTES p c) - n }).put (BEN_DMA_STATUS.STATE p) 2
  let s3 := s2.modBench p (fun b => { b with prog := b.prog + n })
  let op : RemoteOp := { tag := s3.nextTag % 65536, issuer := tile, write := true, die := die, addr := a % 2 ^ 48, bytes := n, stamp := s.now, tile := tile }
  let out := fun (s : State) => ({ s with remote := s.remote ++ [op], nextTag := s.nextTag + 1 } : State)
  let lost := fun (s : State) => ((s.modBench p (fun b => { b with sb := b.sb.filter (fun e => !(e.unit == 3 && e.space == 4 && e.lo == a)) })).dmaNack tile p 4 a).copyEnds tile p v d
  if s.ownDie die then
    let (t, ok) := s3.windowSend tile p v d op epoch data
    if ok then out t else lost t
  else
    let s4 := s3.digest tile (64 + d) data
    if s.replay then s4.copyEnds tile p v d
    else match s4.windowAsk op epoch data with
      | some s5 => out s5
      | none => lost (if (s.on WRD_BOARD.VALID || die == 0) && (s.dieCoord die).isSome then s4.setF WRD_EVENT.REMOTE_ERROR else s4)

/-- CREDIT_WRITE_SEND (R178): the next write of a COPY to space 4 goes out under its credit. In a replay a write to another
die is not made, and so is not pending (R414). -/
def execCreditWriteSend (tile : Nat) (s : State) : Out := act s fun s =>
  match s.dmaAt tile 1 with
  | none => s
  | some (p, v, r, d) =>
    let b := s.bench p
    if v.dDstSpace d ≠ 4 ∨ b.nacked = true ∨ v.dLength d ≤ b.prog then s
    else match s.writeCredit p v d with
      | none => s.put (BEN_DMA_STATUS.STATE p) 3
      | some c =>
        let (a, n) := s.nextWrite p v d
        let rd : SbEntry := ⟨3, v.dSrcSpace d, v.dSrc d + b.prog, n, false⟩
        let src := spaceAddr tile rd.space rd.lo
        if s.held false src n then s
        else
          let (go, s0) := s.issue p 3 (rd :: if s.replay && !(s.ownDie (a / 2 ^ 48)) then [] else [⟨3, 4, a, n, true⟩])
          if go then
            let (data, s1) := (s0.fetch false (some r) src n).getD (List.replicate n 0, s0)
            s1.windowOut tile p v d c a data
          else s0

/-- COPY (R175, R178, R485). -/
def execCopy (tile : Nat) (s : State) : Out := act s fun s =>
  match s.dmaAt tile 1 with
  | none => s
  | some (p, v, r, d) =>
    if v.dDstSpace d = 4 then s.put (BEN_DMA_STATUS.STATE p) (if (s.bench p).prog < v.dLength d ∧ (s.writeCredit p v d).isNone = true then 3 else 2)
    else if v.dSrcSpace d = 2 then s.copyRx tile p v r d
    else if v.dDstSpace d = 2 then s.copySend tile p v r d
    else s.copyMem tile p v r d

/-- The record of an operation's answer reaches the Bench that wrote (R179). -/
def State.winAnswered (s : State) (tile tag code : Nat) : State :=
  match s.remote.find? (fun o => o.tag == tag && o.issuer == tile) with
  | some op => s.benchAnswer op code
  | none => s

/-- WINDOW_WRITE (R179 to R181): the owner performs the write or NACKs it, and the answer goes to its sender. A write of a
Bench of this die is one that the mesh has delivered. -/
def execWindowWrite (w : WinWrite) (s : State) : Out := act s fun s =>
  if s.held true (spAddr w.tile w.off) w.data.length then s
  else match w.sender with
    | none => (s.winWrite w).2
    | some (die, tile) =>
      if s.ownDie die then
        match s.arrived (fun _ g => g == .winWrite w) with
        | none => s
        | some x =>
          let (code, s1) := (s.takeUp x).winWrite w
          match s1.phys tile with
          | some q => s1.toStop x.1 q (.winAnswer tile w.tag code)
          | none => s1
      else
        let (code, s1) := s.winWrite w
        s1.memAnswer die w.tag code []

/-! ## Windows (R177) -/

/-- OPEN (R177): the window opens with its range, and PEER gets a credit. -/
def execOpenWindow (tile : Nat) (s : State) : Out := act s fun s =>
  match s.dmaAt tile 2 with
  | none => s
  | some (p, v, r, d) =>
    let w := v.dWindow d % 8
    let same := s.get (BEN_WIN_RANGE.OFFSET p w) == v.dWinOff d && s.get (BEN_WIN_RANGE.BYTES p w) == v.dWinBytes d
    let s1 := if s.on (BEN_WIN_STATE.OPEN p w) && same then s
      else (((s.closeWin p w).put (BEN_WIN_RANGE.OFFSET p w) (v.dWinOff d)).put (BEN_WIN_RANGE.BYTES p w) (v.dWinBytes d)).setF (BEN_WIN_STATE.OPEN p w)
    let cr : Credit := { die := s.get WRD_BOARD.DIE, tile := tile, window := w, epoch := s1.get (BEN_WIN_STATE.EPOCH p w), bytes := v.dCredit d }
    let peer := v.dPeer d % 1024
    let die := v.dPeer d / 2 ^ 16 % 16
    let s2 := s1.modBench p (fun b => { b with moved := true })
    if s.ownDie die then
      match s.phys peer with
      | some q => s2.toStop p q (.winCredit peer cr)
      | none => s2
    else if s.replay then s2
    else match s.dieCoord die with
      | some c => s2.flpOr (unitId 0 p) r.tag c 0x20 [2] (creditBody cr)
      | none => s2.raise r.tag { unit := unitId 0 p, cls := 1, reason := 0x0AFF, ctx := 0, detail := tile }

/-- CLOSE (R177). -/
def execCloseWindow (tile : Nat) (s : State) : Out := act s fun s =>
  match s.dmaAt tile 3 with
  | none => s
  | some (p, v, _, d) => (s.closeWin p (v.dWindow d % 8)).modBench p (fun b => { b with moved := true })

/-! ## Completion (R175, R485) -/

/-- COPY_DONE (R175): the descriptor completes, ARRIVEs on its DONE_BIND, and the next one waits for its trigger. -/
def execCopyDone (tile : Nat) (s : State) : Out := act s fun s =>
  match s.dmaOn tile with
  | none => s
  | some (p, v, r, d) =>
    if (s.bench p).moved then
      let s1 := s.modBench p (fun b => b.settle 3)
      let s2 := if v.dDone d = 0xFF then s1 else s1.benchArrive tile p v r (v.dDone d)
      let s3 := s2.modBench p (fun b => { b with started := false, moved := false, prog := 0, nacked := false })
      match v.nextDesc (d + 1) with
      | some n => (s3.put (BEN_DMA_STATUS.DESC p) n).put (BEN_DMA_STATUS.STATE p) 1
      | none => ((s3.modBench p (fun b => { b with descDone := true })).put (BEN_DMA_STATUS.STATE p) 0).rxDiscard p v r
    else s

end Sys2Proof.Machine
end

