-- ==== Sys2Proof/Machine/Boundary.lean ====
section
/-! DEFINITION. Boundary tokens and the end of a Bench's micro-batch (R76, R220, R257, R326, R329, R330). -/

namespace Sys2Proof.Machine

/-- BOUNDARY_TOKEN (R76, R232, R330): a token that the mesh has delivered arrives on one of the Bench's TOKEN_IN routes. It
counts for the next micro-batch of the entry, whose credits it ends. -/
def execBoundaryToken (tile route : Nat) (s : State) : Out := act s fun s =>
  match s.phys tile, s.arrived (fun _ g => g == .token tile route) with
  | some p, some x =>
    let m := s.fab.micros[s.tokensIn tile route]?
    (((s.takeUp x).tokenIn tile route)).modBench p (fun b => match m with
      | some y => { b with strIn := SMap.erase b.strIn (credKey route y.run.mb) }
      | none => b)
  | _, _ => s

/-- The routes of a mask. -/
def routesOf (v : View) (mask : Nat) : List Nat := (List.range 64).filter (fun i => bit mask i && v.rKind i != 0)

/-- Whether every write that a Bench issued has been acknowledged (R76): nothing of it is on the mesh or waits at a queue. -/
def State.queuesTaken (s : State) (v : View) (tile : Nat) : Bool :=
  !(s.onMesh (fun g => g.from? == some tile)) && (List.range v.routes).all (fun i => v.rKind i != 3 ||
    (!((s.queue (v.rTarget i)).wait.any (fun w => w.1 == .bench tile)) &&
     !((s.queue (v.rTarget i)).pks.any (fun k => k.st == .opening && k.prod == .bench tile && !k.req.isEnd))))

/-- Whether a Bench may forward its tokens: each costs a credit of a stream (R329). -/
def State.tokensFree (s : State) (v : View) (tile mb : Nat) : Bool :=
  (routesOf v v.tokenOut).all (fun i => (v.rKind i != 2 && v.rKind i != 5) || decide (0 < s.credits tile i mb) || (v.rKind i == 5 && s.replay))

/-- The DEVICE_QUEUE routes of a drawer that name a queue of a device. -/
def State.devRoutes (s : State) (d dev q : Nat) : List (Nat × Nat) :=
  ((s.members d).map (fun m => (List.range m.2.routes).filterMap (fun i =>
    if m.2.rKind i = 4 ∧ m.2.rPeer i = dev ∧ m.2.rTarget i = q then some (m.1, i) else none))).flatten

/-- A Bench sends the token of its micro-batch on a route of TOKEN_OUT (R76): to a Bench of this die, to the queue store,
or to the link complex. -/
def State.tokenOn (s : State) (p tile : Nat) (v : View) (r : Run) (i : Nat) : State :=
  match v.rKind i with
  | 2 =>
    match s.phys (v.rTile i) with
    | none => s.spend tile i r.mb
    | some q => (s.spend tile i r.mb).toStop p q (.token (v.rTile i) (v.rPeerEntry i))
  | 3 => s.toAgent p .queueStore (.tokenOut tile i r)
  | 4 => s.toAgent p .linkComplex (.tokenOut tile i r)
  | 5 => if s.replay then s else (s.spend tile i r.mb).toAgent p .linkComplex (.tokenOut tile i r)
  | _ => s

/-- A Bench's token reaches an edge agent: the queue store and a queue of another device take the tokens of a micro-batch
together, and a stream to another device carries it on (R220, R326, R330). -/
def State.tokenAt (s : State) (tile i : Nat) (r : Run) : State :=
  match s.planeAt r.drawer tile with
  | none => s
  | some v =>
    let noted := s.modFab (fun f => { f with prodTok := f.prodTok ++ [(tokKey tile i, r)] })
    match v.rKind i with
    | 3 => noted
    | 4 =>
      match noted.takeTokens (noted.devRoutes r.drawer (v.rPeer i) (v.rTarget i)) r with
      | none => noted
      | some t => if s.replay then t else t.openOut (v.rPeer i) (v.rTarget i) { words := 0, isEnd := true, step := r.step, mb := r.mb, tokens := 0 } []
    | 5 => s.flpOr (unitId 0 ((s.phys tile).getD 0)) r.tag (v.rPeer i) 9 (streamFields v tile i r) []
    | _ => s

/-- Whether a Bench has finished its micro-batch: every token is in, its work is over and acknowledged (R76). -/
def State.drained (s : State) (p tile : Nat) (v : View) (r : Run) : Bool :=
  (routesOf v v.tokenIn).all (fun i => decide (0 < SMap.get s.fab.tokens 0 (tokKey tile i))) &&
    s.tailDone p v && (s.bench p).descDone && (s.bench p).sb.all (fun e => e.space != 4) && !(s.writesOut tile) && s.queuesTaken v tile && s.tokensFree v tile r.mb

/-- The tokens that a Bench waited for are used up (R76). `loss`: it has added the loss window. -/
def State.useTokens (s : State) (tile : Nat) (v : View) (r : Run) (loss : Bool) : State :=
  s.modFab (fun f => { f with
    tokens := (routesOf v v.tokenIn).foldl (fun m i => SMap.set m 0 (tokKey tile i) (SMap.get m 0 (tokKey tile i) - 1)) f.tokens
    micros := f.micros.map (fun m => if m.run = r then
      { m with lossDone := m.lossDone || loss, lastToken := if v.tokenIn = 0 then s.now else m.lastToken } else m) })

/-- A Bench ends its micro-batch: the loss window, the tokens, DONE, and the next micro-batch if one has entered (R76,
R257). -/
def State.benchDone (s : State) (p tile : Nat) (v : View) (r : Run) : State :=
  let loss := s.on SBD_LOSS_WIN.EN && r.kind == 1 && s.get SBD_LOSS_WIN.TILE == tile
  let s1 := if loss then s.lossAdd else s
  let s2 := (routesOf v v.tokenOut).foldl (fun s i => s.tokenOn p tile v r i) s1
  let s3 := (s2.useTokens tile v r loss).sendDone tile r (s.bench p).report
  let s4 := match s3.runAt tile with
    | some n => s3.benchStart tile n
    | none => s3
  s4.noteSent.queAll

/-- BENCH_DRAINED (R76, R120, R220, R257). -/
def execBenchDrained (tile : Nat) (s : State) : Out := act s fun s =>
  match s.work tile with
  | none => s
  | some (p, v, r) => if s.drained p tile v r then s.benchDone p tile v r else s

end Sys2Proof.Machine
end

