-- ==== Sys2Proof/Machine/Deliver.lean ====
section
/-! DEFINITION. What a stop's delivery of a mesh message does at its receiver (R22, R27), and one hop of a flit (R20 to
R26). -/

namespace Sys2Proof.Machine

/-- The elements of a reduction reach the link complex, which adds them to their channel in ascending order (R277). -/
def State.reduceIn (s : State) (c first : Nat) (l : List Nat) : State :=
  (l.zipIdx).foldl (fun s x => s.drain c (first + x.2) x.1) s

/-- DONE reports reach the home cell, with the sticky bits of each (R77, R120). -/
def State.doneIn (s : State) (r : Run) (reps : List (Nat × Nat)) : State :=
  s.modFab (fun f => { f with micros := f.micros.map (fun m => if m.run = r then
    { m with home := m.home ++ reps.map (·.1), flags := reps.foldl (fun a x => a ||| x.2) m.flags } else m) })

/-- A stop keeps a message until a row takes it up. -/
def State.keepAt (s : State) (stop : Nat) (f : Flit) : State := { s with mesh := { s.mesh with got := s.mesh.got ++ [(stop, f)] } }

/-- A stop delivers a message: one that a row of its own takes up waits there, and every other has its effect. A release
goes on down its tree (R355). -/
def State.deliver (s : State) (stop : Nat) (f : Flit) : State :=
  match f.msg with
  | .winWrite _ | .token .. | .winCredit .. | .sync .. => s.keepAt stop f
  | .release cell _ => (releaseNext (cellStop cell) stop).foldl (fun s n => s.toStop stop n f.msg) (s.keepAt stop f)
  | .shelfData d => s.modBench stop (fun b => { b with rd := d })
  | .winAnswer t tag code => s.winAnswered t tag code
  | .block t e _ d => s.land t e d
  | .notice t binding route body => s.rxNotice t binding route body
  | .words t route seq mb d => s.wordsIn t route seq mb d
  | .packet q t r d => s.openArrive q (.bench t) r d
  | .away dev q _ r d => s.openOut dev q r d
  | .stream t route r d =>
    match s.planeAt r.drawer t with
    | none => s
    | some v => s.flpOr (unitId 0 ((s.phys t).getD 0)) r.tag (v.rPeer route) 8 (streamFields v t route r) d
  | .tokenOut t route r => s.tokenAt t route r
  | .reduce _ c first l => s.reduceIn c first l
  | .done r reps => s.doneIn r reps
  | .strCredit t e mb n => s.addCredits t e mb n

/-- MESH_FLIT_HOP (R20 to R26): an output of a stop serves one flit, which moves on or is delivered. -/
def execMeshFlitHop (stop : Nat) (out : Face) (s : State) : Out := act s fun s =>
  let (m, f) := s.mesh.serve stop out
  match f with
  | none => { s with mesh := m }
  | some f => ({ s with mesh := m } : State).deliver stop f

end Sys2Proof.Machine
end

