-- ==== Sys2Proof/Machine/Wardrobe.lean ====
section
/-! DEFINITION. The Wardrobe ports: bring-up, upkeep, inline code, reads, writes and scrubbing (chapter 07, R184 to R204). -/

namespace Sys2Proof.Machine

/-! ## Bring-up (R188, R189) -/

/-- Whether a port is bonded (R184). -/
def State.bonded (s : State) (p : Nat) : Bool := s.wrdPorts.contains p

/-- Whether a port waits at a step of its bring-up. -/
def State.atStep (s : State) (p step : Nat) : Bool :=
  s.bonded p && s.get (WRD_PORT_STATUS.STATE p) == (if step = 8 then 3 else 2) && (s.wport p).step == step

def State.toStep (s : State) (p step : Nat) : State := s.modWport p (fun w => { w with step := step })

/-- A record of a Wardrobe port (Table 14.3): `step` is the failing step of its bring-up. -/
def State.wrdRecord (s : State) (p cls reason step : Nat) : State :=
  s.raise bgTag { unit := unitId 2 p, cls := cls, reason := reason, ctx := 0, detail := step }

/-- WRD_PORT_PLL_LOCK (Table 07.2 step 2): the port reports ON, and its STATE becomes TRAINING. -/
def execWrdPortPllLock (p : Nat) (s : State) : Out := act s fun s =>
  let st := s.get (PWR_FN_CTRL.STATUS (64 + p))
  if s.bonded p = true ∧ s.get (WRD_PORT_STATUS.STATE p) = 1 ∧ (st = 1 ∨ st = 2) then
    let s1 := if st = 1 then s.fnDone (64 + p) else s
    ((s1.put (WRD_PORT_STATUS.STATE p) 2).put (WRD_PORT_STATUS.RATE p) (s.get WRD_CTRL.RATE)).toStep p 3
  else s

/-- WRD_RESET_RELEASE (Table 07.2 step 3): RESET_n goes high. -/
def execWrdResetRelease (p : Nat) (s : State) : Out := act s fun s =>
  if s.atStep p 3 then s.modWport p (fun w => { w with step := 4, resetN := true, stepAt := s.now }) else s

/-- WRD_ZQ_START (Table 07.2 steps 4 and 5), at least 800,000 rack ticks after RESET_n went high: the mode registers are
written for the selected rate. -/
def execWrdZqStart (p : Nat) (s : State) : Out := act s fun s =>
  if s.atStep p 4 ∧ (s.wport p).stepAt + 800000 ≤ s.now then
    let r := some (s.get (WRD_PORT_STATUS.RATE p))
    s.modWport p (fun w => { w with step := 6, zqAt := s.now, fsp0 := r, fsp1 := r, fsp := 0, rfm := Config.rfmThreshold p, acts := [] })
  else s

/-- A port whose third attempt has failed (R186, R189, R373). -/
def State.portFailed (s : State) (p step : Nat) : State :=
  let s1 := (((s.put (WRD_PORT_STATUS.STATE p) 5).put (WRD_PORT_STATUS.FAIL_STEP p) step).setF WRD_EVENT.TRAIN_FAIL).unready p
  (((s1.put WRD_STATUS.IN_SERVICE 0).wrdRecord p 6 0x0600 step).replace).claims

/-- An attempt fails in a step (R189): the port repeats bring-up from step 3, or it has FAILED. -/
def State.attemptFailed (s : State) (p step : Nat) : State :=
  let s1 := (s.put (WRD_PORT_STATUS.TRIES p) (min 15 (s.get (WRD_PORT_STATUS.TRIES p) + 1))).modWport p (fun w => { w with fails := w.fails + 1 })
  if 3 ≤ (s1.wport p).fails then s1.portFailed p step
  else (((s1.put (WRD_PORT_STATUS.FAIL_STEP p) step).put (WRD_PORT_STATUS.STATE p) 2).unready p).modWport p
    (fun w => { w with step := 3, resetN := false, fsp := 0, selfRef := false })

/-- WRD_TRAIN_DONE (Table 07.2 steps 6 and 7, R189). `failStep` is the step that failed, 5 to 7. The retraining of a warm
reset keeps the contents and leaves step 8 out (R191). -/
def execWrdTrainDone (p : Nat) (failStep : Option Nat) (s : State) : Out := act s fun s =>
  if s.atStep p 6 then
    match failStep with
    | some f => s.attemptFailed p f
    | none =>
      let s1 := (s.put (WRD_PORT_STATUS.TRIES p) (min 15 (s.get (WRD_PORT_STATUS.TRIES p) + 1))).modWport p (fun w => { w with fsp := 1 })
      if s.sec.warming then s1.portUp p else (s1.put (WRD_PORT_STATUS.STATE p) 3).toStep p 8
  else s

/-- WRD_CLEAR_DONE (Table 07.2 steps 8 to 11): the port's memory is zero, and the port is READY. -/
def execWrdClearDone (p : Nat) (s : State) : Out := act s fun s =>
  if s.atStep p 8 then
    ({ s with
      wrd := s.wrd.filter (fun e => (s.wrdLocate e.1).1 != p)
      bad := s.bad.filter (fun e => !(e.1 == Space.wrd.num && (s.wrdLocate (e.2 * 512)).1 == p)) } : State).portUp p
  else s

/-! ## Upkeep (R192 to R194) -/

/-- Whether a port serves accesses. -/
def State.portReady (s : State) (p : Nat) : Bool := s.bonded p && s.get (WRD_PORT_STATUS.STATE p) == 4

/-- WRD_REFRESH (R192): it only delays accesses. -/
def execWrdRefresh (p : Nat) (s : State) : Out := act s fun s =>
  if s.portReady p then s.modWport p (fun w => { w with refAt := s.now }) else s

/-- WRD_MR4_READ (R192, R193). -/
def execWrdMr4Read (p rate : Nat) (hot : Bool) (s : State) : Out := act s fun s =>
  if s.portReady p then
    let s1 := (s.put (WRD_PORT_REFRESH.MR4_RATE p) rate).modWport p (fun w => { w with mr4At := s.now })
    if hot then (s1.setF WRD_EVENT.TEMP_LIMIT).wrdRecord p 1 0x0604 0 else s1
  else s

/-- WRD_RFM (R192): a bank has reached the threshold of the device's mode registers. -/
def execWrdRfm (p bank : Nat) (s : State) : Out := act s fun s =>
  match (s.wport p).rfm with
  | none => s
  | some t =>
    if s.portReady p ∧ t ≤ SMap.get (s.wport p).acts 0 bank then
      (s.incSat (WRD_PORT_REFRESH.RFM_COUNT p)).modWport p (fun w => { w with acts := SMap.erase w.acts bank })
    else s

/-- WRD_ZQ_RECAL (R194): retraining of a drifted port touches nothing outside the training area. -/
def execWrdZqRecal (p : Nat) (_drifted : Bool) (s : State) : Out := act s fun s =>
  if s.portReady p then s.modWport p (fun w => { w with zqAt := s.now }) else s

/-! ## Inline code (R197) -/

/-- x · α in GF(2^8). -/
def gfDouble (x : Nat) : Nat := if x < 128 then 2 * x else (2 * x) ^^^ 0x11D

/-- α^n. -/
def gfExp : Nat → Nat
  | 0 => 1
  | n + 1 => gfDouble (gfExp n)

/-- Product in GF(2^8), over the bits of `y` from bit `k - 1` down. -/
def gfMulBits : Nat → Nat → Nat → Nat
  | 0, _, _ => 0
  | k + 1, x, y => (if bit y 0 then x else 0) ^^^ gfMulBits k (gfDouble x) (y / 2)

def gfMul (x y : Nat) : Nat := gfMulBits 8 x y

/-- The generator polynomial below its leading term, from x^3 down: the product of (x − α^i), i = 0 to 3. -/
def rsGen : List Nat :=
  ((List.range 4).foldl (fun (g : List Nat) i => ((g ++ [0]).zip (0 :: g)).map (fun (x : Nat × Nat) => x.1 ^^^ gfMul x.2 (gfExp i))) [1]).drop 1

/-- The check symbols of one code word, from the coefficient of x^3 down: the remainder of its data polynomial times x^4. -/
def rsRemainder (data : List Nat) : List Nat :=
  data.foldl (fun r d => ((r.drop 1 ++ [0]).zip rsGen).map (fun (x : Nat × Nat) => x.1 ^^^ gfMul ((r.headD 0) ^^^ d) x.2)) [0, 0, 0, 0]

/-- The 16 check bytes of a block of 512 data bytes (R197). -/
def rsCheck (block : List Byte) : List Byte :=
  (List.range 4).flatMap (fun w => (rsRemainder ((List.range 128).map (fun i => (block.getD (4 * i + w) 0).toNat))).map (BitVec.ofNat 8))

/-- The code word of a byte of a block with its check bytes, and the power of x it stands at in that word: data symbol 0
is the highest coefficient, check byte 4w the coefficient of x^3. -/
def rsPlace (pos : Nat) : Nat × Nat := if pos < 512 then (pos % 4, 131 - pos / 4) else ((pos - 512) / 4, 3 - (pos - 512) % 4)

/-- The place in the block of a code word's power of x. -/
def rsAt (w e : Nat) : Nat := if 4 ≤ e then (131 - e) * 4 + w else 512 + 4 * w + (3 - e)

/-- The errors of one code word: power and value. -/
def rsErrs (w : Nat) (errs : List (Nat × Byte)) : List (Nat × Nat) :=
  errs.filterMap (fun x => if x.1 < 528 ∧ (rsPlace x.1).1 = w then some ((rsPlace x.1).2, x.2.toNat) else none)

/-- The i-th syndrome; a valid word has none. -/
def syndrome (l : List (Nat × Nat)) (i : Nat) : Nat := l.foldl (fun a x => a ^^^ gfMul x.2 (gfExp (i * x.1 % 255))) 0

/-- What the decoder makes of a code word: nothing to do, a byte to correct by its power and value, or uncorrectable. -/
inductive RsResult where
  | clean
  | fix (e v : Nat)
  | ue
  deriving DecidableEq, Repr

/-- The decoder of one code word (R197): it corrects at most one byte. -/
def rsDecode (l : List (Nat × Nat)) : RsResult :=
  let s0 := syndrome l 0
  let s1 := syndrome l 1
  let s2 := syndrome l 2
  let s3 := syndrome l 3
  if s0 = 0 ∧ s1 = 0 ∧ s2 = 0 ∧ s3 = 0 then .clean
  else
    match (List.range 132).find? (fun e => s0 != 0 && gfMul s0 (gfExp e) == s1 && gfMul s1 (gfExp e) == s2 && gfMul s2 (gfExp e) == s3) with
    | some e => .fix e s0
    | none => .ue

/-- What a decode of a block comes to: uncorrectable, or the changes left in its bytes and whether one was corrected. -/
structure BlockRes where
  ue  : Bool
  ce  : Bool
  xor : List (Nat × Nat)          -- byte of the block, change that the decoder has left in it

/-- Decodes a block whose stored bytes differ by `errs` from a valid one (R197, R199, R201). -/
def blockDecode (errs : List (Nat × Byte)) : BlockRes :=
  let rs := (List.range 4).map (fun w => rsDecode (rsErrs w errs))
  let fixes := (List.range 4).filterMap (fun w => match rs.getD w .clean with
    | .fix e v => some (rsAt w e, v)
    | _ => none)
  { ue := rs.contains .ue, ce := !fixes.isEmpty,
    xor := ((errs.map (fun x => (x.1, x.2.toNat))) ++ fixes).filter (fun x => decide (x.1 < 512)) }

/-! ## Accesses (R195, R198 to R202) -/

/-- The block's bytes take what decoding has left in them; nothing where every error was corrected. -/
def State.xorBlock (s : State) (blk : Nat) (l : List (Nat × Nat)) : State :=
  { s with wrd := l.foldl (fun m x => Mem.wr m (blk * 512 + x.1) (Mem.rd m (blk * 512 + x.1) ^^^ BitVec.ofNat 8 x.2)) s.wrd }

/-- The check bytes that a valid block holds, as it now stands. -/
def State.checkBytes (s : State) (blk : Nat) : List Byte := rsCheck (Mem.rdN s.wrd (blk * 512) 512)

/-- What the link reports of a transfer: an error that it corrected, and one for which the block was read once more (R200). -/
def State.linkEcc (s : State) (p : Nat) (ce retry : Bool) : State :=
  (s.incSat (WRD_PORT_ERR.LINK_CE p) (b2n ce)).incSat (WRD_PORT_ERR.LINK_RETRY p) (b2n retry)

/-- A read of a whole block through the decoder: the state after it. The block reads as zero while it is listed in
`bad`. -/
def State.blockRead (s : State) (blk : Nat) (errs : List (Nat × Byte)) (run : Option Run) (scrub : Bool) : State × Bool :=
  let p := (s.wrdLocate (blk * 512)).1
  let r := blockDecode errs
  if s.bad.contains (0, blk) then (s.wrdUe blk run scrub, true)
  else if r.ue then (({ s with bad := s.bad ++ [(0, blk)] } : State).wrdUe blk run scrub, true)
  else if r.ce then
    ((((s.xorBlock blk r.xor).incSat (WRD_PORT_ERR.CE p)).incSat WRD_ERR_TOTAL.CE).setWord (WRD_PORT_ERR_LAST.reg p)
      (BitVec.ofNat 64 (b2n scrub * 2 ^ 62 + blk * 512)), false)
  else (s.xorBlock blk r.xor, false)

/-! ### The device-reserved region (R204, R371, R389, R408) -/

/-- What the device holds in the reserved region beside plane copies and the mirror: the channel table, the control block and
the records of its journal, and its error log, each at its address. Their state is in `hst` and `ras` (log 38). -/
def State.ownRecords (s : State) : List (Nat × List Byte) :=
  let l := s.get FAB_WRD_LIMIT.LIMIT
  s.hst.chans.map (fun (x : Nat × Chan) => (l + 128 * x.1, x.2.bytes)) ++ [(l + 0x4000000, s.ctlBytes)] ++
    s.hst.recs.map (fun r => (l + 0x4000000 + r.off, r.bytes)) ++
    s.ras.log.map (fun (x : Nat × Rec) => (l + 0x28000000 + x.1 % 6291456 * 64, x.2.bytes))

/-- The bytes that a block's part reads as, the device's own records among them. -/
def State.wrdBytes (s : State) (a n : Nat) : List Byte :=
  let raw := Mem.rdN (zeroBad s .wrd s.wrd) a n
  if a + n ≤ s.get FAB_WRD_LIMIT.LIMIT ∨ s.bad.contains (0, a / 512) = true then raw
  else
    let own := s.ownRecords
    raw.zipIdx.map (fun x => (own.findSome? (fun o => if o.1 ≤ a + x.2 then o.2[a + x.2 - o.1]? else none)).getD x.1)

/-! ### The rows -/

/-- Whether `n` bytes from an address lie in one block of a Wardrobe in service (R186, R198). -/
def State.inBlock (s : State) (a n : Nat) : Bool :=
  s.on WRD_STATUS.IN_SERVICE && decide (0 < n) && decide (a + n ≤ s.wrdEnd) && a / 512 == (a + n - 1) / 512

/-- WARDROBE_READ (R198 to R201): `errs` are the bytes of the block and its check bytes that have changed, with the
change; `ofRun` says that the read belongs to the RUN in force. -/
def execWardrobeRead (addr len : Nat) (errs : List (Nat × Byte)) (ofRun linkCe linkRetry : Bool) (s : State) : Out := act s fun s =>
  if s.inBlock addr len then
    let p := (s.wrdLocate addr).1
    let s1 := ((s.linkEcc p linkCe linkRetry).activate addr).blockRead (addr / 512) errs (if ofRun then s.runNow else none) false
    s1.1.modWport p (fun w => { w with rd := s1.1.wrdBytes addr len, chk := s1.1.checkBytes (addr / 512) })
  else s

/-- WARDROBE_WRITE (R198, R200, R201, R426): a whole block, or a read, a merge and a write. -/
def execWardrobeWrite (addr : Nat) (data : List Byte) (u : BlockUpset) (s : State) : Out := act s fun s =>
  if s.inBlock addr data.length then
    let p := (s.wrdLocate addr).1
    let whole := data.length = 512
    let s1 := ((s.cow addr data.length).linkEcc p u.linkCe (u.linkRetry && !(decide whole))).activate addr
    let s2 := (if whole then s1 else (s1.blockRead (addr / 512) u.errs none false).1).wrPhys .wrd addr data
    s2.modWport p (fun w => { w with chk := s2.checkBytes (addr / 512) })
  else s

/-- WRD_SCRUB (R200, R202): data block `blk` of port `p`. -/
def execWrdScrub (p blk : Nat) (u : BlockUpset) (s : State) : Out := act s fun s =>
  let n := s.wrdPorts.length
  let b := blk * n + s.wrdPorts.idxOf p
  if s.portReady p && s.on WRD_CTRL.SCRUB_EN && decide ((b + 1) * 512 ≤ s.wrdEnd) then
    let (s1, ue) := ((s.linkEcc p u.linkCe u.linkRetry).activate (b * 512)).blockRead b u.errs none true
    if ue then s1.setF WRD_EVENT.SCRUB_UE else s1
  else s

end Sys2Proof.Machine
end

