-- ==== Sys2Proof/Machine/Ckp.lean ====
section
/-! DEFINITION. Checkpoint rows: SNAPSHOT, copy-on-write, the copier, the drain to the buddy, restores and rejoin, and
the buddy's side of drains and mirrors (chapter 14, R425 to R435; R393). -/

namespace Sys2Proof.Machine

/-! ## Snapshots -/

/-- The SNAPSHOT command (Table 14.8). -/
def execSnapshot (ch : Nat) (s : State) : Out := act s fun s => s.perform ch (fun r => r.op == 0x30) fun s r =>
  s.orReject r (decide (r.arg 0 1 ≤ 2) && r.zeros [(1, 47)]) (r.body == []) (s.snapRequest (some (ch, r.seq, r.arg 0 1)))

/-- REFRESH_DONE (R261 steps 8 and 9, R267): the refresh ends; a rejoin that waited for it ends, and a snapshot
follows a commit while EVERY_STEP is 1 (R431, R435). -/
def execRefreshDone (s : State) : Out := act s fun s =>
  if s.get SBD_STATUS.STATE = 5 then
    let s1 := { (s.refreshAll.put SBD_STATUS.STATE 0) with upd := none }
    let s2 := match s1.ckp.rejoin with
      | some c => (s1.modCkp (fun x => { x with rejoin := none })).finish c.1 c.2 0 (s1.get (SBD_BANK_T.T (s1.get SBD_BANK.ACTIVE)) * 2 ^ 32)
      | none => s1
    let s3 := s2.modCkp (fun c => { c with due := false })
    if s2.ckp.due && s2.on CKP_CTRL.EVERY_STEP then s3.snapRequest none else s3
  else s

/-- COW_WRITE (R426): a write inside a PENDING granule, named by its place in the snapshot. -/
def execCowWrite (granule addr : Nat) (data : List Byte) (s : State) : Out := act s fun s =>
  match s.ckp.snap.bind (fun sn => sn.granules[granule]?) with
  | none => s
  | some g =>
    if g.2.2.2.2 = 0 ∧ g.2.1 ≤ addr ∧ addr + data.length ≤ g.2.1 + g.2.2.1 ∧ data ≠ [] then ((s.store true addr data).getD s).snapSeal else s

/-- GRANULE_COPY (R427): the first PENDING granule is copied; `ue`: the copy meets an uncorrectable error. -/
def execGranuleCopy (ue : Bool) (s : State) : Out := act s fun s =>
  match s.ckp.snap with
  | none => s
  | some sn =>
    match sn.granules.find? (fun g => g.2.2.2.2 == 0) with
    | none => s.snapSeal
    | some g =>
      let bad := s.granuleBad g
      let s1 := s.copyGranule sn g
      let gs := sn.granules.map (fun x => if x = g then (g.1, g.2.1, g.2.2.1, g.2.2.2.1, 1) else x)
      let hurt := ue || !bad.isEmpty
      let s2 := (s1.modCkp (fun c => { c with snap := some { sn with granules := gs, degraded := sn.degraded || hurt } })).put CKP_COW.PENDING
        (gs.countP (fun g => g.2.2.2.2 == 0))
      (if ue && bad.isEmpty then s2.degraded g else s2).snapSeal

/-! ## The drain to the buddy (R428) -/

/-- A buddy slot's address: the slot in [47:46]. -/
def buddyAddr (slot off : Nat) : Nat := (2 + slot) * 2 ^ 46 + off

/-- The drain starts again from its zero seal, of the snapshot in progress or of the newest sealed own generation. -/
def State.redrain (s0 : State) : State :=
  let s := s0.modCkp (fun c => { c with again := false })
  match s.ckp.snap with
  | some sn => s.modCkp (fun c => { c with snap := some { sn with
      headSent := false, drain := true, granules := sn.granules.map (fun g => (g.1, g.2.1, g.2.2.1, g.2.2.2.1, min 1 g.2.2.2.2)) } })
  | none => match s.newest [0, 1] with
    | none => s
    | some g =>
      let n := (s.header (s.slotAt g)).getD 11 0
      let dir := (List.range n).map (fun i => dirOf ((s.rdA true (s.slotAt g + 256 + 32 * i) 32).getD []))
      let gs := ((dir.map DirEnt.granules).flatten).map (fun g => (g.1, g.2.1, g.2.2.1, g.2.2.2.1, 1))
      (s.modCkp (fun c => { c with snap := some { slot := g, id := s.get (CKP_GEN.SNAP_ID g), granules := gs, sealedOwn := true } })).put CKP_STATUS.PHASE 3

/-- The drain is turned away, or has no answer (R428): it ends without the buddy's seal. -/
def State.drainEnd (s : State) : State :=
  let s1 := { s with remote := s.remote.filter (fun o => o.issuer != 0x43FD || !o.write) }
  let s2 := s1.raise deskTag { unit := unitId 8 0xFFF, cls := 1, reason := 0x0EFF, ctx := 0, detail := 0xFFFF }
  match s2.ckp.snap with
  | none => s2
  | some sn => if sn.sealedOwn then s2.snapOver sn 0 7 else s2.modCkp (fun c => { c with snap := some { sn with drain := false } })

/-- CHEST_DRAIN (R428): the next part of the drain goes out. -/
def execChestDrain (s : State) : Out := act s fun s0 =>
  let s := if s0.ckp.again && s0.on HST_BUDDY.VALID then s0.redrain else s0
  match s.ckp.snap with
  | none => s
  | some sn =>
    let base := s.slotAt sn.slot
    let bytes := fun (o n : Nat) => (s.rdA true (base + o) n).getD (List.replicate n 0)
    let send := fun (s : State) (mark o : Nat) (l : List Byte) => State.deskSend 17 s 0x43FD mark none (buddyAddr sn.slot o) l
    let keep := fun (s : State) (x : Snap) => s.modCkp (fun c => { c with snap := some x })
    let sealOff := chestSlot s.man - 4096
    if !(s.on HST_BUDDY.VALID) || !sn.drain then s
    else if !(s.reaches (s.get HST_BUDDY.COORD)) then s.deskUnreach.drainEnd
    else if !sn.headSent then keep (send (send s 0 sealOff (List.replicate 4096 0)) 0 0 (bytes 0 65536)) { sn with headSent := true }
    else match sn.granules.find? (fun g => g.2.2.2.2 == 1) with
      | some g =>
        keep (send s 0 g.2.2.2.1 (bytes g.2.2.2.1 g.2.2.1)) { sn with
          granules := sn.granules.map (fun x => if x = g then (g.1, g.2.1, g.2.2.1, g.2.2.2.1, 2) else x) }
      | none =>
        if sn.sealedOwn && !(s.remote.any (fun o => o.issuer == 0x43FD && o.tile == 1)) then send s 1 sealOff (bytes sealOff 4096) else s

/-- The answer of a drain write: the last one is that of the seal (R428). -/
def State.drainAnswer (s : State) (op : RemoteOp) (code : Nat) : State :=
  let s1 := { s with remote := s.remote.erase op }
  if code ≠ 0 then s1.drainEnd
  else if op.tile = 1 then
    match s1.ckp.snap with
    | none => s1
    | some sn => (s1.setF CKP_EVENT.BUDDY_SEALED).snapOver sn 4 0
  else s1

/-! ## The buddy's side (R393, R428, R434) -/

/-- The place of an operation of Desk firmware from another device, if it is accepted: where its bytes lie here. -/
def State.deskPlace (s : State) (src iss addr n : Nat) (read : Bool) : Option Nat :=
  let named := s.on HST_BUDDY.VALID && s.get HST_BUDDY.COORD == src
  if iss = 0x43FE then
    if named && decide (addr + n ≤ logEnd) then some (s.get FAB_WRD_LIMIT.LIMIT + 0x14000000 + addr) else none
  else
    let slot := addr / 2 ^ 46
    let off := addr % 2 ^ 46
    let ok := if read then s.get (CKP_GEN.SOURCE slot) == src && decide (0 < chestSlot s.man) else named && decide (0 < chestSlot s.man)
    if (slot = 2 ∨ slot = 3) ∧ ok = true ∧ off + n ≤ chestSlot s.man then some (s.slotAt slot + off) else none

/-- A write of the buddy's Desk firmware: its response code, and the state after it. -/
def State.deskWrite (s : State) (src iss addr : Nat) (data : List Byte) : Nat × State :=
  match (s.deskPlace src iss addr data.length false).bind (fun a => s.wrA true a data) with
  | none => (4, s)
  | some s1 => if iss = 0x43FE then (0, s1) else (0, (s1.genSync (addr / 2 ^ 46)).put (CKP_GEN.SOURCE (addr / 2 ^ 46)) src)

/-- A read of another device's Desk firmware: its response code and its data. -/
def State.deskRead (s : State) (src iss addr n : Nat) : Nat × List Byte :=
  match (s.deskPlace src iss addr n true).bind (fun a => s.rdA true a n) with
  | none => (4, List.replicate n 0)
  | some l => (0, l)

/-! ## Restore (R433, R434) -/

/-- What a slot's device-state part holds: the image and its manifest, and the sections that follow. -/
def State.slotNums (s : State) (base : Nat) : List Nat :=
  let n := s.leA true (base + slotData) 8
  bytesNum n ((s.rdA true (base + slotData + 8) (8 * n)).getD [])

/-- The bits of a register that are of type RW or SH. -/
def rwMask (o : Nat) : Nat :=
  match regSpec o with
  | none => 0
  | some r => r.fields.foldl (fun a f => if f.acc = .rw ∨ f.acc = .sh then a + (2 ^ (f.hi + 1) - 2 ^ f.lo) else a) 0

/-- The bits that a restore writes: those of type RW and SH outside the blocks of R433, and what Table 14.6 names beside
them: queue pointers and sequence counters, windows and credits. SBD_BANK and SBD_LOSS_EMA go with them, since the T that
a restore reports is that of the bank in force and R435 finds the EMA in a generation (log 34, DEDUCED). -/
def restoreMask (o : Nat) : Nat :=
  let b := regBlock o
  let l := o % 0x1000
  if b = 12 ∨ b = 10 ∨ b = 1 ∨ b = 3 ∨ b = 15 ∨ b = 16 then 0
  else if b = 17 ∧ 0x300 ≤ l ∧ l < 0x400 then 2 ^ 64 - 1
  else if b = 7 ∧ 0x71000 ≤ o ∧ o % 0x40 < 0x38 ∧ o % 0x40 ≠ 0x28 then 2 ^ 64 - 1
  else if o = SBD_BANK.reg ∨ o = SBD_LOSS_EMA.reg then 2 ^ 64 - 1
  else rwMask o

/-- Registers as a cut holds them: offsets with BEN registers by logical tile. Those that the cut does not list stood at
their reset values. -/
def State.restoreRegs (s : State) (l : List (List Nat)) : State :=
  let put := fun (s : State) (o v : Nat) =>
    let m := restoreMask o
    s.setWord o (BitVec.ofNat 64 ((s.word o).toNat - ((s.word o).toNat &&& m) + (v &&& m)))
  let s1 := s.regs.foldl (fun t (e : Nat × Word) =>
    if restoreMask e.1 = 0 ∨ inPart e.1 = false ∨ (s.partOff e.1).isNone = true then t else put t e.1 (resetWord e.1).toNat) s
  l.foldl (fun t r =>
    let o := r.getD 0 0
    if o < 0x1000000 then put t o (r.getD 1 0)
    else match t.phys ((o - 0x1000000) / 0x1000) with
      | none => t
      | some p => put t (0x1000000 + p * 0x1000 + o % 0x1000) (r.getD 1 0)) s1

/-- Sync cells of a cut, in the contexts that the image has now (R351). -/
def State.restoreCells (s : State) (l : List (List Nat)) : State :=
  l.foldl (fun s c =>
    let n := fun i => c.getD i 0
    let ctx := s.physCtx 0 (n 1)
    (s.setCell (n 0) { valid := true, ctx := ctx, vid := n 2, barrier := n 3 == 1, n := n 4, gen := n 5, count := n 6, next := n 7, last := n 8,
                       setLost := n 9 }).incMod (SYN_CTX_STATE.CELLS ctx)) s

/-- A and W counters of a cut. -/
def State.restoreTags (s : State) (l : List (List Nat)) : State :=
  l.foldl (fun s c =>
    match s.phys (c.getD 0 0) with
    | none => s
    | some p =>
      let k := mapKey (s.physCtx 0) (c.getD 2 0)
      s.modBench p (fun b => if c.getD 1 0 = 0 then { b with tagA := SMap.set b.tagA 0 k (c.getD 3 0) } else { b with tagW := SMap.set b.tagW 0 k (c.getD 3 0) })) s

/-- Committed packets of a cut. -/
def State.restorePks (s : State) (l : List (List Nat)) : State :=
  l.foldl (fun s c =>
    let n := fun i => c.getD i 0
    let p : QPacket := { st := if n 1 = 1 then .inRing else .committed, ring := n 1 == 1, prod := prodOf (n 2) (n 3) (n 4),
                         req := { words := n 5, isEnd := n 6 == 1, step := n 7, mb := n 8, tokens := n 9 }, seq := n 10, spilled := n 11 == 1, base := n 12,
                         stampO := n 13, stampC := n 14 }
    s.modQueue (n 0) (fun q => { q with pks := q.pks ++ [p], ringCommit := s.get (QUE_Q_RING_PTR.RING_WR (n 0)) })) s

/-- Whether a slot's directory and manifest match the device (R433). -/
def State.shapeOk (s : State) (h : List Nat) (m : Manifest) : Bool :=
  h.getD 8 0 == s.get GLB_ID.PART && h.getD 4 0 == s.coord && h.getD 5 0 == (s.word LNK_TORUS.reg).toNat && h.getD 6 0 == (s.word RED_GROUP.reg).toNat &&
  h.getD 7 0 == (s.word RED_JOB.reg).toNat && h.getD 9 0 == s.get FAB_WRD_LIMIT.LIMIT && m.chestBase == s.man.chestBase && m.chestBytes == s.man.chestBytes &&
  (s.rowCheck m).isNone

/-- Reduction and vote state, and an update in progress, are discarded (R433, R435). -/
def State.voteDrop (s : State) : State :=
  (({ s with red := {}, upd := none } : State).put RED_VOTE_STATUS.STATE 0).put SBD_STATUS.STATE 0

/-- A restore from an own slot (R433). `dir` is read before anything is released. -/
def State.restoreFrom (s : State) (base : Nat) (step att : Nat) : State :=
  let h := s.header base
  let dir := (List.range (h.getD 11 0)).map (fun i => dirOf ((s.rdA true (base + 256 + 32 * i) 32).getD []))
  let nums := s.slotNums base
  let (m, l1) := manifestOf (nums.drop 3)
  let (regs, l2) := takeSec 2 l1
  let (cells, l3) := takeSec 10 l2
  let (tags, l4) := takeSec 4 l3
  let (pks, _) := takeSec 15 l4
  let im : Image := { addr := nums.getD 0 0, id := nums.getD 1 0, length := nums.getD 2 0, man := m }
  let s1 := { ((s.release.drawers m false).claimCtx m.contexts 1).zeroTags (fun _ => true) with resident := some im, staged := none, fab := {} }
  let s2 := dir.foldl (fun s e => if e.kind = 0 then s else s.copyA (base + e.off) e.src e.bytes) s1
  let s3 := (List.range 4).foldl (fun s d => s.putPlane d) s2
  let s4 := ((((s3.restoreRegs regs).restoreCells cells).restoreTags tags).restorePks pks).unitMap
  let s5 := s4.voteDrop.enterAttempt step att
  ((((s5.put FAB_STATUS.ACTIVE_DRAWER (h.getD 10 0)).availCnt.claims.imageFlags.queAll).genSyncAll).setF CKP_EVENT.RESTORED)

/-- T of the state in force, as RESULT carries it (Table 14.8). -/
def State.tResult (s : State) : Nat := s.get (SBD_BANK_T.T (s.get SBD_BANK.ACTIVE)) * 2 ^ 32

/-- A RESTORE command ends with a code. -/
def State.restoreEnd (s : State) (cmd : Option (Nat × Nat)) (code : Nat) : State :=
  match cmd with
  | none => s
  | some c => s.finish c.1 c.2 0 (s.tResult + code)

/-- Whether RESTORE may be performed now: the code that turns it away. -/
def State.restoreBar (s : State) : Option Nat :=
  if !(s.on FAB_STATUS.IDLE) || s.get SBD_STATUS.STATE == 5 then some 4
  else if s.ckp.snap.isSome || s.ckp.want.isSome || s.ckp.restore.isSome then some 1
  else none

/-- A restore from a sealed own slot, or its refusal. -/
def State.restoreSlot (s : State) (cmd : Option (Nat × Nat)) (g step att : Nat) : State :=
  let base := s.slotAt g
  if !(s.on (CKP_GEN.SEALED g)) then s.restoreEnd cmd 5
  else if s.shapeOk (s.header base) (manifestOf ((s.slotNums base).drop 3)).1 then (s.restoreFrom base step att).restoreEnd cmd 0
  else s.restoreEnd cmd 6

/-- The arguments of a RESTORE command that every mode leaves reserved are zero, and its MODE picks the row; a reserved
MODE or SLOT goes with FULL. -/
def restoreSel (mode : Nat) (r : JRec) : Bool := r.op == 0x31 && (if mode = 0 then r.arg 0 1 != 1 && r.arg 0 1 != 2 else r.arg 0 1 == mode)

/-- A RESTORE command's ARGUMENT and LENGTH checks (R380). -/
def JRec.restoreBad (r : JRec) : Option Nat :=
  if 2 < r.arg 0 1 ∨ r.zeros [(2, 2), (10, 2), (16, 32)] = false ∨ (r.arg 0 1 = 0 ∧ 1 < r.arg 1 1 ∧ r.arg 1 1 ≠ 0xFF) then some 0x36
  else if r.body ≠ [] then some 0x37
  else none

/-- RESTORE with MODE 0, FULL (R433). -/
def execRestoreFull (ch : Nat) (s : State) : Out := act s fun s => s.perform ch (restoreSel 0) fun s r =>
  match r.restoreBad with
  | some st => s.complete ch r.seq st
  | none => match s.restoreBar with
    | some c => s.restoreEnd (some (ch, r.seq)) c
    | none =>
      if s.man.chestBytes = 0 then s.restoreEnd (some (ch, r.seq)) 2
      else match (if r.arg 1 1 = 0xFF then s.newest [0, 1] else some (r.arg 1 1)) with
        | none => s.restoreEnd (some (ch, r.seq)) 5
        | some g => s.restoreSlot (some (ch, r.seq)) g (r.arg 4 4) (r.arg 8 2)

/-- Asks the buddy for the directories of its slots 2 and 3, with which the fetch of R434 begins. -/
def State.askSlots (s : State) : State :=
  [2, 3].foldl (fun s slot =>
    let tag := s.nextTag % 65536
    let s1 := (s.flp (s.get HST_BUDDY.COORD) 0x18 (leBytes 6 (slot * 2 ^ 46) ++ leBytes 2 4096 ++ leBytes 2 tag ++ leBytes 2 0x43FD) []).getD s
    { s1 with nextTag := s.nextTag + 1, remote := s1.remote ++
      [{ tag := tag, issuer := 0x43FD, write := false, die := 16, addr := slot * 2 ^ 46, bytes := 4096, stamp := s.now }] }) s

/-- A fetch from the buddy's Chest begins: for a command, or for a takeover. Where no route leads to the buddy its reads end
with ADDRESS_ERROR at once (R320). -/
def State.spareBegin (s : State) (cmd : Option (Nat × Nat × Nat × Nat)) : State :=
  if s.reaches (s.get HST_BUDDY.COORD) then (s.modCkp (fun c => { c with restore := some cmd })).askSlots.put CKP_STATUS.PHASE 5
  else s.deskUnreach.restoreEnd (cmd.map (fun c => (c.1, c.2.1))) 5

/-- RESTORE with MODE 1, SPARE (R434). -/
def execRestoreSpare (ch : Nat) (s : State) : Out := act s fun s => s.perform ch (restoreSel 1) fun s r =>
  match r.restoreBad with
  | some st => s.complete ch r.seq st
  | none => match s.restoreBar with
    | some c => s.restoreEnd (some (ch, r.seq)) c
    | none => if s.on HST_BUDDY.VALID then s.spareBegin (some (ch, r.seq, r.arg 4 4, r.arg 8 2)) else s.restoreEnd (some (ch, r.seq)) 7

/-- The fetch is over: no read of it is outstanding any more. -/
def State.fetchOver (s : State) : State :=
  ({ s with remote := s.remote.filter (fun o => o.issuer != 0x43FD || o.write) } : State).modCkp (fun c => { c with restore := none }) |>.put CKP_STATUS.PHASE 0

/-- The answer of a read of the fetch: with every read turned away, the buddy holds no slot for this device. -/
def State.fetchAnswer (s : State) (op : RemoteOp) (code : Nat) : State :=
  let rest := s.remote.erase op
  if code = 0 then { s with remote := rest ++ [{ op with tile := 1 }] }
  else if rest.any (fun o => o.issuer == 0x43FD && !o.write) then { s with remote := rest }
  else match s.ckp.restore with
    | none => { s with remote := rest }
    | some cmd => s.fetchOver.restoreEnd (cmd.map (fun c => (c.1, c.2.1))) 5

/-- The buddy does not answer a drain or a fetch (Table 14.9, NO_BUDDY). -/
def State.buddySilent (s : State) (op : RemoteOp) : State :=
  if op.write then s.drainEnd
  else match s.ckp.restore with
    | none => { s with remote := s.remote.erase op }
    | some cmd => s.fetchOver.restoreEnd (cmd.map (fun c => (c.1, c.2.1))) 7

/-- SPARE_FETCH_DONE (R434): the buddy's slot, as fetched, goes into own slot 0, and the restore proceeds from it. With
no image loaded, the Chest is where the fetched manifest puts it (log 35). -/
def execSpareFetchDone (slot : List Byte) (s : State) : Out := act s fun s =>
  match s.ckp.restore with
  | none => s
  | some cmd =>
    let s0 := s.fetchOver
    let c2 := cmd.map (fun c => (c.1, c.2.1))
    let h := bytesNum 12 slot
    let sid := leAt slot (slot.length - 4096) 8
    let nums := bytesNum (leAt slot slotData 8) (slot.drop (slotData + 8))
    let m := (manifestOf (nums.drop 3)).1
    if slot.length < slotData + 4096 ∨ sid = 0 ∨ sid ≠ h.getD 0 0 then s0.restoreEnd c2 5
    else
      let s1 := match s0.resident with
        | some _ => s0
        | none => { s0 with resident := some { addr := nums.getD 0 0, id := nums.getD 1 0, length := nums.getD 2 0, man := m } }
      if chestSlot s1.man ≠ slot.length ∨ s1.shapeOk h m = false then s0.restoreEnd c2 6
      else match s1.wrA true (s1.slotAt 0) slot with
        | none => s0.restoreEnd c2 6
        | some s2 =>
          let (step, att) := match cmd with
            | some c => (c.2.2.1, c.2.2.2)
            | none => (h.getD 2 0, 0)
          (s2.genSync 0).restoreSlot c2 0 step att

/-! ## Rejoin (R435) -/

/-- Where the bytes of a Wardrobe address stand in a slot, if one of its Wardrobe parts covers them. -/
def State.inSlot (s : State) (g a n : Nat) : Option Nat :=
  let base := s.slotAt g
  ((List.range ((s.header base).getD 11 0)).findSome? (fun i =>
    let e := dirOf ((s.rdA true (base + 256 + 32 * i) 32).getD [])
    if e.kind = 5 ∧ e.src ≤ a ∧ a + n ≤ e.src + e.bytes then some (base + e.off + (a - e.src)) else none))

/-- Step 3: windows and EMA from the own generation of T, where one holds the bucket table. -/
def State.rejoinWindows (s : State) (t : Nat) : State :=
  let tab := s.get RED_BUCKET_TABLE.ADDR
  let n := s.get RED_BUCKET_TABLE.ENTRIES
  let gen := s.newest ([0, 1].filter (fun g => s.on (CKP_GEN.SEALED g) && s.get (CKP_GEN_CUT.T g) == t))
  match gen.bind (fun g => (s.inSlot g tab (32 * n)).map (fun a => (g, a))) with
  | some (g, a) =>
    let regs := (takeSec 2 (manifestOf ((s.slotNums (s.slotAt g)).drop 3)).2).1
    let ema := ((regs.find? (fun r => r.getD 0 0 == SBD_LOSS_EMA.reg)).map (fun r => r.getD 1 0)).getD 0
    ((List.range n).foldl (fun s i => s.wr! true (tab + 32 * i + 1)
      (leBytes 1 ((s.leA true (tab + 32 * i + 1) 1) / 2 * 2 + s.leA true (a + 32 * i + 1) 1 % 2) ++ leBytes 2 (s.leA true (a + 32 * i + 2) 2))) s).setWord
      SBD_LOSS_EMA.reg (BitVec.ofNat 64 ema)
  | none =>
    ((List.range n).foldl (fun s i => s.wr! true (tab + 32 * i + 1) (leBytes 1 ((s.leA true (tab + 32 * i + 1) 1) / 2 * 2))) s).setF RAS_EVENT.NONREPRO

/-- Step 2: queues, sync contexts, windows, credits, staging areas and vote state. -/
def State.rejoinDrop (s : State) : State :=
  let mask := s.man.queueMask
  let s1 := (List.range 64).foldl (fun s q => if bit mask q then s.doFlush q else s) (s.flushRequest mask)
  let cs := s1.ctxOf 1
  (((s1.wipeCells cs).endSlots (s1.slotsOn (s1.inCtx cs)) 4).closeAll).voteDrop

/-- Steps 2 to 4. -/
def State.rejoin (s : State) (t step att : Nat) : State := (s.rejoinDrop.rejoinWindows t).enterAttempt step att

/-- RESTORE with MODE 2, REJOIN (R435). A rollback's refresh ends the command at REFRESH_DONE. -/
def execRestoreRejoin (ch : Nat) (s : State) : Out := act s fun s => s.perform ch (restoreSel 2) fun s r =>
  match r.restoreBad with
  | some st => s.complete ch r.seq st
  | none =>
    let t := r.arg 12 4
    let act_ := s.get SBD_BANK.ACTIVE
    if !(s.on FAB_STATUS.IDLE) || s.get SBD_STATUS.STATE == 5 then s.restoreEnd (some (ch, r.seq)) 4
    else if s.get (SBD_BANK_T.T act_) = t then (s.rejoin t (r.arg 4 4) (r.arg 8 2)).restoreEnd (some (ch, r.seq)) 0
    else if s.get (SBD_BANK_T.T (1 - act_)) = t ∧ s.on SBD_BANK.ROLLED = false then
      let s1 := ((s.put SBD_BANK.ACTIVE (1 - act_)).setF SBD_BANK.ROLLED).rejoin t (r.arg 4 4) (r.arg 8 2)
      (s1.put SBD_STATUS.STATE 5).modCkp (fun c => { c with rejoin := some (ch, r.seq) })
    else s.restoreEnd (some (ch, r.seq)) 8

end Sys2Proof.Machine
end

