-- ==== Sys2Proof/Machine/Host.lean ====
section
/-! DEFINITION. Ethernet ports, command copies, the channels' own commands, RUN, ABORT, LOAD and QUEUE_PUSH, the mirror
and the takeover (chapter 13; R237, R270, R378). -/

namespace Sys2Proof.Machine

/-! ## Ports going UP and DOWN (R364, R366) -/

/-- ETH_PORT_UP (R363, R364): MODE as it stands now is the mode of this link-up. -/
def execEthPortUp (e : Nat) (s : State) : Out := act s fun s =>
  if e < 8 ∧ s.get (PWR_FN_CTRL.STATUS (144 + e)) = 2 ∧ s.ethUp e = false then
    (((s.put (HST_PORT_STATUS.STATE e) 2).netBits).modHst (fun h => { h with modes := SMap.set h.modes 1 e (s.get (HST_PORT_CFG.MODE e)) })).announce e
  else s

/-- ETH_PORT_DOWN. -/
def execEthPortDown (e : Nat) (s : State) : Out := act s fun s => if e < 8 ∧ s.ethUp e = true then s.ethLeave e 3 else s

/-! ## Command copies (R369 to R376) -/

/-- Whether a payload is a BCT command that passes R369. Table 13.1 gives STATUS and STAMP of a command as zero; both are
taken as reserved there (log 36, DEDUCED). -/
def bctOk (l : List Byte) : Bool :=
  decide (96 ≤ l.length) && leAt l 0 2 == 0x4342 && leAt l 2 2 == 1 && decide (leAt l 4 2 < 1024) && decide (leAt l 7 1 < 4) &&
    leAt l 12 2 == l.length - 96 && leAt l 14 2 == 0 && leAt l 0x28 8 == 0

/-- A copy's DONE_UPTO and EVENT_UPTO (R375). -/
def State.applyUpto (s : State) (ch done ev : Nat) : State :=
  let c := s.chan ch
  let retire := max c.retire (min done c.nextDone)
  let ack := max c.evAck (min ev c.evNext)
  if retire = c.retire ∧ ack = c.evAck then s
  else ((s.setChan ch { c with retire := retire, evAck := ack, evs := c.evs.filter (fun e => decide (ack ≤ e.num)) }).reap).mirrorChan ch

/-- Bytes of a command's record, with the room its completion body needs (R390, R391). -/
def recLen (l : List Byte) : Nat :=
  let op := leAt l 6 1
  let room := if op = 0x18 then leAt l (0x30 + 8) 2 else if op = 0x38 then 0x180 else 0
  (64 + l.length + room + 63) / 64 * 64

/-- Sequence numbers accepted in a row move NEXT_SEQ (R376). -/
def slide : Nat → Nat → List Nat → Nat × List Nat
  | 0, n, w => (n, w)
  | f + 1, n, w => if w.contains n then slide f (n + 1) (w.erase n) else (n, w)

/-- A sequence number takes its place in a rising list. -/
def insertSeq (x : Nat) : List Nat → List Nat
  | [] => [x]
  | y :: t => if x < y then x :: y :: t else y :: insertSeq x t

/-- A copy is accepted: its record at an offset, NEXT_SEQ and WINDOW, and its answer (R376, R390, R392, R394). -/
def State.acceptCopy (s : State) (cp : Copy) (off : Nat) : State :=
  let l := cp.payload
  let ch := leAt l 4 2
  let seq := leAt l 16 8
  let c := s.chan ch
  let (n, w) := slide 257 c.nextSeq (insertSeq seq c.window)
  let r : JRec := { off := off, len := recLen l, st := 1, net := netOf cp.port, port := cp.port, ch := ch, seq := seq, hdr := l.take 96, body := l.drop 96,
                    stampA := s.compact, peer := cp.peer }
  let s1 := ((s.setChan ch { c with nextSeq := n, window := w }).modHst (fun h => { h with recs := h.recs ++ [r] })).logPtrs (off + r.len)
  let s2 := s1.mirrorRec ch seq
  if s2.get HST_STATUS.MIRROR = 1 then s2.ack cp 1 else s2.modHst (fun h => { h with heldAcks := h.heldAcks ++ [(ch, seq, cp)] })

/-- A copy of a command already accepted (R370, R376). -/
def State.duplicate (s : State) (cp : Copy) : State :=
  let ch := leAt cp.payload 4 2
  let seq := leAt cp.payload 16 8
  if s.hst.heldAcks.any (fun x => x.1 == ch && x.2.1 == seq) then s.modHst (fun h => { h with heldAcks := h.heldAcks ++ [(ch, seq, cp)] })
  else
    let s1 := s.ack cp 2
    match s1.rec? ch seq, s1.portFor cp.port with
    | some r, some e => if r.st = 3 ∧ r.sent = true then s1.sendBct e cp.peer (s1.complPacket r (netOf e) true) else s1
    | _, _ => s1

/-- A copy that passes R369 is judged (R373, R375, R376, R398). -/
def State.judgeCopy (s : State) (cp : Copy) : State :=
  let l := cp.payload
  let ch := leAt l 4 2
  let seq := leAt l 16 8
  let c := s.chan ch
  if !(s.on WRD_STATUS.IN_SERVICE) then s.ack cp 7
  else if !s.bctOn then s
  else if !c.isOpen || c.session != leAt l 8 4 then s.ack cp 6
  else
    let s1 := s.applyUpto ch (leAt l 0x18 8) (leAt l 0x20 8)
    let c1 := s1.chan ch
    if seq < c1.retire then s1.ack cp 3
    else if seq < c1.nextSeq ∨ c1.window.contains seq = true then s1.duplicate cp
    else if c1.nextSeq + 256 ≤ seq then (s1.incSat HST_DROPS.WINDOW).ack cp 4
    else match placeRec s1.hst.recs.isEmpty (s1.get HST_JOURNAL.HEAD) (s1.get HST_JOURNAL.TAIL) (recLen l) with
      | none => ((s1.incSat HST_DROPS.BUSY).setF HST_EVENT.JOURNAL_FULL).ack cp 5
      | some off => s1.acceptCopy cp off

/-- COMMAND_COPY (R369, R376): a frame that a port has passed to BCT. A warm reset discards it (R445). -/
def execCommandCopy (cp : Copy) (s : State) : Out := act s fun s =>
  let s1 := s.modHst (fun h => { h with rxBct := h.rxBct.erase cp })
  if cp.port ≥ 8 then s
  else if s.sec.warming then s1
  else if bctOk cp.payload then s1.judgeCopy cp
  else (s1.incSat HST_DROPS.MALFORMED).setF HST_EVENT.MALFORMED

/-! ## The mirror (R394, R395) -/

/-- MIRROR_WRITE_DONE (R393): every packet of the oldest mirror write of a command has been answered. -/
def execMirrorWriteDone (ch seq : Nat) (s : State) : Out := act s fun s =>
  match s.hst.mirrorAt.find? (fun (m : Nat × Nat × Nat) => m.1 == ch && m.2.1 == seq) with
  | none => s
  | some m =>
    let s1 := s.modHst (fun h => { h with mirrorAt := h.mirrorAt.erase m })
    if s.remote.any (fun o => o.issuer == 0x43FE && o.chan == some (ch, seq) && o.stamp == m.2.2) then s
    else if s1.hst.mirrorAt.any (fun (x : Nat × Nat × Nat) => x.1 == ch && x.2.1 == seq) then s1
    else
      let s2 := (s1.modRec ch seq (fun r => { r with mirrored := true })).releaseAcks (fun a b => a == ch && b == seq) 0
      State.flushDone (s2.hst.recs.length + 1) s2 ch

/-- MIRROR_TIMEOUT: a mirror write has waited for TIMEOUT. -/
def execMirrorTimeout (s : State) : Out := act s fun s =>
  let old := fun (t : Nat) => decide (t + s.get HST_MIRROR_CTRL.TIMEOUT ≤ s.now)
  if s.get HST_STATUS.MIRROR ≠ 1 ∧ (s.hst.mirrorAt.any (fun (m : Nat × Nat × Nat) => old m.2.2) ||
      s.remote.any (fun o => o.issuer == 0x43FE && o.write && old o.stamp)) = true then s.soloFlush
  else s

/-- A re-mirror begins: control block, channel table and log go to the buddy (R395). Where no route leads to it the device goes
SOLO (R320, R394). -/
def State.remirror (s : State) : State :=
  if s.reaches (s.get HST_BUDDY.COORD) = false then s.deskUnreach.soloFlush
  else
  let s1 := ((s.put HST_STATUS.MIRROR 2).modHst (fun h => { h with mirrorAt := [], recs := h.recs.map (fun r => { r with mirrored := true }) })).modCkp
    (fun c => { c with again := true })
  let s2 := { s1 with remote := s1.remote.filter (fun o => o.issuer != 0x43FE || !o.write) }
  let table := ((List.range 1024).map (fun c => (s2.chan c).bytes)).flatten
  let s3 := s2.mirrorSend 33 none 0x1000 table
  (s3.hst.recs.foldl (fun s r => s.mirrorSend 5 none r.off r.bytes) (s3.mirrorSend 1 none 0 s3.ctlBytes)).flushAll

/-- A write of HST_BUDDY (R394, R395, R428). -/
def State.buddyWrite (s : State) (v : Word) : State :=
  let s1 := (s.put HST_BUDDY.VALID (fget v 63 63)).put HST_BUDDY.COORD (fget v 14 0)
  if s1.on HST_BUDDY.VALID then s1.remirror else s1.soloFlush

/-- BUDDY_WRITE. -/
def execBuddyWrite (_iss : Issuer) (v : Word) (s : State) : Out := act s fun s => s.buddyWrite v

/-- REMIRROR_DONE (R395): the copy and the writes that followed it have all been answered, so what was accepted meanwhile is
mirrored. -/
def execRemirrorDone (s : State) : Out := act s fun s =>
  if s.get HST_STATUS.MIRROR = 2 ∧ s.remote.any (fun o => o.issuer == 0x43FE && o.write) = false then
    ((s.put HST_STATUS.MIRROR 0).releaseAcks (fun _ _ => true) 0).flushAll
  else s

/-! ## Channels (R372, R374, R380) -/

/-- The opcodes of Table 13.4. -/
def bctOps : List Nat := [0x00, 0x01, 0x02, 0x10, 0x11, 0x12, 0x18, 0x19, 0x20, 0x28, 0x30, 0x31, 0x38, 0x39]

/-- BCT_NOP. -/
def execBctNop (ch : Nat) (s : State) : Out := act s fun s => s.perform ch (fun r => r.op == 0) fun s r =>
  s.orReject r (r.zeros [(0, 48)]) (r.body == []) (s.complete ch r.seq 0)

/-- BCT_RESERVED_OPCODE (R380). -/
def execBctReservedOpcode (ch : Nat) (s : State) : Out := act s fun s => s.perform ch (fun r => !(bctOps.contains r.op)) fun s r => s.complete ch r.seq 0x35

/-- CH_OPEN (R374). -/
def execChOpen (ch : Nat) (s : State) : Out := act s fun s => s.perform ch (fun r => r.op == 1) fun s r =>
  let c := r.arg 0 2
  let n := r.arg 0x10 8
  s.orReject r (r.zeros [(3, 1), (6, 2), (12, 4), (0x18, 24)] && decide (r.arg 2 1 < 4) && ch == 0 && decide (0 < c) && decide (c < 1024) && !((s.chan c).isOpen))
    (r.body.length == 32)
    (((s.setChan c { isOpen := true, ipv6 := bit (r.arg 2 1) 0, events := bit (r.arg 2 1) 1, hostUdp := r.arg 4 2, session := r.arg 8 4,
                     addrA := r.body.take 16, addrB := r.body.drop 16, nextSeq := n, nextStart := n, nextDone := n, retire := n }).countOpen.mirrorChan c).complete
      ch r.seq 0)

/-- Commands of a channel that have not started complete with CLOSED, in sequence order (R374). -/
def State.closeUnstarted : Nat → State → Nat → State
  | 0, s, _ => s
  | f + 1, s, c =>
    match (s.hst.recs.filter (fun r => r.ch == c && r.st == 1)).foldl
      (fun (b : Option Nat) r => match b with
        | none => some r.seq
        | some x => some (min x r.seq)) none with
    | none => s
    | some q => State.closeUnstarted f (s.complete c q 0x3D) c

/-- CH_CLOSE (R374). -/
def execChClose (ch : Nat) (s : State) : Out := act s fun s => s.perform ch (fun r => r.op == 2) fun s r =>
  let c := r.arg 0 2
  s.orReject r (r.zeros [(2, 46)] && ch == 0 && decide (0 < c) && decide (c < 1024) && (s.chan c).isOpen) (r.body == [])
    (State.closeUnstarted (s.hst.recs.length + 1) (s.modChan c (fun x => { x with closing := some (ch, r.seq) })) c)

/-- CH_CLOSE_FINISH (R374): with every command of the channel completed and mirrored, the channel closes. -/
def execChCloseFinish (c : Nat) (s : State) : Out := act s fun s =>
  match (s.chan c).closing with
  | none => s
  | some cmd =>
    let s1 := State.closeUnstarted (s.hst.recs.length + 1) s c
    if s1.hst.recs.all (fun r => r.ch != c || (r.st == 3 && r.mirrored)) then
      let rest := s1.hst.recs.filter (fun r => r.ch == c && !r.sent)
      let s2 := rest.foldl (fun s r => s.sendCompl r) s1
      let s3 := s2.modChan c (fun x => { x with isOpen := false, closing := none, evs := [] })
      let s4 := ((s3.modHst (fun h => { h with recs := h.recs.filter (fun r => r.ch != c) })).logPtrs (s3.get HST_JOURNAL.TAIL)).countOpen
      (s4.mirrorChan c).complete cmd.1 cmd.2 0
    else s1

/-- A write of 1 to HST_CH0_CFG.OPEN (R372, R373). -/
def State.openCh0 (s : State) (iss : Issuer) : State :=
  if s.on WRD_STATUS.IN_SERVICE && !((s.chan 0).isOpen) then
    let b := fun (i : Nat) => leBytes 8 (s.word (HST_CH0_ADDR.reg i)).toNat
    ((s.setChan 0 { isOpen := true, ipv6 := s.on HST_CH0_CFG.IPV6, events := s.on HST_CH0_CFG.EVENTS, hostUdp := s.get HST_CH0_CFG.HOST_UDP,
                    session := s.get HST_CH0_CFG.SESSION, addrA := b 0 ++ b 1, addrB := b 2 ++ b 3 }).setF HST_CH0_CFG.OPEN).countOpen.mirrorChan 0
  else s.regRefusal iss HST_CH0_CFG.reg

/-- CH0_OPEN. -/
def execCh0Open (iss : Issuer) (s : State) : Out := act s fun s => s.openCh0 iss

/-- EVENT_RESEND (R387): the events of a channel that have waited for RESEND since they were last sent. -/
def execEventResend (ch : Nat) (s : State) : Out := act s fun s =>
  let c := s.chan ch
  let due := fun (e : EventOut) => decide (e.sent + s.get HST_EVENT_CTRL.RESEND ≤ s.now)
  if c.isOpen = true ∧ s.bctOn = true then
    (c.evs.filter due).foldl (fun s e => s.emitEvent ch true e)
      (s.setChan ch { c with evs := c.evs.map (fun e => if due e then { e with sent := s.now } else e) })
  else s

/-! ## RUN, ABORT, LOAD and QUEUE_PUSH (R378, R381, R383, R384) -/

/-- What keeps a RUN waiting: an update's end, a swap into D2 before the step's vote, a self-test, a RUN that waits for a drained boundary, a full load, which is
performed while the fabric is idle, or a staged load of its drawer (R33, R69, R70, R74, R81, R262, R418). -/
def State.runWaits (s : State) (drawer : Nat) : Bool :=
  s.sbdHolds drawer || s.ras.testRunning || s.fab.next.isSome ||
    s.load.any (fun l => !l.staged || drawer == 3)

/-- The RUN at the head of a channel, where it may start (R378). -/
def State.runReady (s : State) (ch : Nat) : Bool :=
  (s.headRec ch).any (fun r => r.op == 0x10 && s.mayStart ch r && !(s.runWaits (r.arg 0 1)))

/-- Whether it is a channel's turn to start a RUN: round-robin in ascending order after the one that started last. -/
def State.runTurn (s : State) (ch : Nat) : Bool :=
  let from_ := (s.hst.rrLast.map (· + 1)).getD 0
  (s.hst.chans.map (fun x => x.1)).all (fun c => !(s.runReady c) || decide ((ch + 1024 - from_ % 1024) % 1024 ≤ (c + 1024 - from_ % 1024) % 1024))

/-- The first check that a RUN fails (Table 08.4, R270). -/
def State.runCheck (s : State) (r : Run) : Option Nat :=
  match s.owner r.drawer with
  | none => some 0x20
  | some im =>
    let ms := s.members r.drawer
    let badQ := ms.any (fun m => (List.range m.2.queueBinds).any (fun i =>
      m.2.qRole i != 0 && (!(s.on (QUE_Q_CFG.EN (m.2.qQueue i))) || (m.2.qRole i == 2 && s.get (QUE_Q_CFG.SOURCE (m.2.qQueue i)) != 0))))
    let badKv := ms.any (fun m => (List.range 8).any (fun n => bit r.kvMask n &&
      (decide (2 ^ 48 ≤ m.2.aInit n % 2 ^ 48 + r.pos * r.kvStride) || aSpace (m.2.aInit n) == 2)))
    if im.unfit then some 0x21
    else if im.man.maxMb < r.tokens then some 0x22
    else if badQ then some 0x23
    else if (r.kind ≠ 3 ∧ r.kvMask ≠ 0) ∨ (r.kind = 3 ∧ badKv = true) then some 0x24
    else none

/-- The RUN that a command names (Table 13.4). -/
def State.runOf (s : State) (r : JRec) : Run :=
  { drawer := r.arg 0 1, kind := s.get (FAB_DRAWER.KIND (r.arg 0 1)), accStart := bit (r.arg 1 1) 0, accDrain := bit (r.arg 1 1) 1, step := r.arg 4 4,
    mb := r.arg 8 4, tokens := r.arg 0xC 4, pos := r.arg 0x10 4, kvMask := r.arg 2 1, kvStride := r.arg 0x14 4, chan := r.ch, seq := r.seq }

/-- RUN (R74, R237, R270, R378, R381). -/
def execRun (ch : Nat) (s : State) : Out := act s fun s =>
  let go := fun (s : State) (r : JRec) =>
    let x := s.runOf r
    s.orReject r (r.zeros [(3, 1), (0x18, 24)] && decide (r.arg 0 1 < 4) && decide (r.arg 1 1 < 4) && r.arg 0x14 4 % 64 == 0) (r.body == [])
      (match s.runCheck x with
       | some code => s.complete ch r.seq code
       | none => s.startRun x)
  if s.hst.recs.any (fun r => r.ch == ch && r.st == 2 && !r.begun && r.mirrored && r.op == 0x10 && !(s.runWaits (r.arg 0 1))) then
    s.perform ch (fun r => r.op == 0x10) go
  else if s.runReady ch && s.runTurn ch then
    (s.modHst (fun h => { h with rrLast := some ch })).perform ch (fun r => r.op == 0x10 && r.st == 1) go
  else s

/-- BCT_ABORT (R83, R384). -/
def execBctAbort (ch : Nat) (s : State) : Out := act s fun s => s.perform ch (fun r => r.op == 0x11) fun s r =>
  s.orReject r (r.zeros [(0, 48)]) (r.body == [])
    (let s1 := s.doAbort
     if s1.fab.aborting then s1.modFab (fun f => { f with abortChan := f.abortChan ++ [(ch, r.seq)] }) else s1.complete ch r.seq 0)

/-- BCT_LOAD (R384). -/
def execBctLoad (ch : Nat) (s : State) : Out := act s fun s => s.perform ch (fun r => r.op == 0x12) fun s r =>
  s.orReject r (r.zeros [(9, 39)] && decide (r.arg 8 1 < 2)) (r.body == []) (s.startLoad (r.arg 8 1 == 1) (r.arg 0 8) (some (ch, r.seq)))

/-- QUEUE_PUSH (R383). -/
def execQueuePush (ch : Nat) (s : State) : Out := act s fun s => s.perform ch (fun r => r.op == 0x20) fun s r =>
  s.orReject r (r.zeros [(2, 2), (16, 32)] && decide (r.arg 0 1 < 64) && decide (r.arg 1 1 < 2)) (r.body.length % 64 == 0 && decide (r.body.length ≤ s.bodyMax))
    ((s.modHst (fun h => { h with pushes := h.pushes ++ [(ch, r.seq, r.arg 0 1)] })).openArrive (r.arg 0 1) (.bct ch)
      { words := r.body.length / 64, isEnd := r.arg 1 1 == 1, step := r.arg 4 4, mb := r.arg 8 4, tokens := r.arg 0xC 4 } r.body)

/-! ## Takeover (R398) -/

/-- Asks the buddy for bytes of its mirror region. -/
def State.askMirror (s : State) (off n : Nat) : State :=
  if n = 0 then s
  else if s.reaches (s.get HST_BUDDY.COORD) = false then s.deskUnreach
  else
  let tag := s.nextTag % 65536
  let s1 := (s.flp (s.get HST_BUDDY.COORD) 0x18 (leBytes 6 off ++ leBytes 2 n ++ leBytes 2 tag ++ leBytes 2 0x43FE) []).getD s
  { s1 with nextTag := s.nextTag + 1, remote := s1.remote ++
    [{ tag := tag, issuer := 0x43FE, write := false, die := 16, addr := off, bytes := n, stamp := s.now }] }

/-- Asks for a range of the mirror region, 4,096 bytes at a time. -/
def State.askRange : Nat → State → Nat → Nat → State
  | 0, s, _, _ => s
  | f + 1, s, lo, hi => if hi ≤ lo then s else State.askRange f (s.askMirror lo (min 4096 (hi - lo))) (lo + 4096) hi

/-- The control block has come: the channel table image and the log from HEAD to TAIL are read next (Table 13.8 step 2). -/
def State.askLog (s : State) (head tail : Nat) : State :=
  let s1 := State.askRange 33 s 0x1000 logBase
  if head ≤ tail then State.askRange 65537 s1 head tail
  else State.askRange 65537 (State.askRange 65537 s1 head logEnd) logBase tail

/-- A write of 1 to HST_TAKEOVER.GO (R398, R458): it needs the Wardrobe in service and no takeover in progress. The fetch
begins with the control block. -/
def State.takeover (s : State) : State :=
  if s.bctOn then
    let s1 := (s.put HST_TAKEOVER.STATE 1).put MGT_ROLE.ROLE 1
    ((List.range 8).foldl (fun s e => s.fnEnable (144 + e)) s1).askMirror 0 4096
  else s

/-- TAKEOVER_GO. -/
def execTakeoverGo (_iss : Issuer) (s : State) : Out := act s fun s => s.takeover

/-- The records of a log from an offset to TAIL; `log` begins at offset 0x2_1000. -/
def logRecs (log : List Byte) : Nat → Nat → Nat → List JRec
  | 0, _, _ => []
  | f + 1, off, tail =>
    if off = tail then []
    else
      let l := log.drop (off - logBase)
      let n := leAt l 0 4
      if n < 160 ∨ logEnd < off + n then (if off = logBase then [] else logRecs log f logBase tail)
      else recOf off (l.take n) :: logRecs log f (off + n) tail

/-- TAKEOVER_FETCH_DONE (Table 13.8 steps 2 to 6): every read of the fetch has been answered, the fetched table and log are written, what had started is marked, the
re-mirror begins, and the fetch of the Chest slot follows. -/
def execTakeoverFetchDone (table log : List Byte) (head tail : Nat) (s : State) : Out := act s fun s =>
  if s.get HST_TAKEOVER.STATE = 1 ∧ s.remote.any (fun o => o.issuer == 0x43FE && !o.write) = false then
    let chans := (List.range 1024).filterMap (fun c =>
      let x := chanOf ((table.drop (128 * c)).take 128)
      if x.isOpen then some (c, x) else none)
    let keep := fun (r : JRec) => (chans.find? (fun (x : Nat × Chan) => x.1 == r.ch)).any (fun x => decide (x.2.retire ≤ r.seq))
    let roll := fun (r : JRec) => if r.st = 2 ∨ (r.st = 1 ∧ r.op = 0x10) then { r with st := 3, status := 0x3B, stampE := s.compact } else r
    let recs := ((logRecs log (log.length / 64 + 2) head tail).filter keep).map roll
    let s1 := s.modHst (fun h => { h with
      chans := chans, recs := recs, heldAcks := [], pushes := [], mirrorAt := [] })
    let s2 := (chans.foldl (fun s (x : Nat × Chan) => State.advance (2 * recs.length + 1) s x.1) s1).logPtrs tail
    let s3 := (s2.countOpen.put HST_CH0_CFG.OPEN (b2n (s2.chan 0).isOpen)).remirror
    let s4 := s3.put HST_TAKEOVER.STATE 2
    if s4.on HST_BUDDY.VALID then s4.spareBegin none else s4
  else s

/-- TAKEOVER_RESTORE_DONE (Table 13.8 steps 7 and 8). -/
def execTakeoverRestoreDone (s : State) : Out := act s fun s =>
  if s.get HST_TAKEOVER.STATE = 2 ∧ s.ckp.restore.isNone = true then
    let s1 := ((List.range 8).filter (fun e => s.ethUp e)).foldl (fun s e => s.announce e) s
    let s2 := ((s1.put HST_TAKEOVER.STATE 3).setF HST_EVENT.TAKEOVER_DONE).modHst (fun h => { h with rrLast := none })
    let s3 := s2.event 3 (leBytes 8 (s2.word GLB_SERIAL.reg).toNat) []
    let s4 := s3.flushAll
    s4.hst.recs.foldl (fun s r => if r.st = 3 ∧ r.sent = false then s.sendCompl r else s) s4
  else s

end Sys2Proof.Machine
end

