-- ==== Sys2Proof/Machine/Ras.lean ====
section
/-! DEFINITION. Error records on their way to the log, storms, self-test and the replay verdict (chapter 14, R400 to
R419). -/

namespace Sys2Proof.Machine

/-! ## Records and events -/

/-- ERROR_EVENT (R403), with what its class says that the event does (Table 14.2). -/
def execErrorEvent (ev : ErrEvent) (s : State) : Out := act s fun s =>
  if 1 ≤ ev.cls ∧ ev.cls ≤ 6 ∧ ev.unit / 4096 ≤ 11 ∧ ev.unit < 65536 then
    let s1 := s.raise (((s.runFor ev.unit).map Run.tag).getD 0) ev
    if ev.cls = 2 then s1.contribute fNonfinite
    else if ev.cls = 3 then s1.suspect ev.unit (((s.runFor ev.unit).bind (fun r => r.index)).getD 0) (s1.heldSeq ev.unit)
    else if ev.cls = 4 then s1.contribute fRepeat
    else if ev.cls = 6 then s1.replace
    else s1
  else s

/-! ## The Desk error queue (R404 to R408) -/

/-- RAS_STATUS.ERRQ_DEPTH follows the queue. -/
def State.errDepth (s : State) : State := s.put RAS_STATUS.ERRQ_DEPTH (s.ras.queue.length + b2n s.ras.storm.isSome)

/-- A record has entered the queue: the alert of its class (MGT_ALERT.RECORD). -/
def State.queued (s : State) (r : Rec) : State :=
  (if s.get MGT_ALERT_EN.MIN_CLASS ≤ r.cls then s.alert MGT_ALERT.RECORD else s).errDepth

/-- LATCH_FORWARD (R404): the latch of the lowest unit ID forwards. A storm begins where another cannot forward any more
(R405). -/
def execLatchForward (s : State) : Out := act s fun s =>
  match s.ras.latches with
  | [] => s
  | (u, r) :: _ =>
    if s.errRoom && !(s.on RAS_STATUS.STORM) then
      let s1 := (s.modRas (fun x => { x with latches := SMap.erase x.latches u, queue := x.queue ++ [r] })).queued r
      if s1.errRoom || s1.ras.latches.isEmpty then s1 else s1.stormStart
    else s

/-- DETAIL of a storm record (R406). -/
def stormDetail (events mask latches len : Nat) : Nat :=
  min (2 ^ 64 - 1) events + mask * 2 ^ 64 + min 65535 latches * 2 ^ 80 + min (2 ^ 32 - 1) len * 2 ^ 96

/-- A storm ends: its record takes the kept slot, or is merged into the one there (R405, R406). -/
def State.stormEnd (s : State) : State :=
  let x := s.ras
  let len := s.now - x.stormAt
  let s1 := match x.storm with
    | none =>
      let r : Rec := { s.newRec 0 { unit := 0x8FFE, cls := 7, reason := 0x0D00, ctx := 0, detail := stormDetail x.stormEv x.stormCls x.stormLatches.length len } with
        stamp := x.stormAt }
      (s.modRas (fun y => { y with storm := some r, nextSeq := y.nextSeq + 1 })).queued r
    | some r =>
      let d := r.detail
      s.modRas (fun y => { y with storm := some { r with
        count := min 0xFFFF (r.count + 1)
        detail := stormDetail (d % 2 ^ 64 + x.stormEv) (bits d 64 16 ||| x.stormCls) (bits d 80 16 + x.stormLatches.length) (bits d 96 32 + len) } })
  s1.clrF RAS_STATUS.STORM

/-- The record that Desk firmware takes next: the oldest ordinary one, then the storm record (log 37), and the queue
without it. -/
def Ras.take (x : Ras) : Option (Rec × Ras) :=
  match x.queue with
  | r :: t => some (r, { x with queue := t })
  | [] => x.storm.map (fun r => (r, { x with storm := none }))

/-- ERROR_RECORD_REMOVE (R388, R404, R405, R408). -/
def execErrorRecordRemove (s : State) : Out := act s fun s =>
  match s.ras.take with
  | none => s
  | some (r, x) =>
    let n := s.get RAS_LOG_PTR.NEXT
    let s1 := ({ s with ras := { x with log := SMap.insert (if 6291456 ≤ n then SMap.erase x.log (n - 6291456) else x.log) n r } } : State).put RAS_LOG_PTR.NEXT (n + 1)
    let s2 := if s1.on RAS_STATUS.STORM && s1.errRoom then s1.stormEnd else s1
    let s3 := s2.errDepth
    if s3.on HST_EVENT_CTRL.RECORDS then s3.event 2 [] r.bytes else s3

/-- A write of RAS_LOG_SEL (R408). -/
def State.logSel (s : State) (k : Nat) : State :=
  let s1 := s.put RAS_LOG_SEL.RECORD k
  match SMap.find? s.ras.log (k % 2 ^ 48) with
  | some r => (s1.clrF RAS_LOG_SEL.MISS).setWindowRegs RAS_LOG_REC.reg r.bytes
  | none => (s1.setF RAS_LOG_SEL.MISS).setWindowRegs RAS_LOG_REC.reg (List.replicate 64 0)

/-- RAS_LOG_SEL_WRITE. -/
def execRasLogSelWrite (_iss : Issuer) (k : Nat) (s : State) : Out := act s fun s => s.logSel k

/-! ## The verdict of a replay (R415, R419) -/

/-- Whether a unit can be fenced (R419). -/
def fenceable (unit : Nat) : Bool := if unit / 4096 ≤ 1 then decide (unit % 4096 < 1056) else unit / 4096 == 3 && decide (unit % 4096 < 48)

/-- Requests a unit's fence (R419). -/
def State.fenceUnit (s : State) (unit : Nat) : State :=
  let i := unit % 4096
  if unit / 4096 ≤ 1 then s.fenceReq (i / 33) (2 ^ (i % 33)) else s.fencePort i

/-- A write of RAS_REPLAY_VERDICT (R415); the second one of a round is not performed (R483). -/
def State.verdict (s : State) (iss : Issuer) (v first : Nat) : State :=
  if s.red.waitRevote && !s.ras.judged && decide (1 ≤ v) && decide (v ≤ 3) then
    let s0 := s.modRas (fun r => { r with judged := true })
    if v = 1 then s0.doRevote false
    else if v = 3 then s0.doRevote true
    else
      let units := (((List.range (s.get RAS_STATUS.SUSPECT_COUNT)).filter (fun k => decide (s.get (RAS_SUSPECT.RUN k) ≤ first))).map
        (fun k => s.get (RAS_SUSPECT.UNIT k))).eraseDups
      let fs := units.filter fenceable
      let s1 := s0.setF RAS_EVENT.REPLAY_MISMATCH
      let s2 := if fs.isEmpty then
          (s1.raise deskTag { unit := unitId 8 0xFFF, cls := 6, reason := 0x0D04, ctx := 0, detail := 0xFFFF }).replace
        else fs.foldl (fun s u => s.fenceUnit u) s1
      s2.doRevote true
  else if s.ras.judged && decide (1 ≤ v) && decide (v ≤ 3) then s.regRefusal iss RAS_REPLAY_VERDICT.reg
  else s

/-- REPLAY_VERDICT. -/
def execReplayVerdict (iss : Issuer) (verdict firstRun : Nat) (s : State) : Out := act s fun s => s.verdict iss verdict firstRun

/-! ## Self-test (R417, R418) -/

/-- A self-test is wanted at the next idle moment. -/
def State.wantTest (s : State) : State := s.modRas (fun r => { r with testWanted := true })

/-- SELFTEST_GO. -/
def execSelftestGo (_iss : Issuer) (s : State) : Out := act s fun s => s.wantTest

/-- SELFTEST_PERIOD_EXPIRE; a period of 0 never expires. -/
def execSelftestPeriodExpire (s : State) : Out := act s fun s => if s.on RAS_CTRL.SELFTEST_PERIOD then s.wantTest else s

/-- SELFTEST_RUN: at the next moment the fabric is idle. -/
def execSelftestRun (s : State) : Out := act s fun s =>
  if s.ras.testWanted && s.on FAB_STATUS.IDLE && !s.ras.testRunning then
    (s.modRas (fun r => { r with testWanted := false, testRunning := true })).setF RAS_STATUS.SELFTEST_BUSY
  else s

/-- A Bench has failed its self-test. -/
def State.testFailed (s : State) (p : Nat) : State :=
  let e : ErrEvent := { unit := unitId 0 p, cls := 5, reason := 0x0D02, ctx := 0, detail := (s.tileAt p).getD 0 + 7 * 2 ^ 16 }
  let s1 := (((s.put RAS_SELFTEST.LAST_FAIL p).setF RAS_EVENT.SELFTEST_FAIL).raise bgTag e).fenceReq (p / 33) (2 ^ (p % 33))
  if s1.red.runNext ≠ 0 ∧ s1.red.voted = false then s1.suspect e.unit (s1.red.runNext - 1) (s1.heldSeq e.unit) else s1

/-- SELFTEST_DONE: `failed` are the in-service Benches whose signature differs. Outside a run of the test they are spare
Benches that hold no logical tile, which are tested at any time. -/
def execSelftestDone (failed : List Nat) (s : State) : Out := act s fun s =>
  (failed.filter (fun p => s.inServ p && (s.ras.testRunning || (s.tileAt p).isNone))).foldl (fun s p => s.testFailed p)
    ((s.modRas (fun r => { r with testRunning := false })).clrF RAS_STATUS.SELFTEST_BUSY)

end Sys2Proof.Machine
end

