-- ==== Sys2Proof/Machine/Sec.lean ====
section
/-! DEFINITION. Start-up, Desk firmware, cold and warm reset, authorization, quotes, CCCs and management registers
(chapter 15, R437 to R458; R191, R236, R265, R362, R396, R422 and R432 for a warm reset). -/

namespace Sys2Proof.Machine

/-! ## Keys (R437 to R440) -/

/-- The entry in force of a key family, of programmed bits `p` and revoked bits `r` (R438); 0xFF none. -/
def entryOf (p r f : Nat) : Nat := ((List.range 4).find? (fun e => bit p (4 * f + e) && !(bit r (4 * f + e)))).getD 0xFF

/-- The entry in force of a family now. -/
def State.keyEntry (s : State) (f : Nat) : Nat := entryOf (s.get SEC_KEY_STATE.PROGRAMMED) (s.get SEC_KEY_STATE.REVOKED) f

/-- SEC_STATE follows the fuses. -/
def State.entries (s : State) : State := (s.put SEC_STATE.OWNER_ENTRY (s.keyEntry 0)).put SEC_STATE.OPERATOR_ENTRY (s.keyEntry 1)

/-- The hash that an entry holds. -/
def State.keyHash (s : State) (f e : Nat) : List Byte := s.window (fun h => SEC_KEY_HASH.reg f e h) 4

/-- Bits set in a mask field. -/
def State.orF (s : State) (f : Fld) (m : Nat) : State := s.put f (s.get f ||| m)

/-- Programs an entry with a hash and reads it back (R440). Whether the read-back succeeds is a free value (log 1). -/
def State.program (s : State) (f e : Nat) (hash : List Byte) : Bool × State :=
  let (x, s0) := s.draw
  let s1 := (s0.setWindowRegs (fun h => SEC_KEY_HASH.reg f e h) hash).orF SEC_KEY_STATE.PROGRAMMED (2 ^ (4 * f + e))
  if x % 2 = 0 then (true, s1.entries) else (false, (s1.orF SEC_KEY_STATE.REVOKED (2 ^ (4 * f + e))).entries)

/-! ## Desk firmware (R441, R442) -/

/-- Whether I3C frames other than reads are discarded: step 1 of Table 15.4. -/
def State.quiescing (s : State) : Bool := s.sec.warming && !s.sec.quiesced

/-- A private frame is taken, unless the one before it is still in progress (R456). -/
def State.i3cTake (s : State) (k : State → State) : State :=
  if s.quiescing then s else if s.sec.op.isSome then s.modSec (fun c => { c with status := 1 }) else k s

/-- Firmware bytes reach Desk SRAM, while STAGE is WAIT_PUSH (R441). A bad length is a FORMAT error (R456). -/
def State.fwPush (s : State) (off : Nat) (data : List Byte) : State :=
  s.i3cTake fun s =>
    if data.length = 0 ∨ 4096 < data.length then s.modSec (fun c => { c with status := 5, data := [] })
    else if s.get GLB_BOOT.STAGE = 0 ∧ off + data.length ≤ 0x200000 then
      { (s.modSec (fun c => { c with pushed := c.pushed ++ [(off, data.length)] })) with sram := Mem.wrN s.sram off data }
    else s

/-- FW_PUSH (R441, R456). -/
def execFwPush (off : Nat) (data : List Byte) (s : State) : Out := act s fun s => s.fwPush off data

/-- FWPUSH_CCC (R455): the broadcast with the data of the frame. -/
def execFwpushCcc (off : Nat) (data : List Byte) (s : State) : Out := act s fun s => s.fwPush off data

/-- The boot ROM starts to verify (R442). -/
def State.fwStart (s : State) : State :=
  s.i3cTake fun s => if s.get GLB_BOOT.STAGE = 0 then s.put GLB_BOOT.STAGE 1 else s

/-- FW_START (R442). -/
def execFwStart (s : State) : Out := act s fun s => s.fwStart

/-- FWSTART_CCC (R455). -/
def execFwstartCcc (s : State) : Out := act s fun s => s.fwStart

/-- Whether ranges cover the bytes from `a` to `n`; each pass extends what is covered. -/
def covers (l : List (Nat × Nat)) (n : Nat) : Nat → Nat → Bool
  | 0, a => decide (n ≤ a)
  | f + 1, a => decide (n ≤ a) ||
      (let b := l.foldl (fun m x => if x.1 ≤ m then max m (x.1 + x.2) else m) a
       if b = a then false else covers l n f b)

/-- A field of the pushed firmware image. -/
def State.fw (s : State) (off n : Nat) : Nat := Mem.le s.sram off n

/-- The first check of R442 that the pushed firmware fails; zero none. -/
def State.fwCheck (s : State) : Nat :=
  let len := s.fw 8 4
  let ok1 := s.fw 0 4 == 0x49574644 && s.fw 4 2 == 1 && s.fw 6 2 == 64 && decide (256 ≤ len) && decide (len ≤ 1572864) &&
    decide (s.fw 0xC 4 ≤ 64) && s.fw 0x1C 4 == len - 192 && (Mem.rdN s.sram 0x20 32).all (fun b => b == 0) &&
    covers s.sec.pushed len (s.sec.pushed.length + 1) 0
  let key := Mem.rdN s.sram (len - 192) 64
  let slot := s.fw (len - 64) 1
  let own := s.keyEntry 0
  if !ok1 then 1
  else if !(Config.sm2Verify key (sm3 (Mem.rdN s.sram 0 (len - 192))) (Mem.rdN s.sram (len - 128) 64)) then 2
  else if slot ≠ own ∨ sm3 key ≠ (if own = 0xFF then Config.rootHash.toList else s.keyHash 0 own) then 3
  else if s.fw 0xC 4 < s.get SEC_STATE.MIN_VERSION then 4
  else 0

/-- The digest of the firmware held in Desk SRAM, over [0, SIG_OFFSET). -/
def State.fwDigest (s : State) : List Byte := sm3 (Mem.rdN s.sram 0 (s.fw 0x1C 4))

/-- Desk firmware starts after a cold reset (Table 15.3 steps 5, 6 and 8): the self-test is due, scratchpads and Shelf
are clear, and the Wardrobe's ports are turned on. -/
def State.deskStart (s : State) : State :=
  let s1 := ((s.wantTest).setMem .sp []).setMem .shelf []
  let s2 := { s1 with bad := s1.bad.filter (fun e => e.1 != Space.sp.num && e.1 != Space.shelf.num) }
  s2.wrdPorts.foldl (fun s p => s.fnEnable (64 + p)) s2

/-- FW_VERIFY_DONE (R442): the cores start at ENTRY, or STAGE returns to WAIT_PUSH with the failed check in CODE. -/
def execFwVerifyDone (s : State) : Out := act s fun s =>
  if s.get GLB_BOOT.STAGE = 1 then
    match s.fwCheck with
    | 0 =>
      let s1 := (((s.extend 0 s.fwDigest).put GLB_BOOT.FW_VERSION (s.fw 0xC 4)).put GLB_BOOT.STAGE 2).put GLB_BOOT.CODE 0
      let s2 := s1.modSec (fun c => { c with fwDigest := s.fwDigest })
      if s.sec.warming then s2 else s2.deskStart
    | n => ((s.put GLB_BOOT.STAGE 0).put GLB_BOOT.CODE n).alert MGT_ALERT.BOOT
  else s

/-! ## Cold reset (R444, R445) -/

/-- The registers that a cold reset does not touch: what the part fixes, and the fuses (Table 15.1). -/
def coldKeeps (o : Nat) : Bool :=
  o == GLB_ID.reg || o == GLB_SERIAL.reg || o == LNK_PKG.reg || o == SEC_STATE.reg || o == SEC_KEY_STATE.reg || o == SEC_CERT_LEN.reg ||
    (decide (0xF0100 ≤ o) && decide (o < 0xF0200)) || (decide (0xF0800 ≤ o) && decide (o < 0xF1000))

/-- The die while COLD_RESET_N is low: every output and every register in its reset state. The Wardrobe's devices and the
fuses are not reset. -/
def State.coldReset (s : State) : State :=
  { State.reset with
    pending := s.pending
    regs := s.regs.filter (fun e => coldKeeps e.1)
    wrd := s.wrd
    bad := s.bad.filter (fun e => e.1 == Space.wrd.num)
    dip := s.dip
    tripped := s.tripped
    railsOk := s.railsOk
    freeCtr := s.freeCtr }

/-- COLD_RESET_ASSERT (R445): it ends a warm reset at once. -/
def execColdResetAssert (s : State) : Out := .next { s.coldReset with coldLow := true }

/-- Draws the words of a nonce. -/
def State.drawWords (reg : Nat → Nat) : Nat → State → State
  | 0, s => s
  | n + 1, s =>
    let (x, s1) := s.draw
    State.drawWords reg n (s1.setWord (reg n) (BitVec.ofNat 64 x))

/-- What the part and its package fix at the start: unbonded Wardrobe ports are ABSENT (R184), the bundles inside a
package are of class P (R303). -/
def State.partSetup (s : State) : State :=
  let s1 := (List.range 32).foldl (fun s p => if s.wrdPorts.contains p then s else s.put (WRD_PORT_STATUS.STATE p) 0) s
  if s.on LNK_PKG.QUAD then
    (s1.put (LNK_BUNDLE_CFG.CLASS (s.get LNK_PKG.PX)) 0).put (LNK_BUNDLE_CFG.CLASS (2 + s.get LNK_PKG.PY)) 0
  else s1

/-- The provisioned ID: Urpel's manufacturer ID, the part, the slot straps and the package die (R455). -/
def State.provId (s : State) (slot : Nat) : Nat :=
  0x2E35 * 2 ^ 33 + s.get GLB_ID.PART * 2 ^ 16 + slot % 256 * 2 ^ 8 + s.get GLB_ID.PKG_DIE * 2 ^ 6

/-- The cold-reset die starts: its clocks run, the rails being in range. -/
def State.coldStart (s : State) : State :=
  { s.coldReset with coldLow := false, railsOk := true, pwr := { running := true } }

/-- The fuses are sensed, PWR_RT_COUNT starts at zero, the slot straps are sampled into the provisioned ID, a Hot-Join is
requested, a BOOT_NONCE is drawn, and STAGE is WAIT_PUSH (Table 15.3 step 2; R438, R455, R467). -/
def State.coldRelease (s : State) (slot : Nat) : State :=
  let s1 := s.coldStart
  let s2 := (((s1.setF PWR_RT_STATUS.LOCK).put PWR_RT_COUNT.COUNT 0).put MGT_I3C.PID (s1.provId slot)).entries.partSetup
  State.drawWords SEC_BOOT_NONCE.reg 4 (s2.modSec (fun c => { c with hotJoin := 1 }))

/-- COLD_RESET_RELEASE (Table 15.3 step 2). -/
def execColdResetRelease (slot : Nat) (s : State) : Out :=
  if s.coldLow then .next (s.coldRelease slot) else act s fun s => s

/-! ## Warm reset (Table 15.4) -/

/-- The links stop sending; their retry buffers go back to their bundles. -/
def State.linkHalt (s : State) (l : Nat) : State :=
  let st := s.get (LNK_PORT_STATUS.STATE l)
  if st = 1 ∨ st = 2 then
    let s1 := (s.put (LNK_PORT_STATUS.STATE l) 3).setUp l false
    let s2 := s1.modBundle (l / 8) (fun b => { b with resend := b.resend ++ (s.link l).retry })
    s2.modLink l (fun k => { k with train := .none, gapFrom := none, retry := [], replay := [], nakked := false, replays := 0 })
  else s

/-- Every RUN ends as an abort ends it, but without a vote; its command stays for the RESET of R396. -/
def State.endRuns (s : State) : State :=
  let s1 := s.fab.micros.foldl (fun t m => if s.replay && m.run.kind != 3 then t else t.numOr m.run.kind m.flags) s
  ((((s1.modFab (fun _ => {})).clrF FAB_CTRL.ABORT).clrF FAB_STATUS.SWAP_PENDING).put FAB_STATUS.NEXT_DRAWER 0).clrF FAB_STATUS.BOUNDARY |>.setF FAB_STATUS.IDLE

/-- A snapshot that is not sealed ends; the command that waits for it is left to R396 (R432). -/
def State.snapLost (s : State) : State :=
  (s.modCkp (fun c => { c with snap := c.snap.map (fun sn => { sn with cmd := none }), want := c.want.map (fun _ => none), restore := none, rejoin := none })).snapEnd 9

/-- A load in progress ends without an outcome. -/
def State.loadLost (s : State) : State :=
  if s.load.isSome then { ((s.put FAB_LOAD_STATUS.STATE 0).clrF FAB_LOAD_CTRL.GO) with load := none } else s

/-- Step 1 of Table 15.4: the message and the quote in progress are lost (R446), RUNs end, the Wardrobe enters
self-refresh (R191), and the links stop. -/
def State.warmStart (s : State) (cause : Fld) : State :=
  if s.sec.warming then s
  else
    let s1 := ((s.setF cause).incSat GLB_CAUSE.WARM_COUNT).put SEC_AUTH_STATUS.PENDING 0
    let s2 := s1.modSec (fun c => { c with warming := true, quiesced := false, warmSeen := true, pendMsg := none, quote := none, goWait := false, updLost := 0 })
    let s3 := ((s2.endRuns).snapLost).loadLost
    let s4 := (List.range 48).foldl (fun s l => s.linkHalt l) s3
    s4.wrdPorts.foldl (fun s p => if s.get (WRD_PORT_STATUS.STATE p) = 4 then s.portSleep p else s) s4

/-- WARM_RESET_PIN (R445): WARM_RESET_N has been low for `lowNs`. -/
def execWarmResetPin (lowNs : Nat) (s : State) : Out := act s fun s => if 1000 ≤ lowNs then s.warmStart GLB_CAUSE.WARM_PIN else s

/-- A write of 1 to GLB_RESET.WARM (R445): performed for I3C alone, refused for every other issuer (R483). -/
def State.resetWrite (s : State) (iss : Issuer) : State :=
  match iss with
  | .i3c => s.warmStart GLB_CAUSE.WARM_REG
  | _ => s.regRefusal iss GLB_RESET.reg

/-- GLB_RESET_WARM (R445). -/
def execGlbResetWarm (iss : Issuer) (s : State) : Out := act s fun s => s.resetWrite iss

/-- A queue through a warm reset (R236): open packets are rewound, what waited to open is gone, and a packet whose
delivery had begun is COMMITTED again. -/
def State.queWarm (s : State) (q : Nat) : State :=
  let s1 := (s.modQueue q (fun x => { x with wait := [] })).rewind q
  let back := fun (p : QPacket) => if p.st = .delivering then { p with st := .committed, sent := [] } else { p with returning := false }
  let ret := (s1.ringPks q).any (fun p => p.returning)
  let s2 := s1.modQueue q (fun x => { x with pks := x.pks.map back })
  let s3 := s2.put (QUE_Q_PTR2.DL q) (s2.get (QUE_Q_PTR.RD q))
  (if ret then s3.put (QUE_Q_PTR2.OP q) (s3.get (QUE_Q_PTR.WR q)) else s3).queSync q

/-- An update in steps 4 to 8 is abandoned (R265). -/
def State.updWarm (s : State) : State :=
  let drop := fun (s : State) (k : Nat) =>
    (({ ((s.setF SBD_EVENT.UPDATE_FAILED).put SBD_STATUS.STATE 0) with upd := none } : State).modCkp (fun c => { c with due := false })).modSec
      (fun c => { c with updLost := k })
  if s.upd.isSome ∧ s.get SBD_STATUS.STATE ≠ 5 then drop s 1
  else if s.get SBD_STATUS.STATE = 5 then (if s.ckp.due then drop s 2 else s.put SBD_STATUS.STATE 0)
  else s

/-- The sync side of a warm reset (R362). BCT SYNC commands are left to R396. -/
def State.syncWarm (s : State) : State := ({ s with slots := s.slots.filter (fun x => decide (x.1 < 1000)) } : State).syncAbort

/-- Step 2 of Table 15.4: Benches, mesh, edge agents and Desk cores are reset; every memory keeps its contents (R165). -/
def State.unitsReset (s : State) : State :=
  let s1 := (s.benWith 0 0x1000).foldl (fun s p => s.benchIdle p) { s with benches := [], mesh := {}, opens := [], lnkIn := [] }
  let s2 := ((s1.closeAll).syncWarm).updWarm
  let s3 := s2.modHst (fun h => { h with rxBct := [], rxDesk := [], pushes := [] })
  let s4 := { s3 with remote := s3.remote.filter (fun o => o.issuer == 0x43FE || o.chan.isNone && decide (0x4000 ≤ o.issuer)) }
  let s5 := (List.range 64).foldl (fun s q => s.clrF (QUE_Q_STATUS.CONSUMER_WAIT q)) s4
  (s5.queues.map (·.1)).foldl (fun s q => s.queWarm q) s5

/-- WARM_RESET_QUIESCED (Table 15.4 steps 2 and 3): the units are reset, and the boot ROM compares the firmware's digest
with that of the last start. -/
def execWarmResetQuiesced (s : State) : Out := act s fun s =>
  if s.quiescing then
    let s1 := s.unitsReset.modSec (fun c => { c with quiesced := true })
    if s.sec.fwDigest ≠ [] ∧ s.fwDigest = s.sec.fwDigest then s1.put GLB_BOOT.STAGE 2
    else (s1.put GLB_BOOT.STAGE 0).put GLB_BOOT.CODE 5
  else s

/-- Every STARTED record completes with RESET, channel by channel in sequence order (R396). -/
def State.resetRecs : Nat → State → State
  | 0, s => s
  | f + 1, s =>
    match (s.hst.recs.filter (fun r => r.st == 2)).foldl (fun (b : Option JRec) r => match b with
        | none => some r
        | some x => if r.ch < x.ch ∨ (r.ch = x.ch ∧ r.seq < x.seq) then some r else b) none with
    | none => s
    | some r => State.resetRecs f (s.complete r.ch r.seq 0x3C)

/-- What Desk firmware does about an update that the reset abandoned (R422): a device that is confirming abandons, unless
its CONFIRM has left it; one that has flipped refreshes. -/
def State.updRecover (s : State) : State :=
  if s.sec.updLost = 1 then (if s.red.vkind = 1 ∧ s.red.sentUp = false then (s.contributeNow fAbandon).voteStep else s)
  else if s.sec.updLost = 2 then (s.put SBD_STATUS.STATE 5).modCkp (fun c => { c with due := true })
  else s

/-- A port in self-refresh leaves it and retrains (R191): it is READY, or its attempt has failed in one of steps 6 and 7, of
which the manual leaves open which (log 1). -/
def State.wrdRetrain (s : State) (failed : List Nat) (p : Nat) : State :=
  if s.get (WRD_PORT_STATUS.STATE p) = 6 then
    if failed.contains p then
      let (x, t) := s.draw
      t.attemptFailed p (6 + x % 2)
    else s.portUp p
  else s

/-- WARM_RECOVERY_DONE (Table 15.4 step 4; R191, R396, R422): `failed` are the Wardrobe ports whose retraining fails. A port
that fails repeats bring-up from step 3 under R189, and the recovery ends once every port is READY or FAILED. -/
def execWarmRecoveryDone (failed : List Nat) (s : State) : Out := act s fun s =>
  if s.sec.warming && s.sec.quiesced && s.get GLB_BOOT.STAGE == 2 then
    let s2 := s.wrdPorts.foldl (fun s p => s.wrdRetrain failed p) s
    if s2.wrdPorts.any (fun p => s2.get (WRD_PORT_STATUS.STATE p) == 2) then s2
    else
      let s3 := (List.range 48).foldl (fun s l => if s.get (LNK_PORT_STATUS.STATE l) = 3 then s.trainStart l else s) s2
      let s4 := (s3.modSec (fun c => { c with warming := false, quiesced := false })).modHst (fun h => { h with
        rrLast := none, chans := h.chans.map (fun x => (x.1, { x.2 with closing := none })) })
      let s5 := (State.resetRecs s4.hst.recs.length s4).flushAll.updRecover
      (s5.modSec (fun c => { c with updLost := 0 })).put GLB_BOOT.STAGE 3
  else s

/-! ## Authorization (R449 to R454) -/

/-- The fields of a message (Table 15.8). -/
def mAt (m : List Byte) (off n : Nat) : Nat := leAt m off n
def mBytes (m : List Byte) (off n : Nat) : List Byte := (m.drop off).take n

/-- Check 2 of Table 15.9. -/
def authForm (m : List Byte) : Bool :=
  let sel := mAt m 0x51 1
  let act := mAt m 0x50 1
  mAt m 0 4 == 0x54554153 && mAt m 4 2 == 1 && (mAt m 6 1 == 1 || mAt m 6 1 == 2) && decide (1 ≤ act) && decide (act ≤ 5) &&
    (if act = 2 then sel % 128 == 0 else if act = 3 then sel % 128 / 4 == 0 else sel == 0) &&
    mAt m 0x2A 6 == 0 && mAt m 0x52 14 == 0 && (act != 3 || mAt m 0x60 32 == 0)

/-- Check 5 of Table 15.9; R453 for PROVISION. -/
def State.authKey (s : State) (m : List Byte) (i3c : Bool) : Bool :=
  let f := mAt m 6 1 - 1
  if mAt m 0x50 1 = 5 then s.keyEntry 0 == 0xFF && i3c && f == 0 && s.get SEC_KEY_STATE.PROGRAMMED == 0
  else
    let e := s.keyEntry f
    decide (e < 4) && mAt m 7 1 == e && sm3 (mBytes m 0x80 64) == s.keyHash f e

/-- Check 7 of Table 15.9. -/
def State.authWindow (s : State) (m : List Byte) : Bool :=
  s.on PWR_RT_STATUS.VALID && mAt m 0x28 2 == s.domain && decide (mAt m 0x18 8 ≤ s.now) && decide (s.now ≤ mAt m 0x20 8)

/-- Checks 2 to 8 of Table 15.9: the code of the first that fails; zero none. -/
def State.authCheck (s : State) (m : List Byte) (i3c : Bool) : Nat :=
  if !(authForm m) then 2
  else if mAt m 8 8 ≠ s.get GLB_SERIAL.SERIAL then 5
  else if mBytes m 0x30 32 ≠ s.window SEC_BOOT_NONCE.reg 4 then 6
  else if !(s.authKey m i3c) then 4
  else if !(Config.sm2Verify (mBytes m 0x80 64) (sm3 (mBytes m 0 0x80)) (mBytes m 0xC0 64)) then 3
  else if !(s.authWindow m) then 8
  else if mAt m 0x10 8 ≤ s.get SEC_AUTH_SEQ.SEQ then 7
  else 0

/-- The pending message, unless its NOT_AFTER has passed (R451). -/
def State.pendNow (s : State) : Option (List Byte) := s.sec.pendMsg.bind (fun m => if s.now ≤ mAt m 0x20 8 then some m else none)

/-- A message becomes the pending message, or none is. -/
def State.setPend (s : State) (m : Option (List Byte)) : State :=
  (s.modSec (fun c => { c with pendMsg := m })).put SEC_AUTH_STATUS.PENDING ((m.map (fun x => mAt x 6 1)).getD 0)

/-- The bits of a register that are of type DA. -/
def daMask (o : Nat) : Nat :=
  match regSpec o with
  | none => 0
  | some r => r.fields.foldl (fun a f => if f.acc = .da then a + (2 ^ (f.hi + 1) - 2 ^ f.lo) else a) 0

/-- The 8-byte words of a set-up body and the registers that they are applied to (Table 15.7). CTX_GRANT stands apart. -/
def setupWords : List (Nat × Nat) :=
  [(8, SEC_DEBUG.reg)] ++ (List.range 32).map (fun ty => (0x10 + 8 * ty, TMAP_FENCE_FORCE.reg ty)) ++
  (List.range 16).flatMap (fun k => (List.range 4).map (fun h => (0x110 + 40 * k + 8 * h, SEC_KEYSLOT_HASH.reg k h)) ++
    [(0x110 + 40 * k + 32, SEC_KEYSLOT_USE.reg k)]) ++
  (List.range 16).flatMap (fun k => [(0x390 + 24 * k, HST_FILTER_CTL.reg k), (0x398 + 24 * k, HST_FILTER_ADDR.reg k 0), (0x3A0 + 24 * k, HST_FILTER_ADDR.reg k 1)])

/-- Check 11 of Table 15.9. -/
def State.setupOk (s : State) (b : List Byte) : Bool :=
  mAt b 2 6 == 0 && setupWords.all (fun x => mAt b x.1 8 &&& daMask x.2 == mAt b x.1 8) &&
    (List.range 16).all (fun x => bit (mAt b 0 2) x || !(s.on (SYN_CTX_STATE.GRANTED x)) || s.get (SYN_CTX_STATE.OWNER x) == 0)

/-- The set-up changes as a whole (R452, R454). A forced fence waits for a drained boundary (R85). -/
def State.applySetup (s : State) (b : List Byte) : State :=
  let s1 := setupWords.foldl (fun s x => if x.2 = SEC_DEBUG.reg then s else s.setWord x.2 (BitVec.ofNat 64 (mAt b x.1 8))) s
  let s2 := (List.range 16).foldl (fun s x => s.put (SYN_CTX_STATE.GRANTED x) (b2n (bit (mAt b 0 2) x))) s1
  let s3 := (s2.fenceBits).availCnt
  let d := mAt b 8 8 % 4
  if d = s.get SEC_DEBUG.TAP_EN + 2 * s.get SEC_DEBUG.DESK_DEBUG then s3
  else
    let s4 := ((s3.put SEC_DEBUG.TAP_EN (d % 2)).put SEC_DEBUG.DESK_DEBUG (d / 2)).setF SEC_DEBUG.SEEN
    s4.extend 4 (leBytes 8 (s4.word SEC_DEBUG.reg).toNat)

/-- Programs the lowest entry of a family that is not PROGRAMMED (R452). -/
def State.programNext (s : State) (f : Nat) (hash : List Byte) : Nat × State :=
  match (List.range 4).find? (fun e => !(bit (s.get SEC_KEY_STATE.PROGRAMMED) (4 * f + e))) with
  | none => (12, s)
  | some e => let (ok, t) := s.program f e hash; (if ok then 0 else 12, t)

/-- Revokes an entry, unless that leaves its family without one in force (R452). -/
def State.revoke (s : State) (f e : Nat) : Nat × State :=
  let r := s.get SEC_KEY_STATE.REVOKED ||| 2 ^ (4 * f + e)
  if entryOf (s.get SEC_KEY_STATE.PROGRAMMED) r f = 0xFF then (12, s) else (0, (s.put SEC_KEY_STATE.REVOKED r).entries)

/-- Checks 10 to 12 and the action of a complete message or pair (Table 15.9, R452, R453). -/
def State.authAct (s : State) (m : List Byte) (setup : Nat) : Nat × State :=
  let sel := mAt m 0x51 1
  match mAt m 0x50 1 with
  | 1 =>
    if setup + 1296 > s.wrdLimit then (10, s)
    else match s.fetch false none setup 1296 with
      | none => (10, s)
      | some (b, t) =>
        if !(s.badIn .wrd setup 1296).isEmpty ∨ sm3 b ≠ mBytes m 0x60 32 then (10, t)
        else if !(s.setupOk b) then (11, t)
        else (0, t.applySetup b)
  | 2 => s.programNext (sel / 128) (mBytes m 0x60 32)
  | 3 => s.revoke (sel / 128) (sel % 4)
  | 4 =>
    let v := mAt m 0x60 1
    if s.get SEC_STATE.MIN_VERSION < v ∧ v ≤ s.get GLB_BOOT.FW_VERSION then (0, s.put SEC_STATE.MIN_VERSION v) else (12, s)
  | _ =>
    let (a, s1) := s.program 0 0 (sm3 (mBytes m 0x80 64))
    let (b, s2) := s1.program 1 0 (mBytes m 0x60 32)
    (if a && b then 0 else 12, s2)

/-- An applied message or pair (R447, R451): SEC_AUTH_SEQ takes its SEQ, and M1 is extended. -/
def State.authDone (s : State) (m d : List Byte) : State := (s.put SEC_AUTH_SEQ.SEQ (mAt m 0x10 8)).extend 1 d

/-- A message is judged (R451 to R453): its result code and the state. -/
def State.authJudge (s : State) (m : List Byte) (setup : Nat) (i3c : Bool) : Nat × State :=
  let c := s.authCheck m i3c
  if c ≠ 0 then (c, s)
  else if mAt m 0x50 1 = 5 then
    let (k, t) := s.authAct m setup
    (k, if k = 0 then t.authDone m (mBytes m 0 0x80) else t)
  else match s.pendNow with
    | none => (1, s.setPend (some m))
    | some p =>
      if mAt p 6 1 = mAt m 6 1 then (1, s.setPend (some m))
      else if mBytes p 8 16 ≠ mBytes m 8 16 ∨ mBytes p 0x28 0x58 ≠ mBytes m 0x28 0x58 then (9, s.setPend none)
      else
        let (k, t) := (s.setPend none).authAct m setup
        let own := if mAt m 6 1 = 1 then mBytes m 0 0x80 ++ mBytes p 0 0x80 else mBytes p 0 0x80 ++ mBytes m 0 0x80
        (k, if k = 0 then t.authDone m own else t)

/-- A message is judged and its result recorded (R451). -/
def State.auth (s : State) (m : List Byte) (setup : Nat) (i3c : Bool) : Nat × State :=
  let (k, t) := s.authJudge m setup i3c
  (k, (t.put SEC_AUTH_STATUS.RESULT k).alert MGT_ALERT.AUTH)

/-- A write of SEC_AUTH_CTRL with GO set judges the message in SEC_AUTH_MSG. -/
def State.authGo (s : State) (iss : Issuer) : State :=
  (s.auth (s.window SEC_AUTH_MSG.reg 32) (s.get SEC_AUTH_CTRL.SETUP_ADDR) (iss == .i3c)).2

/-- AUTH_GO (R451). -/
def execAuthGo (iss : Issuer) (s : State) : Out := act s fun s => s.authGo iss

/-- AUTHORIZE (R450, R451). -/
def execAuthorize (ch : Nat) (s : State) : Out := act s fun s => s.perform ch (fun r => r.op == 0x39) fun s r =>
  s.orReject r (r.zeros [(8, 40)]) (r.body.length == 256)
    (let (k, t) := s.auth r.body (r.arg 0 8) false
     t.finish ch r.seq 0 k)

/-- AUTH_PENDING_EXPIRE (R451): PWR_RT_COUNT has passed the pending message's NOT_AFTER. -/
def execAuthPendingExpire (s : State) : Out := act s fun s =>
  if s.sec.pendMsg.isSome && s.pendNow.isNone then s.setPend none else s

/-! ## Quotes (R448) -/

/-- Bytes [0x000, 0x140) of a quote made now (Table 15.6). -/
def State.quoteBytes (s : State) (nonce : List Byte) : List Byte :=
  leBytes 4 0x45545144 ++ leBytes 2 1 ++
  leBytes 2 (b2n (s.on SEC_DEBUG.SEEN) + 2 * b2n (s.keyEntry 0 == 0xFF) + 4 * b2n s.sec.warmSeen) ++ leBytes 8 (s.get GLB_SERIAL.SERIAL) ++
  leBytes 8 s.now ++ leBytes 2 s.domain ++ [0, 0] ++ leBytes 4 (s.get GLB_BOOT.FW_VERSION) ++ padTo 32 nonce ++
  s.window SEC_BOOT_NONCE.reg 4 ++ leBytes 8 (s.get SEC_AUTH_SEQ.SEQ) ++
  leBytes 1 (s.get SEC_STATE.MIN_VERSION) ++ leBytes 1 (s.get SEC_STATE.OWNER_ENTRY) ++ leBytes 1 (s.get SEC_STATE.OPERATOR_ENTRY) ++
  List.replicate 21 0 ++ (List.range 6).flatMap (fun m => s.window (fun h => SEC_MEAS.reg m h) 4)

/-- A quote starts: every field is captured now. -/
def State.quoteStart (s : State) (nonce : List Byte) (cmd : Option (Nat × Nat)) : State :=
  s.modSec (fun c => { c with quote := some (s.quoteBytes nonce, cmd) })

/-- A write of 1 to SEC_QUOTE_CTRL.GO (R448). One quote is made at a time: the write waits for the one in progress. -/
def State.quoteGo (s0 : State) : State :=
  let s := s0.clrF SEC_QUOTE_CTRL.DONE
  if s.sec.quote.isSome then s.modSec (fun c => { c with goWait := true }) else s.quoteStart (s.window SEC_QUOTE_NONCE.reg 4) none

/-- QUOTE_GO. -/
def execQuoteGo (_iss : Issuer) (s : State) : Out := act s fun s => s.quoteGo

/-- QUOTE (R448): it starts once no other quote is in progress. -/
def execQuote (ch : Nat) (s : State) : Out := act s fun s =>
  if s.sec.quote.isSome then s
  else s.perform ch (fun r => r.op == 0x38) fun s r =>
    s.orReject r (r.zeros [(32, 16)]) (r.body == []) (s.quoteStart (mBytes r.hdr 0x30 32) (some (ch, r.seq)))

/-- QUOTE_DONE (R448): signing ends. -/
def execQuoteDone (s : State) : Out := act s fun s =>
  match s.sec.quote with
  | none => s
  | some (l, cmd) =>
    let (n, s0) := s.draw
    let q := l ++ (Config.sm2Sign (sm3 l) n).toList
    let s1 := s0.modSec (fun c => { c with quote := none })
    let s2 := match cmd with
      | none => (s1.setWindowRegs SEC_QUOTE_OUT.reg q).setF SEC_QUOTE_CTRL.DONE
      | some c => let (x, t) := s1.draw; t.finish c.1 c.2 0 (x % 2 ^ 64) q
    if s2.sec.goWait then ((s2.modSec (fun c => { c with goWait := false })).clrF SEC_QUOTE_CTRL.DONE).quoteStart (s2.window SEC_QUOTE_NONCE.reg 4) none else s2

/-! ## MGT registers (R458) -/

/-- A write of MGT_ROLE (R458): ACTIVE enables the Ethernet ports, UNASSIGNED and SPARE keep them OFF. The reserved value
is refused (R482). -/
def State.roleWrite (s : State) (iss : Issuer) (role : Nat) : State :=
  if 3 ≤ role then s.regRefusal iss MGT_ROLE.reg
  else
    let s1 := s.put MGT_ROLE.ROLE role
    (List.range 8).foldl (fun s e => if role = 1 then s.fnEnable (144 + e) else s.fnDisable (.desk 0) (144 + e)) s1

/-- MGT_ROLE_WRITE. -/
def execMgtRoleWrite (iss : Issuer) (role : Nat) (s : State) : Out := act s fun s => s.roleWrite iss role

/-- The registers that MGT_TELEM copies. -/
def telemRegs : List Nat :=
  [PWR_RT_COUNT.reg, PWR_SENSE.reg, PWR_POWER.reg, PWR_BEAT_RATE.reg, RAS_STATUS.reg, FAB_STATUS.reg, RED_VOTE_STATUS.reg, HST_STATUS.reg]

/-- A write of 1 to MGT_TELEM_GO. -/
def State.telem (s : State) : State := (List.range 8).foldl (fun t k => t.setWord (MGT_TELEM.reg k) (s.word (telemRegs.getD k 0))) s

/-- TELEM_CAPTURE. -/
def execTelemCapture (_iss : Issuer) (s : State) : Out := act s fun s => s.telem

/-! ## CCCs (R455) -/

/-- Event enables: bit 0 is that of IBIs. -/
def execEnec (ev : Nat) (s : State) : Out := act s fun s => if bit ev 0 then s.modSec (fun c => { c with ibiOn := true }) else s
/-- DISEC. -/
def execDisec (ev : Nat) (s : State) : Out := act s fun s => if bit ev 0 then s.modSec (fun c => { c with ibiOn := false }) else s

/-- The dynamic address is set. -/
def State.setAddr (s : State) (a : Nat) : State := (s.put MGT_I3C.DYN_ADDR a).setF MGT_I3C.ASSIGNED

/-- ENTDAA: a target without a dynamic address takes one. -/
def execEntdaa (addr : Nat) (s : State) : Out := act s fun s => if s.on MGT_I3C.ASSIGNED then s else s.setAddr addr
/-- RSTDAA: the dynamic address is lost. -/
def execRstdaa (s : State) : Out := act s fun s => (s.put MGT_I3C.DYN_ADDR 0).clrF MGT_I3C.ASSIGNED
/-- SETNEWDA: a target with a dynamic address takes another. -/
def execSetnewda (addr : Nat) (s : State) : Out := act s fun s => if s.on MGT_I3C.ASSIGNED then s.setAddr addr else s
/-- SETMWL. -/
def execSetmwl (n : Nat) (s : State) : Out := act s fun s => s.modSec (fun c => { c with mwl := n % 65536 })
/-- SETMRL. -/
def execSetmrl (n : Nat) (s : State) : Out := act s fun s => s.modSec (fun c => { c with mrl := n % 65536 })

/-- A direct GET CCC answers from a target with a dynamic address. -/
def State.cccOut (s : State) (l : List Byte) : State := if s.on MGT_I3C.ASSIGNED then s.modSec (fun c => { c with ccc := l }) else s

/-- GETMWL: two bytes, the more significant first (log 6). -/
def execGetmwl (s : State) : Out := act s fun s => s.cccOut (leBytes 2 s.sec.mwl).reverse
/-- GETMRL: two bytes and the IBI payload size (log 6). -/
def execGetmrl (s : State) : Out := act s fun s => s.cccOut ((leBytes 2 s.sec.mrl).reverse ++ [3])
/-- GETPID: the provisioned ID, the most significant byte first. -/
def execGetpid (s : State) : Out := act s fun s => s.cccOut (leBytes 6 (s.get MGT_I3C.PID)).reverse
/-- GETBCR. -/
def execGetbcr (s : State) : Out := act s fun s => s.cccOut [6]
/-- GETDCR. -/
def execGetdcr (s : State) : Out := act s fun s => s.cccOut [0]
/-- GETSTATUS: the manual gives no layout of the status; a free value (log 1). -/
def execGetstatus (s : State) : Out := act s fun s => let (x, t) := s.draw; t.cccOut (leBytes 2 x)
/-- RSTACT: the reset action is configured. -/
def execRstact (action : Nat) (s : State) : Out := act s fun s => s.modSec (fun c => { c with rstAct := action % 256 })

/-! ## Outputs (R63, R457, R464) -/

/-- Whether ALERT_N is driven low: an alert stands that is enabled. -/
def State.alertLow (s : State) : Bool :=
  s.railsOk && !s.coldLow && (fget (s.word MGT_ALERT.reg) 7 0 &&& s.get MGT_ALERT_EN.EN) != 0

/-- Whether FAULT_N is driven low: the device needs replacement, or waits for firmware after a failed check. -/
def State.faultLow (s : State) : Bool :=
  s.railsOk && !s.coldLow && (s.on RAS_STATUS.REPLACE || (s.get GLB_BOOT.STAGE == 0 && s.get GLB_BOOT.CODE != 0))

/-- Whether THERMTRIP_N is driven low; no reset affects it (R466). -/
def State.thermtripLow (s : State) : Bool := s.tripped

/-- RESET_n of a Wardrobe port: none while high impedance, high through a warm reset (Table 16.4). -/
def State.wrdResetPin (s : State) (p : Nat) : Option Bool :=
  if s.railsOk && !s.coldLow then some (s.sec.warming || (s.wport p).resetN) else none

/-- A link transmitter: none while high impedance, `false` in electrical idle, `true` while it sends (Table 16.4). It falls idle
at step 1 of a warm reset and sends again when the links retrain. -/
def State.linkTx (s : State) (l : Nat) : Option Bool :=
  if s.railsOk then some (!s.coldLow && (s.get (LNK_PORT_STATUS.STATE l) == 1 || s.get (LNK_PORT_STATUS.STATE l) == 2)) else none

/-- An Ethernet transmitter, which a warm reset leaves sending (Table 16.4, R445). -/
def State.ethTx (s : State) (e : Nat) : Option Bool :=
  if s.railsOk then some (!s.coldLow && (s.get (HST_PORT_STATUS.STATE e) == 1 || s.get (HST_PORT_STATUS.STATE e) == 2)) else none

/-- Whether TDO is driven: the test access port is enabled (R454). -/
def State.tdoDriven (s : State) : Bool := s.railsOk && !s.coldLow && s.on SEC_DEBUG.TAP_EN

end Sys2Proof.Machine
end

