-- ==== Sys2Proof/Machine/RegWrite.lean ====
section
/-! DEFINITION. Register writes and reads (R8 to R10, R12, R16, R46, R51, R190, R480 to R483). -/

namespace Sys2Proof.Machine

/-- The codes with which an access ends, as I3C reports them (R456). -/
def accOk : Nat := 0
def accBusy : Nat := 1
def accAddress : Nat := 2
def accAccess : Nat := 3
def accTimeout : Nat := 4
def accFormat : Nat := 5

/-- The offset that a register access of a role reaches: the BEN block of a logical tile is that of the physical Bench
that holds it (R16); none where the tile does not exist (R12) or the offset lies outside every block (R15). -/
def State.regPlace (s : State) (off : Nat) : Option Nat :=
  if off < 0x110000 then some off
  else if 0x1000000 ≤ off ∧ off < 0x1400000 then
    (s.phys ((off - 0x1000000) / 0x1000)).map (fun p => 0x1000000 + p * 0x1000 + off % 0x1000)
  else none

/-- Values that a field's table marks reserved (R482); MGT_ROLE and SYN_OP judge their own. -/
def reservedVal (o : Nat) (f : FieldSpec) (x : Nat) : Bool :=
  (o == WRD_CTRL.reg && f.lo == 0 && decide (5 ≤ x)) ||
  (decide (0x80400 ≤ o) && decide (o < 0x80480) && o % 32 == 0 && f.lo == 0 && decide (4 ≤ x)) ||
  (o == RED_GROUP.reg && f.lo == 62 && x == 3)

/-- The SH fields of a write: pending where they differ from their value in force (R481). -/
def State.shWrite (s : State) (o : Nat) (r : RegSpec) (v : Word) : State :=
  if r.fields.any (fun f => f.acc == .sh) then
    let cur := s.word o
    let new := r.fields.foldl (fun w f => if f.acc = .sh ∧ reservedVal o f (fget v f.hi f.lo) = false then fput w f.hi f.lo (fget v f.hi f.lo) else w)
      (SMap.get s.shadow cur o)
    let same := r.fields.all (fun f => f.acc != .sh || fget new f.hi f.lo == fget cur f.hi f.lo)
    let s1 := { s with shadow := if same then SMap.erase s.shadow o else SMap.insert s.shadow o new,
                       boardPending := s.boardPending || o == WRD_BOARD.reg }
    s1.shBit.idleBits
  else s

/-- The fields of a write by their access types (Table 00.6, R480 to R482). Fields at the bits that `own` names are
left to the register's own rule. -/
def State.fieldWrite (s : State) (iss : Issuer) (o : Nat) (v : Word) (own : List Nat := []) : State :=
  match regSpec o with
  | none => s
  | some r =>
    let s1 := r.fields.foldl (fun s f =>
      let x := fget v f.hi f.lo
      let fl : Fld := ⟨o, f.hi, f.lo⟩
      if own.contains f.lo then s
      else match f.acc with
        | .rw => if reservedVal o f x then s else s.put fl x
        | .w1c => s.put fl (s.get fl - (s.get fl &&& x))
        | _ => s) s
    let s2 := s1.shWrite o r v
    let bad := r.fields.any (fun f =>
      let x := fget v f.hi f.lo
      ((f.acc == .rw || f.acc == .sh) && reservedVal o f x) || (f.acc == .da && x != fget (s.word o) f.hi f.lo))
    let s3 := if o = NUM_STATUS_GEN.reg then s2.anomalyBits else s2
    if bad then s3.regRefusal iss o else s3

/-- The index of an array register at an offset. -/
def regIdx (base stride count o : Nat) : Option Nat :=
  if base ≤ o ∧ (o - base) % stride = 0 ∧ (o - base) / stride < count then some ((o - base) / stride) else none

/-- Registers whose rule judges the whole write. -/
def State.regWhole (s : State) (iss : Issuer) (o : Nat) (v : Word) : Option State :=
  if o = LNK_COORD.reg then some (s.coordWrite iss false v)
  else if o = LNK_TORUS.reg then some (s.coordWrite iss true v)
  else if o = QUE_FLUSH.reg then some (s.flushRequest v.toNat)
  else if o = HST_BUDDY.reg then some (s.buddyWrite v)
  else if o = RAS_LOG_SEL.reg then some (s.logSel (fget v 47 0))
  else if o = SYN_DBG_SEL.reg then some ((s.put SYN_DBG_SEL.CELL (fget v 11 0)).dbgCapture (fget v 11 0))
  else if o = SYN_DBG_FIND.reg then some (s.dbgFind (fget v 19 16) (fget v 15 0))
  else if o = MGT_ROLE.reg then some (s.roleWrite iss (fget v 1 0))
  else if o = SBD_LOSS_EMA.reg then some (s.emaWrite iss (bit v.toNat 32))
  else ((regIdx (LNK_ROUTE.reg 0) 8 3 o).map (fun a => s.routeWrite iss a v)).orElse fun _ =>
    ((regIdx (QUE_Q_CFG.reg 0) 64 64 o).map (fun q => s.queCfgWrite iss q o v)).orElse fun _ =>
    ((regIdx (QUE_Q_RING.reg 0) 64 64 o).map (fun q => s.queCfgWrite iss q o v)).orElse fun _ =>
    ((regIdx (SBD_BANK_T.reg 0) 8 2 o).map (fun b => s.bankTWrite iss b (fget v 31 0))).orElse fun _ =>
    ((regIdx (SYN_OP.reg 0) 16 9 o).map (fun n => s.synOp iss n v)).orElse fun _ =>
    ((regIdx (SEC_AUTH_MSG.reg 0) 8 32 o).map (fun _ => s.setWord o v)).orElse fun _ =>
    ((regIdx (PWR_FN_CTRL.reg 0) 8 256 o).map (fun n => if bit v.toNat 0 then s.fnEnable n else s.fnDisable iss n))

/-- PWR_RT_CTRL (R46, R480): DOMAIN keeps its value while VALID is 1. -/
def State.rtCtrlWrite (s : State) (iss : Issuer) (v : Word) : State :=
  let d := fget v 31 16
  let ok := d == s.get PWR_RT_CTRL.DOMAIN || !(s.on PWR_RT_STATUS.VALID)
  let s1 := s.fieldWrite iss PWR_RT_CTRL.reg v [16]
  let s2 := if bit v.toNat 0 then s1.setF PWR_RT_CTRL.ARM else s1
  if ok then s2.put PWR_RT_CTRL.DOMAIN d else s2.rtRecord 0xFF

/-- WRD_CTRL (R190): RATE is fixed while the Wardrobe is in service. -/
def State.wrdCtrlWrite (s : State) (iss : Issuer) (v : Word) : State :=
  let r := fget v 2 0
  if r < 5 ∧ r ≠ s.get WRD_CTRL.RATE ∧ s.on WRD_STATUS.IN_SERVICE = true then
    (s.fieldWrite iss WRD_CTRL.reg v [0]).raise (issTag iss) { unit := unitId 2 0xFFF, cls := 1, reason := 0x06FF, ctx := 0, detail := 0 }
  else s.fieldWrite iss WRD_CTRL.reg v

/-- Whether a bundle joins dies of one package (R303). -/
def State.inPackage (s : State) (d : Nat) : Bool := s.on LNK_PKG.QUAD && (d == s.get LNK_PKG.PX || d == 2 + s.get LNK_PKG.PY)

/-- What the W1S and WO bits of a write do, once its fields stand. -/
def State.regActs (s : State) (iss : Issuer) (o : Nat) (v : Word) : State :=
  let b := bit v.toNat
  if o = FAB_CTRL.reg then (if b 0 then s.doAbort else s)
  else if o = FAB_LOAD_CTRL.reg then (if b 0 then s.startLoad (b 8) (s.get FAB_LOAD_ADDR.ADDR) none else s)
  else if o = NUM_CG_TEST_GO.reg then (if b 0 then s.cgTest else s)
  else if o = SBD_CTRL.reg then
    let s1 := if b 9 then s.doRollback iss else s
    if b 8 then s1.doRefresh iss else s1
  else if o = RED_VOTE_CTRL.reg then (if b 0 then s.doRevote (b 1) else s)
  else if o = HST_TAKEOVER.reg then (if b 0 then s.takeover else s)
  else if o = HST_CH0_CFG.reg then (if b 0 then s.openCh0 iss else s)
  else if o = RAS_REPLAY_VERDICT.reg then s.verdict iss (fget v 1 0) (fget v 31 16)
  else if o = RAS_SELFTEST.reg then (if b 0 then s.wantTest else s)
  else if o = SEC_AUTH_CTRL.reg then (if b 63 then s.authGo iss else s)
  else if o = SEC_QUOTE_CTRL.reg then (if b 0 then s.quoteGo else s)
  else if o = MGT_TELEM_GO.reg then (if b 0 then s.telem else s)
  else if o = PWR_THERM.reg then s.put PWR_POWER.EFFECTIVE s.effective
  else if 0x1000000 ≤ o ∧ o % 0x1000 = 0x48 then (if b 0 then s.numClear ((o - 0x1000000) / 0x1000) else s)
  else (((regIdx (TMAP_FENCE_REQ.reg 0) 64 32 o).map (fun ty => s.fenceReq ty (fget v 32 0))).orElse fun _ =>
    ((regIdx (LNK_PORT_CTRL.reg 0) 8 48 o).map (fun l =>
      let s1 := if b 0 then s.retrain l else s
      if b 1 then s1.fencePort l else s1)).orElse fun _ =>
    ((regIdx (SYN_CTX_STATE.reg 0) 8 16 o).map (fun x => if b 0 then s.ctxClear iss x else s))).getD s

/-- A register write by its place (R16): the access code and the state. -/
def State.regWriteAt (s : State) (iss : Issuer) (o : Nat) (v : Word) : Nat × State :=
  if o = GLB_RESET.reg then
    (if iss = .i3c then (accOk, if bit v.toNat 0 then s.resetWrite iss else s) else (accAccess, s.regRefusal iss o))
  else match s.regWhole iss o v with
    | some t => (accOk, t)
    | none =>
      if o = PWR_RT_CTRL.reg then (accOk, s.rtCtrlWrite iss v)
      else if o = WRD_CTRL.reg then (accOk, s.wrdCtrlWrite iss v)
      else if o = PWR_BUDGET.reg then
        let t := s.put PWR_BUDGET.BUDGET (max 0x320 (min 0x12C0 (fget v 15 0)))
        (accOk, t.put PWR_POWER.EFFECTIVE t.effective)
      else if o = PWR_LEND_CTRL.reg then
        (accOk, (s.fieldWrite iss o v [32]).put PWR_LEND_CTRL.WAKE_GAP (max 20 (fget v 47 32)))
      else if (regIdx (LNK_BUNDLE_CFG.reg 0) 8 6 o).any (fun d => s.inPackage d) then (accOk, s)
      else (accOk, (s.fieldWrite iss o v).regActs iss o v)

/-- The blocks that I3C reaches before Desk firmware runs (R443): GLB, PWR, SEC and MGT. -/
def earlyBlock (off : Nat) : Bool := regBlock off == 0 || regBlock off == 1 || regBlock off == 15 || regBlock off == 16

/-- Whether an issuer may access an offset now (R443). -/
def State.regAllowed (s : State) (iss : Issuer) (off : Nat) : Bool :=
  iss != .i3c || decide (2 ≤ s.get GLB_BOOT.STAGE) || earlyBlock off

/-- A write of a 64-bit word to a register offset (R8, R443). -/
def State.regWrite (s : State) (iss : Issuer) (off : Nat) (v : Word) : Nat × State :=
  if off % 8 ≠ 0 ∨ s.regAllowed iss off = false then (accAccess, s)
  else match s.regPlace off with
    | none => (accAddress, s)
    | some o => s.regWriteAt iss o v

/-- The word that a read of a register gives (Table 00.6): WO fields read zero, SH fields the value last written. -/
def State.regValue (s : State) (o : Nat) : Nat :=
  match regSpec o with
  | none => 0
  | some r => r.fields.foldl (fun a f =>
      let w := if f.acc = .sh then SMap.get s.shadow (s.word o) o else s.word o
      if f.acc = .wo then a else a + fget w f.hi f.lo * 2 ^ f.lo) 0

/-- A read of a register word (R8, R9, R443): the access code and the word. -/
def State.regRead (s : State) (iss : Issuer) (off : Nat) : Nat × Nat :=
  if off % 8 ≠ 0 ∨ s.regAllowed iss off = false then (accAccess, 0)
  else match s.regPlace off with
    | none => (accAddress, 0)
    | some o => (accOk, s.regValue o)

/-- REGISTER_WRITE (R480 to R483). I3C writes are discarded while a warm reset quiesces (Table 15.4), and no other die
reaches a register (Table 07.6). -/
def execRegisterWrite (iss : Issuer) (off : Nat) (v : Word) (s : State) : Out := act s fun s =>
  match iss with
  | .die _ => s
  | .i3c => if s.quiescing then s else (s.regWrite iss off v).2
  | _ => (s.regWrite iss off v).2

end Sys2Proof.Machine
end

