-- ==== Sys2Proof/Machine/Remote.lean ====
section
/-! DEFINITION. The board address space: memory commands of BCT, I3C frames, remote operations and their answers
(R179 to R183, R204 to R210, R332, R382, R393, R428, R456). -/

namespace Sys2Proof.Machine

/-- FABRIC_BUSY, which has no I3C status. -/
def accFabric : Nat := 6

/-! ## Operations of this die (R206, R382) -/

/-- Register accesses of a range, word by word, until one fails (R8, R382). -/
def State.regOps : Nat → State → Issuer → Nat → Nat → Option (List Byte) → List Byte → Nat × List Byte × State
  | 0, s, _, _, _, _, acc => (accOk, acc, s)
  | f + 1, s, iss, off, n, w, acc =>
    if n = 0 then (accOk, acc, s)
    else match w with
      | none =>
        let (c, x) := s.regRead iss off
        if c = accOk then State.regOps f s iss (off + 8) (n - 8) none (acc ++ leBytes 8 x) else (c, [], s)
      | some d =>
        let (c, t) := s.regWrite iss off (BitVec.ofNat 64 (leAt d 0 8))
        if c = accOk then State.regOps f t iss (off + 8) (n - 8) (some (d.drop 8)) acc else (c, [], t)

/-- One operation on this die: its code, the bytes read, and the state (R11, R181, R204). -/
def State.opLocal (s : State) (iss : Issuer) (a n : Nat) (w : Option (List Byte)) : Nat × List Byte × State :=
  if regBase ≤ a then State.regOps 33 s iss (a - regBase) n w []
  else match w with
    | none => match s.fetch false none a n with
      | none => (accAddress, [], s)
      | some (l, t) => (accOk, l, t)
    | some d =>
      if spBase ≤ a ∧ a < qstBase then
        let (c, t) := s.winWrite { tile := (a - spBase) / 0x100000, off := (a - spBase) % 0x100000, data := d, epoch := 0, window := 0, sender := none, tag := 0 }
        (if c = 0 then accOk else if c = 3 then accFabric else accAddress, [], t)
      else if qstBase ≤ a then (accAccess, [], s)
      else match s.store false a d with
        | none => (accAddress, [], s)
        | some t => (accOk, [], t)

/-- Where a board address leads (R205): `some 16` this die, `some d` die d, none an address error. -/
def State.boardPlace (s : State) (a : Nat) : Option Nat :=
  let die := a / 2 ^ 48
  if die ≠ 0 ∧ s.on WRD_BOARD.VALID = false then none
  else if s.ownDie die then some 16
  else if die < 16 ∧ (s.dieCoord die).isSome = true then some die
  else none

/-- ISSUER of an operation (R332). -/
def issuerCode : Issuer → Nat
  | .bct ch _ => 0x8000 + ch % 1024
  | .i3c => 0xC000
  | .desk c => 0x4000 + c
  | .die _ => 0

/-- The record of a remote operation that fails at an issuer other than a Bench (R207, R210), with the event bit. -/
def State.remoteRecord (s : State) (iss : Issuer) (f : Fld) (cls : Nat) : State :=
  let d := match iss with
    | .bct ch seq => ch + seq % 2 ^ 64 * 2 ^ 64
    | _ => 0xFFFF
  (s.setF f).raise (issTag iss) { unit := unitId 8 0xFFF, cls := cls, reason := 0x0600 + f.lo, ctx := 0, detail := d }

/-- Sends one operation to another die; an UNREACHABLE route is an address error (R320). -/
def State.ask (s : State) (iss : Issuer) (die a n : Nat) (w : Option (List Byte)) : Option State :=
  let tag := s.nextTag % 65536
  let head := leBytes 6 (a % 2 ^ 48) ++ leBytes 2 n ++ leBytes 2 tag ++ leBytes 2 (issuerCode iss)
  ((s.dieCoord die).bind (fun c => s.flp c (if w.isSome then 0x19 else 0x18) head (w.getD []))).map (fun t =>
    { t with nextTag := s.nextTag + 1, remote := t.remote ++
      [{ tag := tag, issuer := issuerCode iss, write := w.isSome, die := die, addr := a % 2 ^ 48, bytes := n, stamp := s.now,
         chan := (match iss with
           | .bct ch seq => some (ch, seq)
           | _ => none) }] })

/-- How far a request has come: bytes performed, bytes read, and its code once it has ended. -/
structure Xfer where
  prog : Nat
  data : List Byte
  code : Option Nat
  deriving DecidableEq, Repr

/-- Whether I3C must be turned away because Desk firmware does not run yet (R443). -/
def State.early (s : State) (iss : Issuer) (a : Nat) : Bool :=
  iss == .i3c && decide (s.get GLB_BOOT.STAGE < 2) && decide (a % 2 ^ 48 < regBase)

/-- A request goes on, operation by operation in ascending order, until it ends or waits for another die (R206, R208,
R382). `w` holds the bytes of a write. -/
def State.xfer : Nat → State → Issuer → Nat → Nat → Option (List Byte) → Nat → List Byte → State × Xfer
  | 0, s, _, _, _, _, prog, acc => (s, ⟨prog, acc, some accOk⟩)
  | f + 1, s, iss, addr, total, w, prog, acc =>
    let a := addr + prog
    let n := min (total - prog) (min 256 (512 - a % 512))
    let part := w.map (fun d => (d.drop prog).take n)
    if n = 0 then (s, ⟨prog, acc, some accOk⟩)
    else if s.early iss a then (s, ⟨prog, acc, some accAccess⟩)
    else match s.boardPlace a with
      | none => (s, ⟨prog, acc, some accAddress⟩)
      | some die =>
        if die = 16 then
          let (c, l, t) := s.opLocal iss (a % 2 ^ 48) n part
          if c = accOk then State.xfer f t iss addr total w (prog + n) (acc ++ l) else (t, ⟨prog, acc, some c⟩)
        else match s.ask iss die a n part with
          | none => (s.remoteRecord iss WRD_EVENT.REMOTE_ERROR 1, ⟨prog, acc, some accAddress⟩)
          | some t => (t, ⟨prog, acc, none⟩)

/-- Whether a range touches the register space without the alignment that R382 and R8 ask for. -/
def regMisfit (a n : Nat) : Bool := decide (regBase < a % 2 ^ 48 + n) && (a % 8 != 0 || n % 8 != 0)

/-- Whether a request to memories of this die cannot be performed yet: part of its range is being re-encoded, or its Shelf row
is in retention (R61, R160). -/
def State.mustWait (s : State) (write : Bool) (a n : Nat) : Bool :=
  s.boardPlace a == some 16 && decide (a % 2 ^ 48 < regBase) && s.held (write && decide (spBase ≤ a % 2 ^ 48)) (a % 2 ^ 48) n

/-! ## BCT memory commands (R382) -/

/-- The completion STATUS of a code (Table 13.5). -/
def bctStatus (c : Nat) : Nat := if c = 0 then 0 else if c = accAccess then 0x32 else if c = accTimeout then 0x33 else if c = accFabric then 0x34 else 0x31

/-- A memory command goes on from where it stands. RESULT of one that succeeds is not stated: a free value (log 1). -/
def State.bctXfer (s : State) (ch seq : Nat) : State :=
  match s.rec? ch seq with
  | none => s
  | some r =>
    let total := r.arg 8 2
    let (t, x) := State.xfer (total + 1) s (.bct ch seq) (r.arg 0 8) total (if r.op = 0x19 then some r.body else none) r.prog r.data
    match x.code with
    | none => t.modRec ch seq (fun r => { r with prog := x.prog, data := x.data })
    | some 0 => let (v, u) := t.draw; u.finish ch seq 0 (v % 2 ^ 64) x.data
    | some c => t.finish ch seq (bctStatus c) x.prog x.data

/-- Whether a memory command's arguments are in order, and its lengths. -/
def JRec.memArg (r : JRec) : Bool := r.zeros [(10, 38)] && decide (r.arg 0 8 < 2 ^ 52)
def State.memLen (s : State) (r : JRec) : Bool :=
  decide (1 ≤ r.arg 8 2) && decide (r.arg 8 2 ≤ s.bodyMax) && r.body.length == (if r.op = 0x19 then r.arg 8 2 else 0)

/-- Whether a memory command waits until its range can be accessed. -/
def State.memWaits (s : State) (r : JRec) : Bool := r.memArg && s.memLen r && s.mustWait (r.op == 0x19) (r.arg 0 8) (r.arg 8 2)

/-- A memory command starts. -/
def State.bctMem (s : State) (r : JRec) : State :=
  s.orReject r r.memArg (s.memLen r)
    (if regMisfit (r.arg 0 8) (r.arg 8 2) then s.finish r.ch r.seq 0x32 0 else s.bctXfer r.ch r.seq)

/-- BCT_MEM_READ; it starts once its range can be accessed. -/
def execBctMemRead (ch : Nat) (s : State) : Out := act s fun s => s.perform ch (fun r => r.op == 0x18 && !(s.memWaits r)) State.bctMem

/-- BCT_MEM_WRITE; it starts once its range can be accessed. -/
def execBctMemWrite (ch : Nat) (s : State) : Out := act s fun s => s.perform ch (fun r => r.op == 0x19 && !(s.memWaits r)) State.bctMem

/-! ## I3C frames (R456) -/

/-- A READ or WRITE frame ends. A read that fails returns zeros past the bytes it read (R8, R11, R207). FABRIC_BUSY has
no STATUS: the byte is a free value (log 1). -/
def State.i3cEnd (s : State) (write : Bool) (total code : Nat) (data : List Byte) : State :=
  let (x, t) := if code = accFabric then s.draw else (code, s)
  t.modSec (fun c => { c with op := none, status := x % 256, data := if write then [] else padTo total data })

/-- A frame goes on from where it stands. -/
def State.i3cXfer (s : State) : State :=
  match s.sec.op with
  | none => s
  | some (write, addr, total, prog, data) =>
    let (t, x) := State.xfer (total + 1) s .i3c addr total (if write then some data else none) prog (if write then [] else data)
    match x.code with
    | none => t.modSec (fun c => { c with op := some (write, addr, total, x.prog, if write then data else x.data) })
    | some code => t.i3cEnd write total code x.data

/-- A READ or WRITE frame arrives. -/
def State.i3cFrame (s : State) (write : Bool) (addr n : Nat) (data : List Byte) : State :=
  if s.sec.op.isSome then s.modSec (fun c => { c with status := 1 })
  else if n = 0 ∨ 4096 < n then s.modSec (fun c => { c with status := 5, data := [] })
  else if regMisfit addr n then s.i3cEnd write n accAccess []
  else (s.modSec (fun c => { c with op := some (write, addr, n, 0, data) })).i3cXfer

/-- Whether a frame that is in order waits until its range can be accessed. -/
def State.frameWaits (s : State) (write : Bool) (addr n : Nat) : Bool :=
  s.sec.op.isNone && decide (1 ≤ n) && decide (n ≤ 4096) && !(s.early .i3c addr) && s.mustWait write addr n

/-- I3C_READ. -/
def execI3cRead (addr len : Nat) (s : State) : Out := act s fun s => if s.frameWaits false addr len then s else s.i3cFrame false addr len []

/-- I3C_WRITE; discarded while a warm reset quiesces (Table 15.4). -/
def execI3cWrite (addr : Nat) (data : List Byte) (s : State) : Out := act s fun s =>
  if s.quiescing || s.frameWaits true addr data.length then s else s.i3cFrame true addr data.length data

/-- I3C_PRIVATE_READ: STATUS, LENGTH and the data, or BUSY with LENGTH 0. -/
def execI3cPrivateRead (s : State) : Out := act s fun s =>
  let out := if s.sec.op.isSome then [1, 0, 0] else leBytes 1 s.sec.status ++ leBytes 2 s.sec.data.length ++ s.sec.data
  s.modSec (fun c => { c with ccc := out })

/-! ## Operations that arrive from another die (R207, R332) -/

/-- Answers an operation to the device that sent it. -/
def State.answerTo (s : State) (src tag code : Nat) (data : List Byte) : State :=
  s.flpOr (unitId 3 0) 0 src 0x1A (leBytes 2 tag ++ leBytes 1 code ++ [0] ++ leBytes 2 data.length) data

/-- Whether an operation is one of Desk firmware's with the mirror or the Chest, which Table 07.6 does not govern. -/
def deskOp (iss : Nat) : Bool := iss == 0x43FE || iss == 0x43FD

/-- MEM_READ (R207, R393, R434): a read of the queue store, of registers or of the device-reserved Wardrobe is refused. -/
def execMemRead (m : MemOp) (s : State) : Out := act s fun s =>
  if deskOp m.issuer then
    let (c, l) := s.deskRead m.src m.issuer m.addr m.bytes
    s.answerTo m.src m.tag c l
  else if s.held false m.addr m.bytes then s
  else match (if m.addr < qstBase then s.fetch false none m.addr m.bytes else none) with
    | none => s.answerTo m.src m.tag 4 (List.replicate m.bytes 0)
    | some (l, t) => t.answerTo m.src m.tag 0 l

/-- The window of a Bench that a write from another die is judged against: an OPEN one of the write's epoch, before all
others one that holds every byte, then one that holds the first (log 42). -/
def State.windowOf (s : State) (p off n epoch : Nat) : Nat :=
  let live := (List.range 8).filter (fun w => s.on (BEN_WIN_STATE.OPEN p w) && s.get (BEN_WIN_STATE.EPOCH p w) == epoch)
  let lo := fun (w : Nat) => s.get (BEN_WIN_RANGE.OFFSET p w)
  let hi := fun (w : Nat) => s.get (BEN_WIN_RANGE.OFFSET p w) + s.get (BEN_WIN_RANGE.BYTES p w)
  match live.find? (fun w => decide (lo w ≤ off) && decide (off + n ≤ hi w)), live.find? (fun w => decide (lo w ≤ off) && decide (off < hi w)) with
  | some w, _ => w
  | none, some w => w
  | none, none => live.headD 0

/-- A write of another die to a scratchpad window (R179, R181). -/
def State.windowOp (s : State) (m : MemOp) : Nat × State :=
  let tile := (m.addr - spBase) / 0x100000
  let off := (m.addr - spBase) % 0x100000
  let die := ((List.range 16).find? (fun d => s.dieCoord d == some m.src)).getD 16
  match s.phys tile with
  | none => (4, s)
  | some p =>
    s.winWrite { tile := tile, off := off, data := m.data, epoch := m.epoch, window := s.windowOf p off m.data.length m.epoch,
                 sender := if m.issuer / 2 ^ 14 = 0 then some (die, m.issuer % 1024) else none, tag := m.tag }

/-- MEM_WRITE (R207, R393, R428). -/
def execMemWrite (m : MemOp) (s : State) : Out := act s fun s =>
  if deskOp m.issuer then
    let (c, t) := s.deskWrite m.src m.issuer m.addr m.data
    t.answerTo m.src m.tag c []
  else if s.held (decide (spBase ≤ m.addr)) m.addr m.data.length then s
  else if spBase ≤ m.addr ∧ m.addr < qstBase then
    let (c, t) := s.windowOp m
    t.answerTo m.src m.tag c []
  else match (if m.addr < qstBase then s.store false m.addr m.data else none) with
    | none => s.answerTo m.src m.tag 4 []
    | some t => t.answerTo m.src m.tag 0 []

/-! ## Answers and timeouts (R208, R210) -/

/-- An operation of a BCT command or of I3C has ended: the request goes on or ends with the code. -/
def State.remoteEnd (s : State) (op : RemoteOp) (code : Nat) (data : List Byte) : State :=
  match op.chan with
  | some (ch, seq) =>
    let t := s.modRec ch seq (fun r => if code = accOk then { r with prog := r.prog + op.bytes, data := r.data ++ data } else r)
    if code = accOk then t.bctXfer ch seq
    else match t.rec? ch seq with
      | none => t
      | some r => t.finish ch seq (bctStatus code) r.prog r.data
  | none =>
    match s.sec.op with
    | none => s
    | some (w, a, n, p, d) =>
      if code = accOk then (s.modSec (fun c => { c with op := some (w, a, n, p + op.bytes, if w then d else d ++ data) })).i3cXfer
      else s.i3cEnd w n code (if w then [] else d)

/-- The issuer of an operation, as a register write names it. -/
def RemoteOp.iss (op : RemoteOp) : Issuer :=
  match op.chan with
  | some (ch, seq) => .bct ch seq
  | none => .i3c

/-- MEM_RESP (R208): the answer completes its operation; one whose operation has timed out is discarded (R210). A quiet one
says that an abort or a load at the owner has closed the window (R182; log 64). -/
def execMemResp (tag : Nat) (x : MemStatus) (data : List Byte) (s : State) : Out := act s fun s =>
  let status := x.code
  match s.remote.find? (fun o => o.tag == tag % 65536) with
  | none => s
  | some op =>
    let rest := { s with remote := s.remote.erase op }
    if op.issuer = 0x43FE then
      (if op.write then (if status = 0 then rest else s.soloFlush)
       else if status = 0 ∧ op.addr = 0 ∧ s.get HST_TAKEOVER.STATE = 1 then rest.askLog (leAt data 0 8) (leAt data 8 8)
       else rest)
    else if op.issuer = 0x43FD then (if op.write then s.drainAnswer op status else s.fetchAnswer op status)
    else if op.issuer / 2 ^ 14 = 0 then (if status = 4 then s.setF WRD_EVENT.REMOTE_ERROR else s).benchAnswer op status (x.quiet && status == 1)
    else if status = 0 then rest.remoteEnd op accOk (if op.write then [] else padTo op.bytes data)
    else if status = 3 then rest.remoteEnd op accFabric []
    else (rest.remoteRecord op.iss WRD_EVENT.REMOTE_ERROR 1).remoteEnd op accAddress []

/-- REMOTE_OP_TIMEOUT (R210). An operation of this die itself needs no answer of another; mirror writes have their own
limit (R394). -/
def execRemoteOpTimeout (tag : Nat) (s : State) : Out := act s fun s =>
  match s.remote.find? (fun o => o.tag == tag % 65536) with
  | none => s
  | some op =>
    if s.now < op.stamp + s.get WRD_REMOTE_TIMEOUT.TICKS ∨ op.issuer = 0x43FE ∨ (op.issuer / 2 ^ 14 = 0 ∧ s.ownDie op.die = true) then s
    else if op.issuer = 0x43FD then s.buddySilent op
    else if op.issuer / 2 ^ 14 = 0 then (s.setF WRD_EVENT.REMOTE_TIMEOUT).benchAnswer op 5
    else
      let train := s.runNow.any (fun r => r.training)
      let s1 := ({ s with remote := s.remote.erase op } : State).remoteRecord op.iss WRD_EVENT.REMOTE_TIMEOUT (if train then 4 else 1)
      (if train then s1.contribute fRepeat else s1).remoteEnd op accTimeout []

end Sys2Proof.Machine
end

