-- ==== Sys2Proof/Machine/Dispatch.lean ====
section
/-! DEFINITION. One arm per command: the direct call of its meaning. -/

namespace Sys2Proof.Machine

def exec (i : Instr) (s : State) : Host.Outcome State Fault Refusal :=
  match i with
  | .registerWrite iss off v => Sys2Proof.Machine.execRegisterWrite iss off v s
  | .meshFlitHop stop out => Sys2Proof.Machine.execMeshFlitHop stop out s
  | .rsyncPulse => Sys2Proof.Machine.execRsyncPulse s
  | .slewStep => Sys2Proof.Machine.execSlewStep s
  | .rclkLost => Sys2Proof.Machine.execRclkLost s
  | .rclkReturn => Sys2Proof.Machine.execRclkReturn s
  | .powerWindow => Sys2Proof.Machine.execPowerWindow s
  | .lendStart p => Sys2Proof.Machine.execLendStart p s
  | .wakeSlot => Sys2Proof.Machine.execWakeSlot s
  | .wakeRampStep p => Sys2Proof.Machine.execWakeRampStep p s
  | .pwrFnEnable iss n => Sys2Proof.Machine.execPwrFnEnable iss n s
  | .pwrFnDisable iss n => Sys2Proof.Machine.execPwrFnDisable iss n s
  | .powerTransitionDone n => Sys2Proof.Machine.execPowerTransitionDone n s
  | .thermalSample tj => Sys2Proof.Machine.execThermalSample tj s
  | .thermtrip tj => Sys2Proof.Machine.execThermtrip tj s
  | .vddCoreChange mv => Sys2Proof.Machine.execVddCoreChange mv s
  | .railLoss => Sys2Proof.Machine.execRailLoss s
  | .loadGo iss staged => Sys2Proof.Machine.execLoadGo iss staged s
  | .loadVerifyDone => Sys2Proof.Machine.execLoadVerifyDone s
  | .loadClaimsOn => Sys2Proof.Machine.execLoadClaimsOn s
  | .loadPowerTimeout => Sys2Proof.Machine.execLoadPowerTimeout s
  | .loadWriteDone ue => Sys2Proof.Machine.execLoadWriteDone ue s
  | .boundaryToken tile route => Sys2Proof.Machine.execBoundaryToken tile route s
  | .benchDrained tile => Sys2Proof.Machine.execBenchDrained tile s
  | .boundaryComplete => Sys2Proof.Machine.execBoundaryComplete s
  | .tileClearDone => Sys2Proof.Machine.execTileClearDone s
  | .benchFlip tile => Sys2Proof.Machine.execBenchFlip tile s
  | .swapResume => Sys2Proof.Machine.execSwapResume s
  | .boundaryTimeout => Sys2Proof.Machine.execBoundaryTimeout s
  | .abort iss => Sys2Proof.Machine.execAbort iss s
  | .idleApply => Sys2Proof.Machine.execIdleApply s
  | .fenceRequest iss ty mask => Sys2Proof.Machine.execFenceRequest iss ty mask s
  | .stagerBlockTaken tile src => Sys2Proof.Machine.execStagerBlockTaken tile src s
  | .productStart tile => Sys2Proof.Machine.execProductStart tile s
  | .matrixBeat tile upset => Sys2Proof.Machine.execMatrixBeat tile upset s
  | .productDone tile => Sys2Proof.Machine.execProductDone tile s
  | .cgTest => Sys2Proof.Machine.execCgTest s
  | .numCounterClear tile => Sys2Proof.Machine.execNumCounterClear tile s
  | .prologueStart tile => Sys2Proof.Machine.execPrologueStart tile s
  | .epilogueStart tile => Sys2Proof.Machine.execEpilogueStart tile s
  | .deferredStart tile => Sys2Proof.Machine.execDeferredStart tile s
  | .vNop tile => Sys2Proof.Machine.execVNop tile s
  | .vEndr tile => Sys2Proof.Machine.execVEndr tile s
  | .vEndt tile => Sys2Proof.Machine.execVEndt tile s
  | .vAdd tile => Sys2Proof.Machine.execVAdd tile s
  | .vSub tile => Sys2Proof.Machine.execVSub tile s
  | .vMul tile => Sys2Proof.Machine.execVMul tile s
  | .vFma tile => Sys2Proof.Machine.execVFma tile s
  | .vMax tile => Sys2Proof.Machine.execVMax tile s
  | .vMin tile => Sys2Proof.Machine.execVMin tile s
  | .vAbs tile => Sys2Proof.Machine.execVAbs tile s
  | .vNeg tile => Sys2Proof.Machine.execVNeg tile s
  | .vCsel tile => Sys2Proof.Machine.execVCsel tile s
  | .vRint tile => Sys2Proof.Machine.execVRint tile s
  | .vXln tile => Sys2Proof.Machine.execVXln tile s
  | .vMov tile => Sys2Proof.Machine.execVMov tile s
  | .vDiv tile => Sys2Proof.Machine.execVDiv tile s
  | .vRcp tile => Sys2Proof.Machine.execVRcp tile s
  | .vSqrt tile => Sys2Proof.Machine.execVSqrt tile s
  | .vRsqrt tile => Sys2Proof.Machine.execVRsqrt tile s
  | .vExp2 tile => Sys2Proof.Machine.execVExp2 tile s
  | .vLog2 tile => Sys2Proof.Machine.execVLog2 tile s
  | .vSigm tile => Sys2Proof.Machine.execVSigm tile s
  | .vErf tile => Sys2Proof.Machine.execVErf tile s
  | .vTanh tile => Sys2Proof.Machine.execVTanh tile s
  | .vSinpi tile => Sys2Proof.Machine.execVSinpi tile s
  | .vCospi tile => Sys2Proof.Machine.execVCospi tile s
  | .vRsum tile => Sys2Proof.Machine.execVRsum tile s
  | .vRmax tile => Sys2Proof.Machine.execVRmax tile s
  | .vBcl tile => Sys2Proof.Machine.execVBcl tile s
  | .vPos tile => Sys2Proof.Machine.execVPos tile s
  | .vLdk tile => Sys2Proof.Machine.execVLdk tile s
  | .vRndu tile => Sys2Proof.Machine.execVRndu tile s
  | .vLd tile => Sys2Proof.Machine.execVLd tile s
  | .vLds tile => Sys2Proof.Machine.execVLds tile s
  | .vLda tile => Sys2Proof.Machine.execVLda tile s
  | .vSt tile => Sys2Proof.Machine.execVSt tile s
  | .vStg tile => Sys2Proof.Machine.execVStg tile s
  | .vSta tile => Sys2Proof.Machine.execVSta tile s
  | .vSpl tile => Sys2Proof.Machine.execVSpl tile s
  | .vAdda tile => Sys2Proof.Machine.execVAdda tile s
  | .scratchpadAccess p a => Sys2Proof.Machine.execScratchpadAccess p a s
  | .shelfAccess p a => Sys2Proof.Machine.execShelfAccess p a s
  | .patrolScrub shelf p off beat => Sys2Proof.Machine.execPatrolScrub shelf p off beat s
  | .reEncodeDone => Sys2Proof.Machine.execReEncodeDone s
  | .scoreboardStallEnd tile => Sys2Proof.Machine.execScoreboardStallEnd tile s
  | .descriptorTrigger tile => Sys2Proof.Machine.execDescriptorTrigger tile s
  | .copy tile => Sys2Proof.Machine.execCopy tile s
  | .openWindow tile => Sys2Proof.Machine.execOpenWindow tile s
  | .closeWindow tile => Sys2Proof.Machine.execCloseWindow tile s
  | .copyDone tile => Sys2Proof.Machine.execCopyDone tile s
  | .creditArrive tile cr => Sys2Proof.Machine.execCreditArrive tile cr s
  | .creditWriteSend tile => Sys2Proof.Machine.execCreditWriteSend tile s
  | .windowWrite w => Sys2Proof.Machine.execWindowWrite w s
  | .wrdPortPllLock p => Sys2Proof.Machine.execWrdPortPllLock p s
  | .wrdResetRelease p => Sys2Proof.Machine.execWrdResetRelease p s
  | .wrdZqStart p => Sys2Proof.Machine.execWrdZqStart p s
  | .wrdTrainDone p failStep => Sys2Proof.Machine.execWrdTrainDone p failStep s
  | .wrdClearDone p => Sys2Proof.Machine.execWrdClearDone p s
  | .wrdRefresh p => Sys2Proof.Machine.execWrdRefresh p s
  | .wrdMr4Read p rate hot => Sys2Proof.Machine.execWrdMr4Read p rate hot s
  | .wrdRfm p bank => Sys2Proof.Machine.execWrdRfm p bank s
  | .wrdZqRecal p drifted => Sys2Proof.Machine.execWrdZqRecal p drifted s
  | .wardrobeRead addr len errs ofRun linkCe linkRetry => Sys2Proof.Machine.execWardrobeRead addr len errs ofRun linkCe linkRetry s
  | .wardrobeWrite addr data upset => Sys2Proof.Machine.execWardrobeWrite addr data upset s
  | .wrdScrub p blk upset => Sys2Proof.Machine.execWrdScrub p blk upset s
  | .memRead m => Sys2Proof.Machine.execMemRead m s
  | .memWrite m => Sys2Proof.Machine.execMemWrite m s
  | .memResp tag status data => Sys2Proof.Machine.execMemResp tag status data s
  | .remoteOpTimeout tag => Sys2Proof.Machine.execRemoteOpTimeout tag s
  | .queueConfigWrite iss q v => Sys2Proof.Machine.execQueueConfigWrite iss q v s
  | .queueRingWrite iss q v => Sys2Proof.Machine.execQueueRingWrite iss q v s
  | .packetOpen q prod r => Sys2Proof.Machine.execPacketOpen q prod r s
  | .packetCommit q data => Sys2Proof.Machine.execPacketCommit q data s
  | .ringReturn q => Sys2Proof.Machine.execRingReturn q s
  | .ringReturnDone q => Sys2Proof.Machine.execRingReturnDone q s
  | .packetNotice q => Sys2Proof.Machine.execPacketNotice q s
  | .wordDeliver q tile read => Sys2Proof.Machine.execWordDeliver q tile read s
  | .packetTaken q => Sys2Proof.Machine.execPacketTaken q s
  | .endMarker q => Sys2Proof.Machine.execEndMarker q s
  | .queueFlushRequest iss mask => Sys2Proof.Machine.execQueueFlushRequest iss mask s
  | .queueFlush q => Sys2Proof.Machine.execQueueFlush q s
  | .sbdScan bucket ue => Sys2Proof.Machine.execSbdScan bucket ue s
  | .normPartial child sum => Sys2Proof.Machine.execNormPartial child sum s
  | .updateChunkDone ue => Sys2Proof.Machine.execUpdateChunkDone ue s
  | .sbdUpdateDone => Sys2Proof.Machine.execSbdUpdateDone s
  | .refreshDone => Sys2Proof.Machine.execRefreshDone s
  | .rollback iss => Sys2Proof.Machine.execRollback iss s
  | .sbdRefresh iss => Sys2Proof.Machine.execSbdRefresh iss s
  | .sbdBankTWrite iss b t => Sys2Proof.Machine.execSbdBankTWrite iss b t s
  | .lossEmaWrite iss valid => Sys2Proof.Machine.execLossEmaWrite iss valid s
  | .segmentSend c => Sys2Proof.Machine.execSegmentSend c s
  | .redData seg port => Sys2Proof.Machine.execRedData seg port s
  | .bucketNotice h => Sys2Proof.Machine.execBucketNotice h s
  | .exponentPass h => Sys2Proof.Machine.execExponentPass h s
  | .bucketDeadline bucket => Sys2Proof.Machine.execBucketDeadline bucket s
  | .voteContribute => Sys2Proof.Machine.execVoteContribute s
  | .voteUp child m => Sys2Proof.Machine.execVoteUp child m s
  | .voteOutcome m => Sys2Proof.Machine.execVoteOutcome m s
  | .revote iss mismatch => Sys2Proof.Machine.execRevote iss mismatch s
  | .confirm => Sys2Proof.Machine.execConfirm s
  | .voteTimeout => Sys2Proof.Machine.execVoteTimeout s
  | .gatherChunk h data ue => Sys2Proof.Machine.execGatherChunk h data ue s
  | .linkLanesLocked l => Sys2Proof.Machine.execLinkLanesLocked l s
  | .linkEqAdapted l => Sys2Proof.Machine.execLinkEqAdapted l s
  | .linkFrameLocked l => Sys2Proof.Machine.execLinkFrameLocked l s
  | .identFlit l id => Sys2Proof.Machine.execIdentFlit l id s
  | .linkTrainTimeout l => Sys2Proof.Machine.execLinkTrainTimeout l s
  | .retrainGapExpire l => Sys2Proof.Machine.execRetrainGapExpire l s
  | .portRetrain iss l => Sys2Proof.Machine.execPortRetrain iss l s
  | .portFence iss l => Sys2Proof.Machine.execPortFence iss l s
  | .portLogicError l => Sys2Proof.Machine.execPortLogicError l s
  | .dataFlit l raw fate => Sys2Proof.Machine.execDataFlit l raw fate s
  | .tunnelFlit l raw fec => Sys2Proof.Machine.execTunnelFlit l raw fec s
  | .nullFlit l raw fec => Sys2Proof.Machine.execNullFlit l raw fec s
  | .nakFlit l raw fec => Sys2Proof.Machine.execNakFlit l raw fec s
  | .flitSend l ch => Sys2Proof.Machine.execFlitSend l ch s
  | .ackTimeout l => Sys2Proof.Machine.execAckTimeout l s
  | .laneLockLost l ticks => Sys2Proof.Machine.execLaneLockLost l ticks s
  | .partnerSilent l ticks => Sys2Proof.Machine.execPartnerSilent l ticks s
  | .lnkCoordWrite iss torus v => Sys2Proof.Machine.execLnkCoordWrite iss torus v s
  | .lnkRouteWrite iss axis v => Sys2Proof.Machine.execLnkRouteWrite iss axis v s
  | .queueOpen src q port r => Sys2Proof.Machine.execQueueOpen src q port r s
  | .queueGrant src q => Sys2Proof.Machine.execQueueGrant src q s
  | .queueReject src q reason => Sys2Proof.Machine.execQueueReject src q reason s
  | .queueOpenRetry dev q => Sys2Proof.Machine.execQueueOpenRetry dev q s
  | .queueData src q data => Sys2Proof.Machine.execQueueData src q data s
  | .queueAbort src q => Sys2Proof.Machine.execQueueAbort src q s
  | .queueStallTimeout q => Sys2Proof.Machine.execQueueStallTimeout q s
  | .streamBlock h data => Sys2Proof.Machine.execStreamBlock h data s
  | .streamToken h => Sys2Proof.Machine.execStreamToken h s
  | .streamCredit src tile entry mb count => Sys2Proof.Machine.execStreamCredit src tile entry mb count s
  | .linkStatus d up => Sys2Proof.Machine.execLinkStatus d up s
  | .tunnel d td te hop records frame => Sys2Proof.Machine.execTunnel d td te hop records frame s
  | .arrive cell tag count req => Sys2Proof.Machine.execArrive cell tag count req s
  | .wait cell tag req => Sys2Proof.Machine.execWait cell tag req s
  | .arriveWait cell tag req => Sys2Proof.Machine.execArriveWait cell tag req s
  | .clear cell req => Sys2Proof.Machine.execClear cell req s
  | .syncRelease stop cell => Sys2Proof.Machine.execSyncRelease stop cell s
  | .remoteSyncOp src m => Sys2Proof.Machine.execRemoteSyncOp src m s
  | .syncAnswer src m => Sys2Proof.Machine.execSyncAnswer src m s
  | .syncWaitTimeout req => Sys2Proof.Machine.execSyncWaitTimeout req s
  | .synCtxClear iss x => Sys2Proof.Machine.execSynCtxClear iss x s
  | .synDbgSelWrite iss cell => Sys2Proof.Machine.execSynDbgSelWrite iss cell s
  | .synDbgFind iss ctx vid => Sys2Proof.Machine.execSynDbgFind iss ctx vid s
  | .ethFrame e frame fcsGood => Sys2Proof.Machine.execEthFrame e frame fcsGood s
  | .arpNd e frame => Sys2Proof.Machine.execArpNd e frame s
  | .ethPortUp e => Sys2Proof.Machine.execEthPortUp e s
  | .ethPortDown e => Sys2Proof.Machine.execEthPortDown e s
  | .commandCopy cp => Sys2Proof.Machine.execCommandCopy cp s
  | .mirrorWriteDone ch seq => Sys2Proof.Machine.execMirrorWriteDone ch seq s
  | .mirrorTimeout => Sys2Proof.Machine.execMirrorTimeout s
  | .bctNop ch => Sys2Proof.Machine.execBctNop ch s
  | .chOpen ch => Sys2Proof.Machine.execChOpen ch s
  | .chClose ch => Sys2Proof.Machine.execChClose ch s
  | .chCloseFinish c => Sys2Proof.Machine.execChCloseFinish c s
  | .run ch => Sys2Proof.Machine.execRun ch s
  | .bctAbort ch => Sys2Proof.Machine.execBctAbort ch s
  | .bctLoad ch => Sys2Proof.Machine.execBctLoad ch s
  | .bctMemRead ch => Sys2Proof.Machine.execBctMemRead ch s
  | .bctMemWrite ch => Sys2Proof.Machine.execBctMemWrite ch s
  | .queuePush ch => Sys2Proof.Machine.execQueuePush ch s
  | .bctSync ch => Sys2Proof.Machine.execBctSync ch s
  | .snapshot ch => Sys2Proof.Machine.execSnapshot ch s
  | .restoreFull ch => Sys2Proof.Machine.execRestoreFull ch s
  | .restoreSpare ch => Sys2Proof.Machine.execRestoreSpare ch s
  | .spareFetchDone slot => Sys2Proof.Machine.execSpareFetchDone slot s
  | .restoreRejoin ch => Sys2Proof.Machine.execRestoreRejoin ch s
  | .quote ch => Sys2Proof.Machine.execQuote ch s
  | .authorize ch => Sys2Proof.Machine.execAuthorize ch s
  | .eventResend ch => Sys2Proof.Machine.execEventResend ch s
  | .ch0Open iss => Sys2Proof.Machine.execCh0Open iss s
  | .buddyWrite iss v => Sys2Proof.Machine.execBuddyWrite iss v s
  | .remirrorDone => Sys2Proof.Machine.execRemirrorDone s
  | .takeoverGo iss => Sys2Proof.Machine.execTakeoverGo iss s
  | .takeoverFetchDone table log head tail => Sys2Proof.Machine.execTakeoverFetchDone table log head tail s
  | .takeoverRestoreDone => Sys2Proof.Machine.execTakeoverRestoreDone s
  | .errorEvent ev => Sys2Proof.Machine.execErrorEvent ev s
  | .latchForward => Sys2Proof.Machine.execLatchForward s
  | .errorRecordRemove => Sys2Proof.Machine.execErrorRecordRemove s
  | .rasLogSelWrite iss k => Sys2Proof.Machine.execRasLogSelWrite iss k s
  | .replayVerdict iss verdict firstRun => Sys2Proof.Machine.execReplayVerdict iss verdict firstRun s
  | .selftestGo iss => Sys2Proof.Machine.execSelftestGo iss s
  | .selftestPeriodExpire => Sys2Proof.Machine.execSelftestPeriodExpire s
  | .selftestRun => Sys2Proof.Machine.execSelftestRun s
  | .selftestDone failed => Sys2Proof.Machine.execSelftestDone failed s
  | .cowWrite granule addr data => Sys2Proof.Machine.execCowWrite granule addr data s
  | .granuleCopy ue => Sys2Proof.Machine.execGranuleCopy ue s
  | .chestDrain => Sys2Proof.Machine.execChestDrain s
  | .fwPush off data => Sys2Proof.Machine.execFwPush off data s
  | .fwStart => Sys2Proof.Machine.execFwStart s
  | .fwVerifyDone => Sys2Proof.Machine.execFwVerifyDone s
  | .i3cRead addr len => Sys2Proof.Machine.execI3cRead addr len s
  | .i3cWrite addr data => Sys2Proof.Machine.execI3cWrite addr data s
  | .i3cPrivateRead => Sys2Proof.Machine.execI3cPrivateRead s
  | .enec ev => Sys2Proof.Machine.execEnec ev s
  | .disec ev => Sys2Proof.Machine.execDisec ev s
  | .entdaa addr => Sys2Proof.Machine.execEntdaa addr s
  | .rstdaa => Sys2Proof.Machine.execRstdaa s
  | .setnewda addr => Sys2Proof.Machine.execSetnewda addr s
  | .setmwl n => Sys2Proof.Machine.execSetmwl n s
  | .setmrl n => Sys2Proof.Machine.execSetmrl n s
  | .getmwl => Sys2Proof.Machine.execGetmwl s
  | .getmrl => Sys2Proof.Machine.execGetmrl s
  | .getpid => Sys2Proof.Machine.execGetpid s
  | .getbcr => Sys2Proof.Machine.execGetbcr s
  | .getdcr => Sys2Proof.Machine.execGetdcr s
  | .getstatus => Sys2Proof.Machine.execGetstatus s
  | .rstact action => Sys2Proof.Machine.execRstact action s
  | .fwpushCcc off data => Sys2Proof.Machine.execFwpushCcc off data s
  | .fwstartCcc => Sys2Proof.Machine.execFwstartCcc s
  | .coldResetRelease slot => Sys2Proof.Machine.execColdResetRelease slot s
  | .coldResetAssert => Sys2Proof.Machine.execColdResetAssert s
  | .warmResetPin lowNs => Sys2Proof.Machine.execWarmResetPin lowNs s
  | .glbResetWarm iss => Sys2Proof.Machine.execGlbResetWarm iss s
  | .warmResetQuiesced => Sys2Proof.Machine.execWarmResetQuiesced s
  | .warmRecoveryDone failedPorts => Sys2Proof.Machine.execWarmRecoveryDone failedPorts s
  | .authGo iss => Sys2Proof.Machine.execAuthGo iss s
  | .authPendingExpire => Sys2Proof.Machine.execAuthPendingExpire s
  | .quoteGo iss => Sys2Proof.Machine.execQuoteGo iss s
  | .quoteDone => Sys2Proof.Machine.execQuoteDone s
  | .mgtRoleWrite iss role => Sys2Proof.Machine.execMgtRoleWrite iss role s
  | .telemCapture iss => Sys2Proof.Machine.execTelemCapture iss s
  | .synOpWrite iss slot v => Sys2Proof.Machine.execSynOpWrite iss slot v s
  | .bctReservedOpcode ch => Sys2Proof.Machine.execBctReservedOpcode ch s

end Sys2Proof.Machine
end

