-- ==== Sys2Proof/WellFormed.lean ====
section
/-! DEFINITION. Which commands the die can be sent: every operand within the range the manual gives it. -/

namespace Sys2Proof

/-- A logical tile, 32 ty + tx (R17). -/
def okTile (t : Nat) : Bool := decide (t < 1024)

/-- A physical Bench, 33 row + column (Table 00.3). -/
def okBench (p : Nat) : Bool := decide (p < 1056)

/-- A chip-to-chip link (Table 00.3). -/
def okLink (l : Nat) : Bool := decide (l < 48)

/-- A link bundle, one for each of the six directions (R302). -/
def okBundle (d : Nat) : Bool := decide (d < 6)

/-- A hardware queue, 0 to 63 (Table 08.1). -/
def okQueue (q : Nat) : Bool := decide (q < 64)

/-- A command channel, 0 to 1,023 (Table 13.3). -/
def okChan (c : Nat) : Bool := decide (c < 1024)

/-- An Ethernet port (R363, R364). -/
def okEth (e : Nat) : Bool := decide (e < 8)

/-- A Wardrobe port (R184). -/
def okPort (p : Nat) : Bool := decide (p < 32)

/-- A sync cell (R338). -/
def okCell (c : Nat) : Bool := decide (c < 4096)

/-- A number of `n` bits. -/
def okBits (n x : Nat) : Bool := decide (x < 2 ^ n)

/-- A power function number (Table 02.4). -/
def okFn (n : Nat) : Bool := decide (n < 192)

/-- A reduction channel (Table 10.1). -/
def okRed (c : Nat) : Bool := decide (c < 16)

/-- Who makes a write: a channel, I3C, one of the Desk's eight cores, a die of the board. -/
def Issuer.ok : Issuer → Bool
  | .bct ch _ => okChan ch
  | .i3c => true
  | .desk c => okBits 3 c
  | .die d => okBits 4 d

/-- An access of a scratchpad or a Shelf slice: one of four sources, and data of the length it states. -/
def Access.ok (a : Access) : Bool :=
  decide (a.src < 4) && decide (0 < a.len) && a.wdata.all (fun d => d.length == a.len) && a.wide.all (fun g => decide (g < 3)) &&
  a.rivals.all (fun r => decide (r < 4)) && a.back.all okBench

/-- A credit names a tile and a window of the sender's die. -/
def Credit.ok (c : Credit) : Bool := okBits 4 c.die && okTile c.tile && okBits 16 c.window && okBits 32 c.epoch

/-- A write of 1 to 256 bytes to a scratchpad window (R179). -/
def WinWrite.ok (w : WinWrite) : Bool := okTile w.tile && decide (0 < w.data.length) && decide (w.data.length ≤ 256)

/-- A board-memory operation of 1 to 256 bytes (R332); a READ carries no data. -/
def MemOp.ok (m : MemOp) : Bool := decide (0 < m.bytes) && decide (m.bytes ≤ 256) && okBits 48 m.addr && okBits 16 m.tag

/-- The producer of a packet. -/
def Producer.ok : Producer → Bool
  | .link p d => okLink p && okBits 16 d
  | .bct ch => okChan ch
  | .bench t => okTile t

/-- A packet of at most 1,024 words (R219). -/
def OpenReq.ok (r : OpenReq) : Bool := decide (r.words ≤ 1024) && okBits 32 r.step && okBits 32 r.mb && okBits 32 r.tokens

/-- A bucket header of Table 10.2. -/
def BucketHdr.ok (h : BucketHdr) : Bool := okBits 8 h.kind && okRed h.channel && okBits 32 h.step && okBits 32 h.attempt

/-- A vote message of Table 10.3. -/
def VoteMsg.ok (m : VoteMsg) : Bool := okBits 32 m.step && okBits 32 m.attempt && okBits 8 m.kind && okBits 8 m.flags

/-- A stream packet names tiles of the sender and of this die. -/
def StreamHdr.ok (h : StreamHdr) : Bool := okBits 16 h.src && okTile h.tile && okTile h.srcTile && okBits 8 h.entry

/-- A sync message of Table 12.6. -/
def SyncMsg.ok (m : SyncMsg) : Bool := decide (m.op ≤ 6) && okBits 2 m.tag && okBits 4 m.ctx && okBits 16 m.vid && okCell m.cell

/-- A command is well formed: each of its operands is one that the manual allows. -/
def Instr.wf : Instr → Bool
  | .registerWrite iss off _ => iss.ok && okBits 32 off && off % 8 == 0
  | .meshFlitHop stop _ => okBench stop
  | .rsyncPulse => true
  | .slewStep => true
  | .rclkLost => true
  | .rclkReturn => true
  | .powerWindow => true
  | .lendStart p => okBench p
  | .wakeSlot => true
  | .wakeRampStep p => okBench p
  | .pwrFnEnable iss n => iss.ok && okFn n
  | .pwrFnDisable iss n => iss.ok && okFn n
  | .powerTransitionDone n => okFn n
  | .thermalSample _ => true
  | .thermtrip _ => true
  | .vddCoreChange mv => okBits 16 mv
  | .railLoss => true
  | .loadGo iss _ => iss.ok
  | .loadVerifyDone => true
  | .loadClaimsOn => true
  | .loadPowerTimeout => true
  | .loadWriteDone _ => true
  | .boundaryToken tile route => okTile tile && okBits 6 route
  | .benchDrained tile => okTile tile
  | .boundaryComplete => true
  | .tileClearDone => true
  | .benchFlip tile => okTile tile
  | .swapResume => true
  | .boundaryTimeout => true
  | .abort iss => iss.ok
  | .idleApply => true
  | .fenceRequest iss ty mask => iss.ok && okBits 5 ty && okBits 33 mask
  | .stagerBlockTaken tile src => okTile tile && okBits 3 src
  | .productStart tile => okTile tile
  | .matrixBeat tile _ => okTile tile
  | .productDone tile => okTile tile
  | .cgTest => true
  | .numCounterClear tile => okTile tile
  | .prologueStart tile => okTile tile
  | .epilogueStart tile => okTile tile
  | .deferredStart tile => okTile tile
  | .vNop tile => okTile tile
  | .vEndr tile => okTile tile
  | .vEndt tile => okTile tile
  | .vAdd tile => okTile tile
  | .vSub tile => okTile tile
  | .vMul tile => okTile tile
  | .vFma tile => okTile tile
  | .vMax tile => okTile tile
  | .vMin tile => okTile tile
  | .vAbs tile => okTile tile
  | .vNeg tile => okTile tile
  | .vCsel tile => okTile tile
  | .vRint tile => okTile tile
  | .vXln tile => okTile tile
  | .vMov tile => okTile tile
  | .vDiv tile => okTile tile
  | .vRcp tile => okTile tile
  | .vSqrt tile => okTile tile
  | .vRsqrt tile => okTile tile
  | .vExp2 tile => okTile tile
  | .vLog2 tile => okTile tile
  | .vSigm tile => okTile tile
  | .vErf tile => okTile tile
  | .vTanh tile => okTile tile
  | .vSinpi tile => okTile tile
  | .vCospi tile => okTile tile
  | .vRsum tile => okTile tile
  | .vRmax tile => okTile tile
  | .vBcl tile => okTile tile
  | .vPos tile => okTile tile
  | .vLdk tile => okTile tile
  | .vRndu tile => okTile tile
  | .vLd tile => okTile tile
  | .vLds tile => okTile tile
  | .vLda tile => okTile tile
  | .vSt tile => okTile tile
  | .vStg tile => okTile tile
  | .vSta tile => okTile tile
  | .vSpl tile => okTile tile
  | .vAdda tile => okTile tile
  | .scratchpadAccess p a => okBench p && a.ok
  | .shelfAccess p a => okBench p && a.ok
  | .patrolScrub _ p _ _ => okBench p
  | .reEncodeDone => true
  | .scoreboardStallEnd tile => okTile tile
  | .descriptorTrigger tile => okTile tile
  | .copy tile => okTile tile
  | .openWindow tile => okTile tile
  | .closeWindow tile => okTile tile
  | .copyDone tile => okTile tile
  | .creditArrive tile cr => okTile tile && cr.ok
  | .creditWriteSend tile => okTile tile
  | .windowWrite w => w.ok
  | .wrdPortPllLock p => okPort p
  | .wrdResetRelease p => okPort p
  | .wrdZqStart p => okPort p
  | .wrdTrainDone p failStep => okPort p && failStep.all (fun k => okBits 3 k)
  | .wrdClearDone p => okPort p
  | .wrdRefresh p => okPort p
  | .wrdMr4Read p rate _ => okPort p && okBits 3 rate
  | .wrdRfm p bank => okPort p && okBits 6 bank
  | .wrdZqRecal p _ => okPort p
  | .wardrobeRead addr len _ _ _ _ => okBits 48 addr && decide (0 < len)
  | .wardrobeWrite addr data _ => okBits 48 addr && decide (0 < data.length)
  | .wrdScrub p _ _ => okPort p
  | .memRead m => m.ok && m.data.isEmpty
  | .memWrite m => m.ok && m.data.length == m.bytes
  | .memResp tag status data => okBits 16 tag && okBits 8 status.code && decide (data.length ≤ 256)
  | .remoteOpTimeout tag => okBits 16 tag
  | .queueConfigWrite iss q _ => iss.ok && okQueue q
  | .queueRingWrite iss q _ => iss.ok && okQueue q
  | .packetOpen q prod r => okQueue q && prod.ok && r.ok
  | .packetCommit q _ => okQueue q
  | .ringReturn q => okQueue q
  | .ringReturnDone q => okQueue q
  | .packetNotice q => okQueue q
  | .wordDeliver q tile _ => okQueue q && okTile tile
  | .packetTaken q => okQueue q
  | .endMarker q => okQueue q
  | .queueFlushRequest iss _ => iss.ok
  | .queueFlush q => okQueue q
  | .sbdScan bucket _ => okBits 16 bucket
  | .normPartial _ sum => okBits 512 sum
  | .updateChunkDone _ => true
  | .sbdUpdateDone => true
  | .refreshDone => true
  | .rollback iss => iss.ok
  | .sbdRefresh iss => iss.ok
  | .sbdBankTWrite iss b t => iss.ok && okBits 1 b && okBits 32 t
  | .lossEmaWrite iss _ => iss.ok
  | .segmentSend c => okRed c
  | .redData seg port => seg.hdr.ok && okBits 3 port
  | .bucketNotice h => h.ok
  | .exponentPass h => h.ok
  | .bucketDeadline bucket => okBits 16 bucket
  | .voteContribute => true
  | .voteUp _ m => m.ok
  | .voteOutcome m => m.ok
  | .revote iss _ => iss.ok
  | .confirm => true
  | .voteTimeout => true
  | .gatherChunk h _ _ => h.ok
  | .linkLanesLocked l => okLink l
  | .linkEqAdapted l => okLink l
  | .linkFrameLocked l => okLink l
  | .identFlit l id => okLink l && okBits 3 id.dir && okBits 3 id.pos
  | .linkTrainTimeout l => okLink l
  | .retrainGapExpire l => okLink l
  | .portRetrain iss l => iss.ok && okLink l
  | .portFence iss l => iss.ok && okLink l
  | .portLogicError l => okLink l
  | .dataFlit l raw _ => okLink l && raw.length == 256
  | .tunnelFlit l raw _ => okLink l && raw.length == 256
  | .nullFlit l raw _ => okLink l && raw.length == 256
  | .nakFlit l raw _ => okLink l && raw.length == 256
  | .flitSend l ch => okLink l && decide (ch < 9)
  | .ackTimeout l => okLink l
  | .laneLockLost l _ => okLink l
  | .partnerSilent l _ => okLink l
  | .lnkCoordWrite iss _ _ => iss.ok
  | .lnkRouteWrite iss axis _ => iss.ok && decide (axis < 3)
  | .queueOpen src q port r => okBits 16 src && okQueue q && okLink port && r.ok
  | .queueGrant src q => okBits 16 src && okQueue q
  | .queueReject src q reason => okBits 16 src && okQueue q && okBits 1 reason
  | .queueOpenRetry dev q => okBits 16 dev && okQueue q
  | .queueData src q data => okBits 16 src && okQueue q && data.length % 64 == 0 && decide (data.length ≤ 4096)
  | .queueAbort src q => okBits 16 src && okQueue q
  | .queueStallTimeout q => okQueue q
  | .streamBlock h _ => h.ok
  | .streamToken h => h.ok
  | .streamCredit src tile entry mb count => okBits 16 src && okTile tile && okBits 8 entry && okBits 32 mb && okBits 8 count
  | .linkStatus d up => okBundle d && okBits 8 up
  | .tunnel d td te hop l f => okBundle d && okBits 8 td && okBits 8 te && okBits 8 hop && okBits 8 f.count && f.header.length == 16 &&
      decide (l.length ≤ 4096)
  | .arrive cell tag count req => okCell cell && okBits 2 tag && decide (0 < count) && decide (count ≤ 4096) && okBits 16 req
  | .wait cell tag req => okCell cell && okBits 2 tag && okBits 16 req
  | .arriveWait cell tag req => okCell cell && okBits 2 tag && okBits 16 req
  | .clear cell req => okCell cell && okBits 16 req
  | .syncRelease stop cell => okBench stop && okCell cell
  | .remoteSyncOp src m => okBits 4 src && m.ok
  | .syncAnswer src m => okBits 4 src && m.ok
  | .syncWaitTimeout req => okBits 16 req
  | .synCtxClear iss x => iss.ok && okBits 4 x
  | .synDbgSelWrite iss cell => iss.ok && okCell cell
  | .synDbgFind iss ctx vid => iss.ok && okBits 4 ctx && okBits 16 vid
  | .ethFrame e frame _ => okEth e && decide (14 ≤ frame.length)
  | .arpNd e frame => okEth e && decide (14 ≤ frame.length)
  | .ethPortUp e => okEth e
  | .ethPortDown e => okEth e
  | .commandCopy cp => okEth cp.port
  | .mirrorWriteDone ch _ => okChan ch
  | .mirrorTimeout => true
  | .bctNop ch => okChan ch
  | .chOpen ch => okChan ch
  | .chClose ch => okChan ch
  | .chCloseFinish c => okChan c
  | .run ch => okChan ch
  | .bctAbort ch => okChan ch
  | .bctLoad ch => okChan ch
  | .bctMemRead ch => okChan ch
  | .bctMemWrite ch => okChan ch
  | .queuePush ch => okChan ch
  | .bctSync ch => okChan ch
  | .snapshot ch => okChan ch
  | .restoreFull ch => okChan ch
  | .restoreSpare ch => okChan ch
  | .spareFetchDone _ => true
  | .restoreRejoin ch => okChan ch
  | .quote ch => okChan ch
  | .authorize ch => okChan ch
  | .eventResend ch => okChan ch
  | .ch0Open iss => iss.ok
  | .buddyWrite iss _ => iss.ok
  | .remirrorDone => true
  | .takeoverGo iss => iss.ok
  | .takeoverFetchDone _ _ head tail => decide (head ≤ tail)
  | .takeoverRestoreDone => true
  | .errorEvent ev => okBits 16 ev.unit && okBits 16 ev.reason && okBits 3 ev.cls && okBits 128 ev.detail
  | .latchForward => true
  | .errorRecordRemove => true
  | .rasLogSelWrite iss _ => iss.ok
  | .replayVerdict iss verdict firstRun => iss.ok && okBits 2 verdict && okBits 16 firstRun
  | .selftestGo iss => iss.ok
  | .selftestPeriodExpire => true
  | .selftestRun => true
  | .selftestDone failed => failed.all okBench
  | .cowWrite _ addr _ => okBits 48 addr
  | .granuleCopy _ => true
  | .chestDrain => true
  | .fwPush off data => okBits 21 off && decide (0 < data.length)
  | .fwStart => true
  | .fwVerifyDone => true
  | .i3cRead addr len => okBits 52 addr && decide (len ≤ 4096)
  | .i3cWrite addr data => okBits 52 addr && decide (data.length ≤ 4096)
  | .i3cPrivateRead => true
  | .enec ev => okBits 8 ev
  | .disec ev => okBits 8 ev
  | .entdaa addr => okBits 7 addr
  | .rstdaa => true
  | .setnewda addr => okBits 7 addr
  | .setmwl n => okBits 16 n
  | .setmrl n => okBits 16 n
  | .getmwl => true
  | .getmrl => true
  | .getpid => true
  | .getbcr => true
  | .getdcr => true
  | .getstatus => true
  | .rstact action => okBits 8 action
  | .fwpushCcc off data => okBits 21 off && decide (0 < data.length)
  | .fwstartCcc => true
  | .coldResetRelease slot => okBits 8 slot
  | .coldResetAssert => true
  | .warmResetPin _ => true
  | .glbResetWarm iss => iss.ok
  | .warmResetQuiesced => true
  | .warmRecoveryDone failedPorts => failedPorts.all okPort
  | .authGo iss => iss.ok
  | .authPendingExpire => true
  | .quoteGo iss => iss.ok
  | .quoteDone => true
  | .mgtRoleWrite iss role => iss.ok && okBits 2 role
  | .telemCapture iss => iss.ok
  | .synOpWrite iss slot _ => iss.ok && decide (slot < 9)
  | .bctReservedOpcode ch => okChan ch

end Sys2Proof
end

