-- ==== Sys2Proof/Safety.lean ====
section
/-! DEFINITION. The terms in which claims are stated: a die that runs, what a row leaves unchanged, and the states that
no run leaves. -/

namespace Sys2Proof.Machine

/-- The die runs: COLD_RESET_N is high and the rails are in range. -/
abbrev State.live (s : State) : Prop := s.railsOk = true ∧ s.coldLow = false

/-- The parts of the state, one for each field. -/
inductive Part where
  | pending | regs | shadow | boardPending | wrd | shelf | sp | qst | drw | sram
  | bad | coldLow | railsOk | dip | tripped | pwr | mesh | load | resident | staged
  | fab | benches | wports | remote | nextTag | queues | upd | red | links | bundles
  | lnkIn | opens | cells | waits | slots | hst | ras | ckp | sec | freeCtr
  deriving DecidableEq, Repr

/-- A state with the named parts put to their value at reset. -/
def State.without (l : List Part) (s : State) : State where
  pending := if l.contains .pending then State.reset.pending else s.pending
  regs := if l.contains .regs then State.reset.regs else s.regs
  shadow := if l.contains .shadow then State.reset.shadow else s.shadow
  boardPending := if l.contains .boardPending then State.reset.boardPending else s.boardPending
  wrd := if l.contains .wrd then State.reset.wrd else s.wrd
  shelf := if l.contains .shelf then State.reset.shelf else s.shelf
  sp := if l.contains .sp then State.reset.sp else s.sp
  qst := if l.contains .qst then State.reset.qst else s.qst
  drw := if l.contains .drw then State.reset.drw else s.drw
  sram := if l.contains .sram then State.reset.sram else s.sram
  bad := if l.contains .bad then State.reset.bad else s.bad
  coldLow := if l.contains .coldLow then State.reset.coldLow else s.coldLow
  railsOk := if l.contains .railsOk then State.reset.railsOk else s.railsOk
  dip := if l.contains .dip then State.reset.dip else s.dip
  tripped := if l.contains .tripped then State.reset.tripped else s.tripped
  pwr := if l.contains .pwr then State.reset.pwr else s.pwr
  mesh := if l.contains .mesh then State.reset.mesh else s.mesh
  load := if l.contains .load then State.reset.load else s.load
  resident := if l.contains .resident then State.reset.resident else s.resident
  staged := if l.contains .staged then State.reset.staged else s.staged
  fab := if l.contains .fab then State.reset.fab else s.fab
  benches := if l.contains .benches then State.reset.benches else s.benches
  wports := if l.contains .wports then State.reset.wports else s.wports
  remote := if l.contains .remote then State.reset.remote else s.remote
  nextTag := if l.contains .nextTag then State.reset.nextTag else s.nextTag
  queues := if l.contains .queues then State.reset.queues else s.queues
  upd := if l.contains .upd then State.reset.upd else s.upd
  red := if l.contains .red then State.reset.red else s.red
  links := if l.contains .links then State.reset.links else s.links
  bundles := if l.contains .bundles then State.reset.bundles else s.bundles
  lnkIn := if l.contains .lnkIn then State.reset.lnkIn else s.lnkIn
  opens := if l.contains .opens then State.reset.opens else s.opens
  cells := if l.contains .cells then State.reset.cells else s.cells
  waits := if l.contains .waits then State.reset.waits else s.waits
  slots := if l.contains .slots then State.reset.slots else s.slots
  hst := if l.contains .hst then State.reset.hst else s.hst
  ras := if l.contains .ras then State.reset.ras else s.ras
  ckp := if l.contains .ckp then State.reset.ckp else s.ckp
  sec := if l.contains .sec then State.reset.sec else s.sec
  freeCtr := if l.contains .freeCtr then State.reset.freeCtr else s.freeCtr

/-- `t` is `s` in every part but those named. -/
def Same (l : List Part) (s t : State) : Prop := s.without l = t.without l

/-- Every register outside a set reads in `t` as it reads in `s`. -/
def RegsBut (p : Nat → Prop) (s t : State) : Prop := ∀ o, ¬ p o → t.word o = s.word o

/-- The registers of a block (R402). -/
def regsOf (b : Nat) (o : Nat) : Prop := regBlock o = b

/-- An event of a unit has reached its latch between `s` and `t` (R400, R403): its class counts one event more, and the
latch holds a record. -/
def Raised (unit : Nat) (s t : State) : Prop :=
  t.get (RAS_EVENT_TOTAL.COUNT (unit / 4096)) = min (2 ^ 48 - 1) (s.get (RAS_EVENT_TOTAL.COUNT (unit / 4096)) + 1) ∧
  (SMap.find? t.ras.latches unit).isSome = true

/-- Lane `j` of a V register of a physical Bench, as its 40 bits. -/
def State.lane (s : State) (p reg j : Nat) : Nat := (SMap.get (s.bench p).vreg 0 (32 * reg + j)).toNat

/-- The registers that count what a Bench's vector unit does. -/
def vecRegs (p o : Nat) : Prop :=
  o ∈ [BEN_VEC_BEATS.reg p, BEN_VEC_STATUS.reg p, BEN_NUM_OVF.reg p, BEN_NUM_NAN_GEN.reg p, BEN_NUM_NAN_PROP.reg p,
    BEN_NUM_UFL.reg p, BEN_NUM_STICKY.reg p]

/-- The registers of one Bench, with the matrix unit's work, other than V registers, that an instruction leaves alone. -/
def Bench.besides (b : Bench) : Bench := { b with vreg := [], inv := none, report := 0 }

/-- A vector instruction of the invocation `i` has been issued and wrote, besides its counters, at most register `vd`. -/
def Issued (p vd : Nat) (i : Inv) (s t : State) : Prop :=
  Same [.regs, .benches, .freeCtr] s t ∧ RegsBut (vecRegs p) s t ∧
  (t.bench p).inv = some { i with pc := i.pc + 1 } ∧ (t.bench p).besides = (s.bench p).besides ∧
  t.get (BEN_VEC_BEATS.BEATS p) = min (2 ^ 48 - 1) (s.get (BEN_VEC_BEATS.BEATS p) + 1) ∧
  (∀ reg j, reg < 64 → j < 32 → reg ≠ vd → t.lane p reg j = s.lane p reg j) ∧
  ∀ q ≠ p, t.bench q = s.bench q

/-- Command `r` of channel `ch` may start at once: it is the head of its channel and its predecessor has completed, the device is SOLO, and
no other command of the channel waits to be performed (R374, R378, R394). -/
def Ready (s : State) (ch : Nat) (r : JRec) : Prop :=
  s.headRec ch = some r ∧ s.mayStart ch r = true ∧ r.ch = ch ∧ (s.chan ch).nextDone = r.seq ∧ s.get HST_STATUS.MIRROR = 1 ∧
  (∀ x ∈ s.hst.recs, x.mirrored = true ∧ (x.ch = ch → x.st = 2 → x.begun = true) ∧ (x.ch = ch → x.seq = r.seq → x = r))

/-- The state in which such a command is performed: its record is STARTED and NEXT_START is past it (R378, R392). -/
def State.begin (s : State) (r : JRec) : State :=
  { s with hst := { s.hst with
      chans := SMap.set s.hst.chans {} r.ch { s.chan r.ch with nextStart := r.seq + 1 }
      recs := s.hst.recs.map (fun x => if x.ch = r.ch ∧ x.seq = r.seq then { x with st := 2, stampS := s.compact, begun := true } else x) } }

/-- The command has completed, and its completion, of which `p` holds, has been given out (R379). -/
def EndedAs (r : JRec) (p : JRec → Prop) (t : State) : Prop :=
  ∃ x ∈ t.hst.recs, x.ch = r.ch ∧ x.seq = r.seq ∧ x.st = 3 ∧ x.sent = true ∧ p x ∧ r.seq < (t.chan r.ch).nextDone

/-- The command has completed with a STATUS, and its completion has been given out (R379). -/
def Ended (r : JRec) (status : Nat) (t : State) : Prop := EndedAs r (fun x => x.status = status) t

/-- A command's record is COMPLETED with a STATUS (R379). -/
def Finished (ch seq status : Nat) (t : State) : Prop :=
  ∃ x ∈ t.hst.recs, x.ch = ch ∧ x.seq = seq ∧ x.st = 3 ∧ x.status = status

/-- A packet of this device has joined the queue of the output bundle that its route names, on the channel of its transport
type and of the lane that R319 gives, where that bundle is not tunnelled (R318, R319, R322). -/
def Sends (s t : State) (dst ttype : Nat) (fields body : List Byte) : Prop :=
  ∀ a dir d pkt, s.routeOf dst = some (a, dir) → dir = 1 ∨ dir = 2 → d = 2 * a + (dir - 1) → s.get (LNK_BUNDLE_STATUS.TUNNEL d) ≠ 1 →
    pkt = s.packet dst ttype fields body →
    t.bundle d = { s.bundle d with queue := (s.bundle d).queue ++
      [{ input := 6, ch := 2 * (ttypeVc ttype).getD 2 + s.laneOn d 0, flits := chunk244 (pkt.length + 1) pkt }] }

/-- A message that an agent or a Bench has sent is on the mesh, on its way to a stop. -/
def OnWay (t : State) (dst : Nat) (g : Msg) : Prop := ∃ f ∈ t.mesh.flits, f.dst = dst ∧ f.msg = g

/-- The operation that a cell accepts next (R361): its key, its tag and its requesters with their slots. -/
def Brings (s : State) (cell op ctx vid tag : Nat) (l : List (Nat × Nat)) (x : Nat × Flit) : Prop :=
  s.nextOp cell = some x ∧ x.2.msg = .sync op cell ctx vid tag l

/-- The one operation of a slot has completed with a result (SYN_OP_STATUS). -/
def SlotEnds (n result : Nat) (s t : State) : Prop :=
  t.slot n = [] ∧ t.get (SYN_OP_STATUS.RESULT n) = result ∧ t.get (SYN_OP_STATUS.DEPTH n) = 0 ∧ t.get (SYN_OP_STATUS.HEAD n) = 0 ∧
  t.get (SYN_OP_STATUS.COMPLETED n) = (s.get (SYN_OP_STATUS.COMPLETED n) + 1) % 65536

/-- A Bench's WAIT has passed (R346, R358): its W counter for the object has advanced, and its engine waits for it no more. -/
def WaitPassed (p key : Nat) (s t : State) : Prop :=
  (t.bench p).waiting = none ∧ SMap.get (t.bench p).tagW 0 key = (SMap.get (s.bench p).tagW 0 key + 1) % 4

/-- A merged flit names one source for each of its parts. -/
def Flit.matched (f : Flit) : Prop :=
  match f.msg with
  | .sync 0 _ _ _ _ l => f.srcs.length = l.length
  | .done _ l => f.srcs.length = l.length
  | _ => True

/-- The mesh keeps every flit in a buffer of its own virtual channel, and knows the source of each part of a merged one. -/
def Mesh.sound (m : Mesh) : Prop := ∀ e ∈ m.buf ++ m.hold, ∀ f ∈ e.2, f.matched ∧ f.msg.vc = e.1 % 4

/-- What a flit carries, part by part: the part's source and its message. -/
def Flit.cargo (f : Flit) : List (List Nat × Msg) := f.parts.map (fun p => (p.srcs, p.msg))

/-- What the flits in a stop's inputs on a virtual channel carry, with those that its sources still hold. -/
def Mesh.cargo (m : Mesh) (stop vc : Nat) : List (List Nat × Msg) :=
  ([0, 1, 2, 3, 4].flatMap (fun i => m.at_ stop i vc ++ SMap.get m.hold [] (bufKey stop i vc))).flatMap Flit.cargo

/-- The messages that wait at the stop which delivers them for a row that takes them up. -/
def Msg.waits : Msg → Bool
  | .winWrite _ | .token .. | .winCredit .. | .sync .. => true
  | _ => false

/-- What cold reset leaves (R444, R445): COLD_RESET_N low means that no memory of the die holds anything, nothing is in
progress, and every register stands at its reset value, those that the part and its fuses fix and the rail sensor aside. -/
def State.coldQuiet (s : State) : Prop :=
  s.coldLow = true →
    Same [.pending, .regs, .wrd, .bad, .coldLow, .railsOk, .dip, .tripped, .freeCtr] State.reset s ∧
    (∀ o, coldKeeps o = false → o ≠ PWR_SENSE.reg → s.word o = resetWord o)

end Sys2Proof.Machine
end

