-- ==== Sys2Proof/Certificates/Slice0/Obligations.lean ====
section
/-! DEFINITION. The statements about the die. -/

open Sys2Proof Sys2Proof.Machine

/-- One step is the command at the front of the queue, run with the queue's rest. -/
def Obligations.StepRunsFront : Prop :=
  ∀ (s : State) (c : Instr) (rest : List Instr), s.pending = c :: rest → step s = exec c (s.withPending rest)

/-- With no command waiting, one rack tick passes: the model's choice (log 7); the counter counts modulo 2^64 (R45). No row touches the
queue: a step that answers a next state has taken exactly the command at its front. -/
def Obligations.QueueAndTick : Prop :=
  (∀ s : State, s.pending = [] → ∃ t, step s = .next t ∧ Same [.regs, .pwr] s t ∧
     RegsBut (· = PWR_RT_COUNT.reg) s t ∧
     (s.railsOk = true → s.pwr.running = true → s.pwr.skip = false → t.now = (s.now + 1) % 2 ^ 64) ∧
     (s.pwr.running = false → t = s)) ∧
  (∀ s t : State, step s = .next t → t.pending = s.pending.tail)

/-- The state at reset is one that cold reset leaves (R444, R445). -/
def Obligations.ResetIsColdQuiet : Prop := State.reset.coldQuiet

/-- While COLD_RESET_N is low no row puts anything into the die: every step keeps what cold reset leaves. -/
def Obligations.ColdQuietKept : Prop := ∀ s t : State, s.coldQuiet → step s = .next t → t.coldQuiet

/-- A row of a die whose rails have been lost has no guaranteed behaviour (R475): it faults, but for the rows of the pins themselves. While
COLD_RESET_N is low and the rails are in range, a row changes nothing, but for the rows of the pins (R445). A running die never stops:
every row answers a next state. -/
def Obligations.WhenRowsStop : Prop :=
  (∀ (s : State) (c : Instr), s.railsOk = false →
     (∀ slot, c ≠ .coldResetRelease slot) → c ≠ .coldResetAssert → c ≠ .railLoss → (∀ tj, c ≠ .thermtrip tj) →
     (∀ mv, c ≠ .vddCoreChange mv) → exec c s = .fault .railsLost) ∧
  (∀ (s : State) (c : Instr), s.railsOk = true → s.coldLow = true →
     (∀ slot, c ≠ .coldResetRelease slot) → c ≠ .coldResetAssert → c ≠ .railLoss → (∀ tj, c ≠ .thermtrip tj) →
     (∀ mv, c ≠ .vddCoreChange mv) → exec c s = .next s) ∧
  (∀ (s : State) (c : Instr), s.live → ∃ t, exec c s = .next t)

/-- A flit at a stop short of its destination takes the output along its row first and then along its column (R22):
each hop brings it one nearer. -/
def Obligations.FlitRoute : Prop :=
  ∀ (f : Flit) (stop : Nat), stop < 1056 → f.dst < 1056 → stop ≠ f.dst →
    ∃ n face, neighbour stop (f.out stop) = some (n, face) ∧ hops n f.dst + 1 = hops stop f.dst ∧
      (stop % 33 ≠ f.dst % 33 → n / 33 = stop / 33) ∧ (stop % 33 = f.dst % 33 → n % 33 = stop % 33)

/-- MESH_FLIT_HOP (R22 to R24, R77, R355): the output serves VC3 first whenever it can; the flit served leaves its stop and enters the
neighbour, or it is delivered. No part of any flit is dropped or doubled, merged or not. A delivered message that a row takes up waits at
the stop; the answer of a Shelf slice and a DONE report reach their receivers at once. -/
def Obligations.MeshFlitHop : Prop :=
  ∀ (s : State) (stop : Nat) (out : Face) (vc i : Nat) (f : Flit) (rest : List Flit), s.live →
    s.mesh.pickVc stop out = some (vc, i) → s.mesh.at_ stop i vc = f :: rest →
    (∀ j, s.mesh.pick stop 3 out = some j → vc = 3 ∧ i = j) ∧
    ∃ t, exec (.meshFlitHop stop out) s = .next t ∧
      (∀ n face, neighbour stop out = some (n, face) → Same [.mesh] s t ∧ t.mesh.got = s.mesh.got ∧
        (s.mesh.sound → (t.mesh.cargo stop vc ++ f.cargo).Perm (s.mesh.cargo stop vc) ∧
          (t.mesh.cargo n vc).Perm (s.mesh.cargo n vc ++ f.cargo) ∧
          ∀ x j v, j < 5 → v < 4 → (x = stop ∨ x = n → v ≠ vc) → t.mesh.at_ x j v = s.mesh.at_ x j v)) ∧
      (neighbour stop out = none →
        (f.msg.waits = true → Same [.mesh] s t ∧ t.mesh.got = s.mesh.got ++ [(stop, f)] ∧
          (s.mesh.sound → (t.mesh.cargo stop vc ++ f.cargo).Perm (s.mesh.cargo stop vc))) ∧
        (∀ d, f.msg = .shelfData d → Same [.mesh, .benches] s t ∧ t.bench stop = { s.bench stop with rd := d } ∧
          ∀ q ≠ stop, t.bench q = s.bench q) ∧
        (∀ r reps, f.msg = .done r reps → Same [.mesh, .fab] s t ∧
          ∀ m ∈ s.fab.micros, ∃ m' ∈ t.fab.micros, m'.run = m.run ∧ (m.run ≠ r → m' = m) ∧
            (m.run = r → m'.home = m.home ++ reps.map (·.1))))

/-- RSYNC_PULSE outside holdover (R46, R47). With ARM set an edge loads PWR_RT_LOAD, or refuses a load that would turn the counter back or
that has no domain tag; with ARM clear a check captures the counter, and an offset beyond ±1 tick sets DRIFT, raises a record and starts
a slew of the offset itself. -/
def Obligations.RsyncPulse : Prop :=
  (∀ s : State, s.live → s.get PWR_RT_STATUS.HOLDOVER = 0 → s.get PWR_RT_CTRL.ARM = 1 →
     ∃ t, exec .rsyncPulse s = .next t ∧ Same [.regs, .pwr, .ras] s t ∧
       RegsBut (fun o => o = PWR_RT_COUNT.reg ∨ o = PWR_RT_CTRL.reg ∨ o = PWR_RT_STATUS.reg ∨ regsOf 13 o) s t ∧
       ((s.get PWR_RT_STATUS.VALID = 1 ∧ s.now ≤ s.get PWR_RT_LOAD.LOAD) ∨
         (s.get PWR_RT_STATUS.VALID = 0 ∧ s.get PWR_RT_CTRL.DOMAIN ≠ 0xFFFF) →
           t.now = s.get PWR_RT_LOAD.LOAD ∧ t.get PWR_RT_CTRL.ARM = 0 ∧ t.get PWR_RT_STATUS.VALID = 1 ∧ t.pwr.slew = 0 ∧
             t.ras = s.ras) ∧
       (s.get PWR_RT_STATUS.VALID = 1 → s.get PWR_RT_LOAD.LOAD < s.now →
           t.now = s.now ∧ t.get PWR_RT_CTRL.ARM = 0 ∧ t.get PWR_RT_STATUS.LOAD_REFUSED = 1 ∧ Raised (unitId 11 0) s t) ∧
       (s.get PWR_RT_STATUS.VALID = 0 → s.get PWR_RT_CTRL.DOMAIN = 0xFFFF →
           t.now = s.now ∧ t.get PWR_RT_CTRL.ARM = 1 ∧ t.get PWR_RT_STATUS.LOAD_REFUSED = 1 ∧
             t.get PWR_RT_STATUS.VALID = 0 ∧ Raised (unitId 11 0) s t)) ∧
  (∀ s : State, s.live → s.get PWR_RT_STATUS.HOLDOVER = 0 → s.get PWR_RT_CTRL.ARM = 0 →
     ∃ t, exec .rsyncPulse s = .next t ∧ Same [.regs, .pwr, .ras] s t ∧
       RegsBut (fun o => o = PWR_RT_CAPTURE.reg ∨ o = PWR_RT_STATUS.reg ∨ regsOf 13 o) s t ∧
       t.get PWR_RT_CAPTURE.CAPTURE = s.now ∧ t.now = s.now ∧
       (∃ k : Int, ∃ off : Int, (s.now : Int) = k * 2 ^ s.get PWR_RT_CTRL.CHECK_LOG2 + off ∧
         2 * off ≤ 2 ^ s.get PWR_RT_CTRL.CHECK_LOG2 ∧ -(2 ^ s.get PWR_RT_CTRL.CHECK_LOG2 : Int) < 2 * off ∧
         signed 16 (t.get PWR_RT_STATUS.OFFSET) = max (-32768) (min 32767 off) ∧
         ((1 < off ∨ off < -1) →
           t.get PWR_RT_STATUS.DRIFT = 1 ∧ Raised (unitId 11 0) s t ∧ t.pwr.slew = off) ∧
         ((-1 ≤ off ∧ off ≤ 1) → t.ras = s.ras ∧ t.get PWR_RT_STATUS.DRIFT = s.get PWR_RT_STATUS.DRIFT)))

/-- SLEW_STEP, RCLK_LOST and RCLK_RETURN (R47, R48): a slew moves by one increment in 1,024 ticks; a lost reference clock
is held over and reported; its return ends the holdover. -/
def Obligations.RackClock : Prop :=
  ∀ s : State, s.live →
    (s.pwr.slewAt + 1024 ≤ s.now → 0 < s.pwr.slew →
      ∃ t, exec .slewStep s = .next t ∧ Same [.pwr] s t ∧ t.pwr.slew = s.pwr.slew - 1 ∧ t.pwr.skip = true) ∧
    (s.pwr.slewAt + 1024 ≤ s.now → s.pwr.slew < 0 →
      ∃ t, exec .slewStep s = .next t ∧ Same [.regs, .pwr] s t ∧ RegsBut (· = PWR_RT_COUNT.reg) s t ∧
        t.now = (s.now + 1) % 2 ^ 64 ∧ t.pwr.slew = s.pwr.slew + 1) ∧
    (s.get PWR_RT_STATUS.HOLDOVER = 0 →
      ∃ t, exec .rclkLost s = .next t ∧ Same [.regs, .pwr, .ras, .sec] s t ∧
        RegsBut (fun o => o = PWR_RT_STATUS.reg ∨ o = MGT_ALERT.reg ∨ regsOf 13 o) s t ∧
        t.get PWR_RT_STATUS.HOLDOVER = 1 ∧ t.get PWR_RT_STATUS.RCLK_LOST = 1 ∧ t.get PWR_RT_STATUS.LOCK = 0 ∧
        t.get MGT_ALERT.RCLK = 1 ∧ Raised (unitId 11 0) s t) ∧
    (s.get PWR_RT_STATUS.HOLDOVER = 1 →
      ∃ t, exec .rclkReturn s = .next t ∧ Same [.regs, .pwr] s t ∧ RegsBut (· = PWR_RT_STATUS.reg) s t ∧
        t.get PWR_RT_STATUS.HOLDOVER = 0 ∧ t.get PWR_RT_STATUS.LOCK = 1) ∧
    (s.get PWR_RT_STATUS.HOLDOVER = 1 → exec .rsyncPulse s = .next s)

/-- PWR_FN_ENABLE, PWR_FN_DISABLE and POWER_TRANSITION_DONE (Table 02.4): how a write of EN moves a gateable function between OFF 0,
WAKING 1, ON 2 and DRAINING 3; a claimed function refuses EN = 0 with a record (R59), and an Ethernet port of a device that is not ACTIVE
stays OFF (R458; log 68). A transition of a function that needs no wake slot: WAKING ends at ON, or goes on to DRAINING with a pending disable. -/
def Obligations.PowerStates : Prop :=
  (∀ (s : State) (iss : Issuer) (n : Nat), s.live → s.fnHere n = true → n < 192 →
     (s.fnKept n = true → exec (.pwrFnEnable iss n) s = .next s) ∧
     (s.fnKept n = false → ∃ t, exec (.pwrFnEnable iss n) s = .next t ∧ Same [.regs] s t ∧ RegsBut (· = PWR_FN_CTRL.reg n) s t ∧
       t.get (PWR_FN_CTRL.EN n) = 1 ∧
       (s.get (PWR_FN_CTRL.STATUS n) = 0 → t.get (PWR_FN_CTRL.STATUS n) = 1) ∧
       (s.get (PWR_FN_CTRL.STATUS n) = 1 → t.get (PWR_FN_CTRL.STATUS n) = 1 ∧ t.get (PWR_FN_CTRL.PENDING n) = 0) ∧
       (s.get (PWR_FN_CTRL.STATUS n) = 2 → t.get (PWR_FN_CTRL.STATUS n) = 2) ∧
       (s.get (PWR_FN_CTRL.STATUS n) = 3 → t.get (PWR_FN_CTRL.STATUS n) = 3 ∧ t.get (PWR_FN_CTRL.PENDING n) = 1)) ∧
     (s.get (PWR_FN_CTRL.CLAIMED n) = 0 →
       ∃ t, exec (.pwrFnDisable iss n) s = .next t ∧ Same [.regs] s t ∧ RegsBut (· = PWR_FN_CTRL.reg n) s t ∧
         t.get (PWR_FN_CTRL.EN n) = 0 ∧
         (s.get (PWR_FN_CTRL.STATUS n) = 0 → t.get (PWR_FN_CTRL.STATUS n) = 0) ∧
         (s.get (PWR_FN_CTRL.STATUS n) = 1 → t.get (PWR_FN_CTRL.STATUS n) = 1 ∧ t.get (PWR_FN_CTRL.PENDING n) = 1) ∧
         (s.get (PWR_FN_CTRL.STATUS n) = 2 → t.get (PWR_FN_CTRL.STATUS n) = 3) ∧
         (s.get (PWR_FN_CTRL.STATUS n) = 3 → t.get (PWR_FN_CTRL.STATUS n) = 3 ∧ t.get (PWR_FN_CTRL.PENDING n) = 0)) ∧
     (s.get (PWR_FN_CTRL.CLAIMED n) = 1 → s.get (PWR_FN_CTRL.EN n) = 1 →
       ∃ t, exec (.pwrFnDisable iss n) s = .next t ∧ Same [.regs, .ras] s t ∧ RegsBut (regsOf 13) s t ∧
         Raised (fnUnit n) s t)) ∧
  (∀ (s : State) (n : Nat), s.live → s.fnHere n = true → (n = 32 ∨ 160 ≤ n ∧ n < 192) →
     (s.get (PWR_FN_CTRL.STATUS n) = 1 → s.get (PWR_FN_CTRL.PENDING n) = 0 →
       ∃ t, exec (.powerTransitionDone n) s = .next t ∧ Same [.regs] s t ∧ RegsBut (· = PWR_FN_CTRL.reg n) s t ∧
         t.get (PWR_FN_CTRL.STATUS n) = 2) ∧
     (s.get (PWR_FN_CTRL.STATUS n) = 1 → s.get (PWR_FN_CTRL.PENDING n) = 1 →
       ∃ t, exec (.powerTransitionDone n) s = .next t ∧ Same [.regs] s t ∧ RegsBut (· = PWR_FN_CTRL.reg n) s t ∧
         t.get (PWR_FN_CTRL.STATUS n) = 3 ∧ t.get (PWR_FN_CTRL.PENDING n) = 0) ∧
     (s.get (PWR_FN_CTRL.STATUS n) = 3 → s.get (PWR_FN_CTRL.PENDING n) = 0 →
       ∃ t, exec (.powerTransitionDone n) s = .next t ∧ Same [.regs] s t ∧ RegsBut (· = PWR_FN_CTRL.reg n) s t ∧
         t.get (PWR_FN_CTRL.STATUS n) = 0) ∧
     (s.get (PWR_FN_CTRL.STATUS n) = 3 → s.get (PWR_FN_CTRL.PENDING n) = 1 →
       ∃ t, exec (.powerTransitionDone n) s = .next t ∧ Same [.regs] s t ∧ RegsBut (· = PWR_FN_CTRL.reg n) s t ∧
         t.get (PWR_FN_CTRL.STATUS n) = 1 ∧ t.get (PWR_FN_CTRL.PENDING n) = 0))

/-- R60: no row that moves a power state changes the contents of a memory; a Wardrobe port that drains to OFF keeps its
devices in self-refresh. -/
def Obligations.PowerKeepsMemory : Prop :=
  ∀ (s : State) (iss : Issuer) (n : Nat), s.live →
    (∀ c ∈ [Instr.pwrFnEnable iss n, Instr.pwrFnDisable iss n, Instr.powerTransitionDone n, Instr.wakeSlot],
      ∃ t, exec c s = .next t ∧ t.wrd = s.wrd ∧ t.shelf = s.shelf ∧ t.sp = s.sp ∧ t.qst = s.qst ∧ t.drw = s.drw ∧
        t.sram = s.sram ∧ t.bad = s.bad) ∧
    (∀ p t, n = 64 + p → s.fnHere n = true → p < 32 → s.get (WRD_PORT_STATUS.STATE p) = 4 →
      s.get (PWR_FN_CTRL.STATUS n) = 3 → s.get (PWR_FN_CTRL.PENDING n) = 0 →
      exec (.powerTransitionDone n) s = .next t → t.get (PWR_FN_CTRL.STATUS n) = 0 ∧ (t.wport p).selfRef = true)

/-- POWER_WINDOW, LEND_START, WAKE_SLOT, WAKE_RAMP_STEP (R38, R50 to R57): they touch nothing but PWR registers and the lending state, so
no result; a window comes once in 400 ticks and gives each ON group the highest ceiling that fits its share, at most 256, and with LEND_EN
at 0 nothing is lent; a wake slot admits the lowest waiting group and the next slot comes WAKE_GAP ticks later; an admitted Bench climbs
from 1/4 over 1/2 to its share. -/
def Obligations.PowerSharing : Prop :=
  ∀ s : State, s.live →
    (s.now < s.pwr.windowAt + 400 → exec .powerWindow s = .next s) ∧
    (s.pwr.windowAt + 400 ≤ s.now →
      ∃ t, exec .powerWindow s = .next t ∧ Same [.regs, .pwr, .freeCtr] s t ∧ RegsBut (regsOf 1) s t ∧
        t.pwr.windows = s.pwr.windows + 1 ∧ t.pwr.windowAt = s.now ∧ t.freeCtr = s.freeCtr + 4 ∧
        (s.get PWR_LEND_CTRL.LEND_EN = 0 → t.get PWR_POWER.LENT = 0) ∧
        735 ≤ t.get PWR_SENSE.VDD_SHELF_MV ∧ t.get PWR_SENSE.VDD_SHELF_MV ≤ 765 ∧
        ∀ g < 32, s.get (PWR_FN_CTRL.STATUS g) = 2 →
          let x := t.shares t.onGroups t.borrowers t.effective t.pwr.other
          let c := t.get (PWR_GROUP_PACE.PACE_CEIL g)
          let d := x.1 * Config.groupDraw g t.pwr.windows
          c ≤ 256 ∧ c * d ≤ x.2.2 g * 256 ∧ (c < 256 → x.2.2 g * 256 < (c + 1) * d)) ∧
    (∀ p a, (s.bench p).waiting = some a → a + s.get PWR_LEND_CTRL.THRESHOLD < s.now →
      s.inServ p = true → s.get (PWR_FN_CTRL.STATUS (p / 33)) = 2 →
      ∃ t, exec (.lendStart p) s = .next t ∧ Same [.benches] s t ∧ t.bench p = { s.bench p with lending := true } ∧
        ∀ q ≠ p, t.bench q = s.bench q) ∧
    (∀ g rest, s.wakers = g :: rest → s.pwr.nextSlot ≤ s.now →
      ∃ t, exec .wakeSlot s = .next t ∧ Same [.regs, .benches, .pwr] s t ∧
        RegsBut (fun o => o = PWR_FN_CTRL.reg g ∨ ∃ h < 32, o = PWR_GROUP_PACE.reg h) s t ∧
        t.pwr.nextSlot = s.now + s.get PWR_LEND_CTRL.WAKE_GAP ∧
        ∀ c < 33, (s.bench (g * 33 + c)).asking = true →
          t.bench (g * 33 + c) = { s.bench (g * 33 + c) with asking := false, lending := false, ramp := 1, rampAt := s.now }) ∧
    (∀ p, (s.bench p).ramp ≠ 0 → (s.bench p).rampAt + 20 ≤ s.now →
      ∃ t, exec (.wakeRampStep p) s = .next t ∧ Same [.regs, .benches, .pwr] s t ∧
        RegsBut (fun o => ∃ h < 32, o = PWR_GROUP_PACE.reg h) s t ∧
        t.bench p = { s.bench p with ramp := if (s.bench p).ramp = 1 then 2 else 0, rampAt := s.now } ∧
        ∀ q ≠ p, t.bench q = s.bench q)

/-- THERMAL_SAMPLE, THERMTRIP, VDD_CORE_CHANGE and RAIL_LOSS (R41, R62, R63, R64, R466, R475). -/
def Obligations.ThermalAndRails : Prop :=
  ∀ s : State, s.live →
    (∀ tj : BitVec 16, ∃ t, exec (.thermalSample tj) s = .next t ∧ Same [.regs, .pwr, .sec] s t ∧
      RegsBut (fun o => o = PWR_SENSE.reg ∨ o = PWR_EVENT.reg ∨ o = PWR_POWER.reg ∨ o = MGT_ALERT.reg) s t ∧
      t.get PWR_SENSE.TJ_MAX = tj.toNat ∧
      (s.getS PWR_THERM.THROTTLE_T ≤ signed 16 tj.toNat → t.pwr.throttling = true ∧
        (s.pwr.throttling = false → t.get PWR_EVENT.THROTTLED = 1)) ∧
      (signed 16 tj.toNat ≤ s.getS PWR_THERM.THROTTLE_T - 32 → t.pwr.throttling = false) ∧
      (s.getS PWR_THERM.ALERT_T ≤ signed 16 tj.toNat → t.pwr.alerting = true ∧
        (s.pwr.alerting = false → t.get PWR_EVENT.ALERT = 1 ∧ t.get MGT_ALERT.THERMAL = 1)) ∧
      (signed 16 tj.toNat ≤ s.getS PWR_THERM.ALERT_T - 32 → t.pwr.alerting = false) ∧
      t.get PWR_POWER.EFFECTIVE = effectiveBudget (s.get PWR_BUDGET.BUDGET) t.pwr.throttling (signed 16 tj.toNat)
        (s.getS PWR_THERM.THROTTLE_T)) ∧
    (∀ tj : BitVec 16, 1840 ≤ signed 16 tj.toNat →
      ∃ t, exec (.thermtrip tj) s = .next t ∧ Same [.tripped] s t ∧ t.tripped = true) ∧
    (∀ mv, mv < 65536 → ∃ t, exec (.vddCoreChange mv) s = .next t ∧ Same [.regs, .dip, .tripped] s t ∧
      RegsBut (· = PWR_SENSE.reg) s t ∧ t.get PWR_SENSE.VDD_CORE_MV = mv ∧ (t.dip = true ↔ mv < 450) ∧
      (0 < mv → t.tripped = s.tripped) ∧ (mv = 0 → t.tripped = false)) ∧
    (∃ t, exec .railLoss s = .next t ∧ Same [.railsOk] s t ∧ t.railsOk = false ∧
      ∀ mv, ∃ u, exec (.vddCoreChange mv) t = .next u ∧ Same [.tripped] t u ∧ (0 < mv → u.tripped = t.tripped) ∧ (mv = 0 → u.tripped = false))

/-- LOAD_GO (Table 03.7 steps 1 and 2): a load that meets one in progress is refused with LOAD_BUSY and disturbs nothing;
one that passes checks 2 to 5 is verifying. -/
def Obligations.LoadStarts : Prop :=
  ∀ (s : State) (iss : Issuer) (staged : Bool), s.live →
    (s.load.isSome = true →
      ∃ t, exec (.loadGo iss staged) s = .next t ∧ Same [.regs] s t ∧
        RegsBut (fun o => o = FAB_LOAD_STATUS.reg ∨ o = FAB_LOAD_NEED.reg ∨ o = FAB_LOAD_HAVE.reg) s t ∧
        t.get FAB_LOAD_STATUS.REASON = 0x16 ∧ t.get FAB_LOAD_STATUS.DETAIL = 0 ∧
        t.get FAB_LOAD_STATUS.STATE = s.get FAB_LOAD_STATUS.STATE) ∧
    (∀ l : Load, l = { staged := staged, addr := s.get FAB_LOAD_ADDR.ADDR } → s.load = none →
      s.check23 l = none → s.check45 l = none →
      ∃ t, exec (.loadGo iss staged) s = .next t ∧ Same [.regs, .load] s t ∧
        RegsBut (fun o => o = FAB_LOAD_STATUS.reg ∨ o = FAB_LOAD_CTRL.reg) s t ∧
        t.load = some l ∧ t.get FAB_LOAD_STATUS.STATE = 1 ∧ t.get FAB_LOAD_CTRL.GO = 1 ∧
        t.get FAB_LOAD_CTRL.MODE = b2n staged) ∧
    (∀ (l : Load) (r : Nat × Nat × Nat × Nat), l = { staged := staged, addr := s.get FAB_LOAD_ADDR.ADDR } → s.load = none →
      s.check23 l = some r →
      ∃ t, exec (.loadGo iss staged) s = .next t ∧ Same [.regs, .load] s t ∧ t.load = none ∧
        t.get FAB_LOAD_STATUS.STATE = 6 ∧ t.get FAB_LOAD_STATUS.REASON = r.1 % 256 ∧
        t.get FAB_LOAD_STATUS.DETAIL = r.2.1 % 2 ^ 32 ∧ t.get FAB_LOAD_CTRL.GO = 0 ∧
        t.get FAB_LOAD_NEED.AMOUNT = r.2.2.1 % 2 ^ 64 ∧ t.get FAB_LOAD_HAVE.AMOUNT = r.2.2.2 % 2 ^ 64)

/-- LOAD_VERIFY_DONE, LOAD_CLAIMS_ON, LOAD_POWER_TIMEOUT and LOAD_WRITE_DONE (Table 03.7 steps 3 to 7, R69, R70): a load whose checks pass
enables every claimed function; it writes once all of them are ON, and is refused with POWER_CLAIM where one is too late. A refusal changes
no drawer and no memory (R71). The load ends with code 0x00, and its image is the one that is loaded, or with WRITE_FAILED (R72). -/
def Obligations.LoadSteps : Prop :=
  (∀ (s : State) (l : Load), s.live → s.load = some l → l.chan = none →
     (∀ r, s.get FAB_LOAD_STATUS.STATE = 1 → s.check67 l = some r →
       ∃ t, exec .loadVerifyDone s = .next t ∧ Same [.regs, .load] s t ∧ t.load = none ∧
         RegsBut (fun o => o = FAB_LOAD_STATUS.reg ∨ o = FAB_LOAD_CTRL.reg ∨ o = FAB_LOAD_NEED.reg ∨ o = FAB_LOAD_HAVE.reg) s t ∧
         t.get FAB_LOAD_STATUS.STATE = 6 ∧ t.get FAB_LOAD_STATUS.REASON = r.1 % 256) ∧
     (s.get FAB_LOAD_STATUS.STATE = 1 → s.check67 l = none → (s.put FAB_LOAD_STATUS.STATE 2).check820 l = none →
       ∃ t, exec .loadVerifyDone s = .next t ∧ Same [.regs, .load] s t ∧ t.load = some { l with wakeAt := s.now } ∧
         t.get FAB_LOAD_STATUS.STATE = 3 ∧
         ∀ n < 192, bit (s.imageAt l.addr).manifest.powerClaim n = true → s.fnHere n = true → s.fnKept n = false →
           t.get (PWR_FN_CTRL.EN n) = 1) ∧
     (s.get FAB_LOAD_STATUS.STATE = 3 →
       (∀ n < 256, bit (s.imageAt l.addr).manifest.powerClaim n = true → s.get (PWR_FN_CTRL.STATUS n) = 2) →
       ∃ t, exec .loadClaimsOn s = .next t ∧ Same [.regs] s t ∧ RegsBut (· = FAB_LOAD_STATUS.reg) s t ∧
         t.get FAB_LOAD_STATUS.STATE = 4) ∧
     (∀ n < 256, s.get FAB_LOAD_STATUS.STATE = 3 → bit (s.imageAt l.addr).manifest.powerClaim n = true →
       s.get (PWR_FN_CTRL.STATUS n) ≠ 2 → l.wakeAt + wakeTicks n + 4000000 ≤ s.now →
       ∃ t, exec .loadPowerTimeout s = .next t ∧ Same [.regs, .load] s t ∧ t.load = none ∧
         t.get FAB_LOAD_STATUS.STATE = 6 ∧ t.get FAB_LOAD_STATUS.REASON = 0x13)) ∧
  (∀ (s : State) (l : Load), s.live → s.load = some l → l.chan = none → s.get FAB_LOAD_STATUS.STATE = 4 →
     (∃ t, exec (.loadWriteDone true) s = .next t ∧ t.load = none ∧ t.get FAB_LOAD_STATUS.STATE = 6 ∧
       t.get FAB_LOAD_STATUS.REASON = 0x14 ∧ t.get FAB_LOAD_CTRL.GO = 0) ∧
     (s.badIn .wrd l.addr (s.imageAt l.addr).imageLength = [] →
       exec (.loadWriteDone false) s =
         .next (s.keepIns (((s.imageAt l.addr).sections.foldl (fun s e => s.putSection l.addr e) s).commitLoad l)) ∧
       ∀ u : State, u.load = some l →
         (u.commitLoad l).load = none ∧ (u.commitLoad l).get FAB_LOAD_STATUS.STATE = 5 ∧
         (u.commitLoad l).get FAB_LOAD_STATUS.REASON = 0 ∧ (u.commitLoad l).get FAB_LOAD_CTRL.GO = 0 ∧
         (l.staged = false → (u.commitLoad l).resident.map (·.addr) = some l.addr ∧ (u.commitLoad l).staged = none) ∧
         (l.staged = true → (u.commitLoad l).staged.map (·.addr) = some l.addr ∧ (u.commitLoad l).resident = u.resident)))

/-- BOUNDARY_TOKEN, BENCH_DRAINED and BOUNDARY_COMPLETE (R76 to R78, R80, R81, R83): a token that the mesh has delivered for an IN entry is
taken up and counted there. A Bench that is not drained reports nothing, and one that is reports DONE, once, for its own micro-batch, and
sends the report, with its sticky bits, toward the home cell; a boundary which a report has not reached changes nothing, and one that every
report has reached ends the oldest micro-batch, or every one where an abort asked for it. -/
def Obligations.MicroBatchEnds : Prop :=
  (∀ (s : State) (tile route p : Nat), s.live → s.phys tile = some p →
     (∀ x, s.arrived (fun _ g => g == .token tile route) = some x →
       ∃ t, exec (.boundaryToken tile route) s = .next t ∧ Same [.mesh, .fab, .benches] s t ∧
         t.mesh = { s.mesh with got := s.mesh.got.erase x } ∧
         t.tokensIn tile route = s.tokensIn tile route + 1 ∧ ∀ q ≠ p, t.bench q = s.bench q) ∧
     (s.arrived (fun _ g => g == .token tile route) = none → exec (.boundaryToken tile route) s = .next s)) ∧
  (∀ s : State, s.live →
     (∀ (tile p : Nat) (v : View) (r : Run), s.work tile = some (p, v, r) →
       (s.drained p tile v r = false → exec (.benchDrained tile) s = .next s) ∧
       (s.drained p tile v r = true →
         ∃ t, exec (.benchDrained tile) s = .next t ∧
           (∀ m ∈ s.fab.micros, ∃ n ∈ t.fab.micros, n.run = m.run ∧ n.done = (if m.run = r then tile :: m.done else m.done)) ∧
           ∃ f ∈ t.mesh.flits, ∃ reps, f.msg = .done r reps ∧ (tile, (s.bench p).report) ∈ reps)) ∧
     (∀ (m : Micro) (rest : List Micro), s.fab.micros = m :: rest → s.fab.aborting = false →
       ((s.allDone m && m.tokenSent && !(rest.isEmpty && s.mapWaits)) = false → exec .boundaryComplete s = .next s) ∧
       ((s.allDone m && m.tokenSent && !(rest.isEmpty && s.mapWaits)) = true →
         ∃ t, exec .boundaryComplete s = .next t ∧ t.fab.micros.map (·.run) = rest.map (·.run) ∧
           (rest ≠ [] → t.fab.phase = s.fab.phase) ∧ (rest = [] → t.fab.phase ≠ .running ∧ t.shadow = [] ∧ t.boardPending = false))) ∧
     (s.fab.micros ≠ [] → s.fab.aborting = true →
       ((s.fab.micros.all s.allDone && !s.mapWaits) = false → exec .boundaryComplete s = .next s) ∧
       ((s.fab.micros.all s.allDone && !s.mapWaits) = true →
         ∃ t, exec .boundaryComplete s = .next t ∧ t.fab.micros = [] ∧ t.fab.aborting = false ∧ t.fab.phase ≠ .running)))

/-- TILE_CLEAR_DONE, REENCODE_DONE, BENCH_FLIP, SWAP_RESUME and IDLE_APPLY (Table 03.8, R33, R80, R160, R262): step 5 lasts until the last
clear and the last re-encoding have finished, which changes no byte where no bit is found wrong; then a drawer that changes waits for every Bench's READY, and one that is kept resumes; the
Sideboard may hold either. -/
def Obligations.BoundaryWork : Prop :=
  ∀ s : State, s.live →
    (s.fab.phase = .applying → s.fab.clears ≠ [] → s.fab.reenc = [] →
      ∃ t, exec .tileClearDone s = .next t ∧ Same [.regs, .fab] s t ∧
        RegsBut (fun o => o = FAB_STATUS.reg ∨ ∃ ty < 32, o = TMAP_ROW_STATE.reg ty) s t ∧ t.fab.clears = [] ∧ t.fab.moving = [] ∧
        t.fab.phase = (match s.fab.next with
          | none => .idle
          | some r => if r.drawer = s.active then .resuming else .flipping)) ∧
    (s.fab.phase = .applying → s.fab.reenc ≠ [] → s.fab.clears = [] →
      ∃ t u flips, exec .reEncodeDone s = .next t ∧ Same [.regs, .fab, .sp, .shelf, .bad, .ras, .freeCtr] s t ∧ t.fab.reenc = [] ∧
        Same [.freeCtr] s u ∧ t.sp = (u.reencodeAll flips).sp ∧ t.shelf = (u.reencodeAll flips).shelf ∧ t.bad = (u.reencodeAll flips).bad ∧
        t.get FAB_STATUS.SH_PENDING = b2n s.shPending ∧
        t.fab.phase = (match s.fab.next with
          | none => .idle
          | some r => if r.drawer = s.active then .resuming else .flipping)) ∧
    (s.bad = [] → s.reencodeAll [] = s) ∧
    (∀ tile, s.fab.phase = .flipping → (s.phys tile).isSome = true → tile ∉ s.fab.ready →
      ∃ t, exec (.benchFlip tile) s = .next t ∧ Same [.fab] s t ∧ t.fab = { s.fab with ready := tile :: s.fab.ready }) ∧
    (∀ r, s.fab.next = some r → s.fab.phase = .flipping → (∃ tile < 1024, (s.phys tile).isSome = true ∧ tile ∉ s.fab.ready) →
      exec .swapResume s = .next s) ∧
    (∀ r, s.fab.next = some r → s.sbdHolds r.drawer = true → exec .swapResume s = .next s) ∧
    (∀ r, s.fab.next = some r → s.sbdHolds r.drawer = false →
      (s.fab.phase = .resuming ∨ s.fab.phase = .flipping ∧ ∀ tile < 1024, (s.phys tile).isSome = true → tile ∈ s.fab.ready) →
      exec .swapResume s = .next (s.keepIns ((s.resumed r).enterMicro r)) ∧
      (s.resumed r).get FAB_STATUS.ACTIVE_DRAWER = (if s.fab.phase = .flipping then r.drawer % 4 else s.active) ∧
      (s.resumed r).get FAB_STATUS.SWAP_PENDING = 0 ∧ (s.resumed r).get FAB_STATUS.BOUNDARY = 0 ∧
      (s.resumed r).fab.phase = .running ∧ (s.resumed r).fab.next = none) ∧
    (s.fab.phase = .idle → s.fab.micros = [] → s.mapWaits = false →
      (s.shPending = true ∨ s.mapPending = true ∨ s.ckp.want.isSome = true ∨ s.fab.next.isSome = true) →
      ∃ t, exec .idleApply s = .next t ∧ t = s.keepIns s.applyAll ∧ t.shadow = [] ∧ t.boardPending = false)

/-- BOUNDARY_TIMEOUT (R82): once in a boundary, a record names the Bench of the lowest tile that has not reported, and the
fabric keeps waiting. -/
def Obligations.BoundaryLate : Prop :=
  ∀ (s : State) (m : Micro) (rest : List Micro) (a tile : Nat) (v : View), s.live → s.fab.micros = m :: rest →
    m.firstDone = some a → m.timedOut = false → a + s.get FAB_BOUNDARY_TIMEOUT.TICKS ≤ s.now →
    (s.members m.run.drawer).find? (fun x => !(m.done.contains x.1)) = some (tile, v) →
    ∃ t p, s.phys tile = some p ∧ exec .boundaryTimeout s = .next t ∧ Same [.regs, .ras, .fab] s t ∧ RegsBut (regsOf 13) s t ∧
      t.fab = { s.fab with micros := { m with timedOut := true } :: rest } ∧ Raised (unitId 0 p) s t

/-- ABORT and FENCE_REQUEST (R83, R85): an abort of an idle fabric has no effect; otherwise every micro-batch in the fabric is aborting,
every Bench reports DONE for it, and in a training drawer the device contributes REPEAT; a RUN that only waits ends at once. A fence request only adds columns, and it is pending
until a boundary. -/
def Obligations.AbortAndFence : Prop :=
  ∀ (s : State) (iss : Issuer), s.live →
    (s.idle = true → exec (.abort iss) s = .next s) ∧
    (s.fab.micros ≠ [] → s.fab.aborting = false →
      exec (.abort iss) s = .next (s.keepIns
        (if s.fab.micros.any (fun m => m.run.training) then s.abortMark.contribute fRepeat else s.abortMark)) ∧
      s.abortMark.fab.aborting = true ∧ s.abortMark.get FAB_CTRL.ABORT = 1 ∧
      (∀ m ∈ s.abortMark.fab.micros, m.tokenSent = true ∧ ∀ x ∈ s.members m.run.drawer, x.1 ∈ m.done) ∧
      ∀ u : State, u.replay = false → (u.contribute fRepeat).red.flags = u.red.flags ||| fRepeat) ∧
    (∀ r, s.fab.micros = [] → s.fab.next = some r → s.fab.aborting = false →
      ∃ t, exec (.abort iss) s = .next t ∧ t.fab.next = none ∧ t.get FAB_STATUS.SWAP_PENDING = 0) ∧
    (∀ ty mask, ty < 32 →
      ∃ t, exec (.fenceRequest iss ty mask) s = .next t ∧ Same [.regs] s t ∧
        t.get (TMAP_FENCE_REQ.REQ ty) = (s.get (TMAP_FENCE_REQ.REQ ty) ||| mask % 2 ^ 33) ∧
        (∀ p, t.phys p = s.phys p) ∧
        (t.get (TMAP_ROW_STATE.PENDING ty) = 1 ↔
          t.fenceWant ty ≠ s.get (TMAP_ROW_STATE.FENCE ty) ∨ ty ∈ s.fab.moving))

/-- PRODUCT_START, MATRIX_BEAT and PRODUCT_DONE (R88, R102, R103, R105 to R107): a product waits until its bank is EMPTY; it then starts
at +0 or at the initial tile of a ROLE 2 source; each beat adds its one or two k-steps into every element of the bank, or is the first half
of one; after the last k-step the bank is FULL and keeps what the beats made. -/
def Obligations.ProductInBank : Prop :=
  ∀ (s : State) (tile p : Nat) (v : View) (r : Run), s.live → s.atWork tile = some (p, v, r) →
    (let pd := v.product (s.bench p).tileNo
     (s.bankSt p pd.2.2.2 ≠ 0 → exec (.productStart tile) s = .next s) ∧
     (s.bankSt p pd.2.2.2 = 0 → (s.bench p).prod = none → (s.bench p).tileNo < v.products →
       (r.accStart = true ∨ v.roleSrcs 2 = [] →
         ∃ t, exec (.productStart tile) s = .next t ∧ Same [.regs, .benches] s t ∧ RegsBut (· = BEN_MAT_STATUS.reg p) s t ∧
           t.bankSt p pd.2.2.2 = 1 ∧ t.get (BEN_MAT_STATUS.BUSY p) = 1 ∧ (t.bench p).bank pd.2.2.2 = [] ∧
           ∀ q ≠ p, t.bench q = s.bench q) ∧
       (∀ i, r.accStart = false → (v.roleSrcs 2).head? = some i →
         let e := blockEntry 0 (v.sKind i) (v.blockOff i pd.1 pd.2.1) 8192
         let took := fun (d : List Byte) => ∃ t, exec (.productStart tile) s = .next t ∧ t.bankSt p pd.2.2.2 = 1 ∧
           t.get (BEN_MAT_STATUS.BUSY p) = 1 ∧
           ∀ x < 1024, SMap.get ((t.bench p).bank pd.2.2.2) 0 x = BitVec.ofNat 64 (toAcc (ofAcc (leNat ((d.drop (8 * x)).take 8)))).bits
         (v.sKind i = 3 → ∀ d, (s.bench p).landedOn (v.sRoute i) = some d → took d) ∧
         (v.sKind i ≠ 3 → s.held true (spaceAddr tile e.space e.lo) 8192 = false → (s.issue p 0 [e]).1 = true →
           took ((s.issue p 0 [e]).2.readBlock tile r (v.sKind i) e.lo 8192).1)))) ∧
    (∀ pr x y, (s.bench p).prod = some pr → (s.bench p).operands pr = some (x, y) → pr.over v (pairClass v.fmtA v.fmtB) = false →
      (2 ≤ pairClass v.fmtA v.fmtB → pr.sub = 0 → ∀ u,
        ∃ t, exec (.matrixBeat tile u) s = .next t ∧ Same [.regs, .benches] s t ∧ RegsBut (· = BEN_MAT_BEATS.reg p) s t ∧
          t.bench p = { s.bench p with prod := some { pr with sub := 1 } } ∧ ∀ q ≠ p, t.bench q = s.bench q) ∧
      (s.dip = false → pairClass v.fmtA v.fmtB < 2 ∨ pr.sub ≠ 0 → ∀ u,
        let la := x.lines v true pr.k (if pairClass v.fmtA v.fmtB = 0 then 2 else 1)
        let lb := y.lines v false pr.k (if pairClass v.fmtA v.fmtB = 0 then 2 else 1)
        ∃ t, exec (.matrixBeat tile u) s = .next t ∧
          t.get (BEN_MAT_BEATS.BEATS p) = min (2 ^ 48 - 1) (s.get (BEN_MAT_BEATS.BEATS p) + 1) ∧
          ∀ e < 1024, (∀ w, u = some w → (beatWrong la lb (pairClass v.fmtA v.fmtB) pr.pass ((s.bench p).bank pr.bank) w).1 ≠ e) →
            SMap.get ((t.bench p).bank pr.bank) 0 e =
              BitVec.ofNat 64 (beatRnd la lb (pairClass v.fmtA v.fmtB) pr.pass ((s.bench p).bank pr.bank) e).bits)) ∧
    (∀ pr, (s.bench p).prod = some pr → pr.over v (pairClass v.fmtA v.fmtB) = true →
      ∃ t, exec (.productDone tile) s = .next t ∧ Same [.regs, .benches] s t ∧ RegsBut (· = BEN_MAT_STATUS.reg p) s t ∧
        t.bankSt p pr.bank = 2 ∧ t.get (BEN_MAT_STATUS.BUSY p) = 0 ∧
        t.bench p = { s.bench p with
          prod := none, tileNo := (s.bench p).tileNo + 1, full := (s.bench p).full ++ [(pr.bank, pr.ib, pr.jb)] } ∧
        ∀ q ≠ p, t.bench q = s.bench q)

/-- STAGER_BLOCK_TAKEN and SCOREBOARD_STALL_END (R100, R101, R166 to R169): a stager with both buffers full takes nothing; the next block
of its operand enters it, from a stream where one has landed, from memory when the scoreboard lets its read go; a read that it holds back is
counted as one stall; the accesses that stalled ones wait for end, and what none holds back any longer proceeds. -/
def Obligations.StagersAndScoreboard : Prop :=
  ∀ (s : State) (tile : Nat), s.live →
    (∀ p v r src, s.atWork tile = some (p, v, r) →
      let a := v.sRole src == 0
      let st := fun (b : Bench) => if a then b.stA else b.stB
      let taken := fun (b : Bench) => if a then b.takenA else b.takenB
      let k := taken (s.bench p) % v.depth
      let pd := v.product (taken (s.bench p) / v.depth)
      let mn := if a then pd.1 else pd.2.1
      let e := blockEntry (if a then 0 else 1) (v.sKind src) (v.blockOff src mn k) (blockBytes (v.sStored src))
      let took := fun (d : List Byte) => ∃ t blk, exec (.stagerBlockTaken tile src) s = .next t ∧ st (t.bench p) = st (s.bench p) ++ [blk] ∧
        taken (t.bench p) = taken (s.bench p) + 1 ∧ blk.src = src ∧ blk.k = k ∧ blk.mn = mn ∧ blk.bytes = d ∧ blk.pro = v.sPrologue src
      (2 ≤ (st (s.bench p)).length → exec (.stagerBlockTaken tile src) s = .next s) ∧
      (0 < v.depth → taken (s.bench p) / v.depth < v.products → (st (s.bench p)).length < 2 →
        (if a then v.srcA = some src else pd.2.2.1 = src ∧ v.sRole src = 1) →
        (v.sKind src = 3 → ∀ d, (s.bench p).landedOn (v.sRoute src) = some d → took d) ∧
        (v.sKind src ≠ 3 → v.sStored src = 0x21 → took []) ∧
        (v.sKind src ≠ 3 → v.sStored src ≠ 0x21 → s.held true (spaceAddr tile e.space e.lo) e.len = false →
          ((s.issue p e.unit [e]).1 = true → took ((s.issue p e.unit [e]).2.readBlock tile r (v.sKind src) e.lo e.len).1) ∧
          (((s.bench p).settle e.unit).conflict e = true → (∀ x ∈ (s.bench p).stalled, x.unit ≠ e.unit) →
            ∃ t, exec (.stagerBlockTaken tile src) s = .next t ∧ Same [.regs, .benches] s t ∧
              RegsBut (· = BEN_SB_STATUS.reg p) s t ∧ st (t.bench p) = st (s.bench p) ∧
              t.get (BEN_SB_STATUS.STALLS p) = min (2 ^ (BEN_SB_STATUS.STALLS p).width - 1)
                (s.get (BEN_SB_STATUS.STALLS p) + 1))))) ∧
    (∀ p, s.phys tile = some p →
      ∃ t, exec (.scoreboardStallEnd tile) s = .next t ∧ Same [.benches] s t ∧ (t.bench p).sb = (s.bench p).ended.sb ∧
        (∀ x ∈ (s.bench p).sb, x.space = 4 → x ∈ (t.bench p).sb) ∧
        (∀ e, e ∈ (t.bench p).stalled ↔
          e ∈ (s.bench p).stalled ∧ ((s.bench p).ended.conflict e = true ∨ (s.bench p).ended.hasEntry e = false)) ∧
        ∀ q ≠ p, t.bench q = s.bench q)

/-- NUM_COUNTER_CLEAR and CG_TEST (R118, R119): a clear zeroes the counters of one Bench, and a generator test reads no
state but its key and its counter. -/
def Obligations.NumericsRegisters : Prop :=
  ∀ s : State, s.live →
    (∀ tile p, s.phys tile = some p →
      ∃ t, exec (.numCounterClear tile) s = .next t ∧ Same [.regs] s t ∧
        RegsBut (fun o => o ∈ [BEN_NUM_OVF.reg p, BEN_NUM_NAN_GEN.reg p, BEN_NUM_NAN_PROP.reg p, BEN_NUM_UFL.reg p,
          BEN_RES_COUNT.reg p]) s t ∧
        t.get (BEN_NUM_OVF.COUNT p) = 0 ∧ t.get (BEN_NUM_NAN_GEN.COUNT p) = 0 ∧ t.get (BEN_NUM_NAN_PROP.COUNT p) = 0 ∧
        t.get (BEN_NUM_UFL.COUNT p) = 0 ∧ t.get (BEN_RES_COUNT.COUNT p) = 0) ∧
    (∃ t x, exec .cgTest s = .next t ∧ Same [.regs] s t ∧
      RegsBut (fun o => o = NUM_CG_TEST_OUT.reg 0 ∨ o = NUM_CG_TEST_OUT.reg 1) s t ∧
      x = cg (s.get (NUM_CG_TEST_KEY.KEY_LO 0)) (s.get (NUM_CG_TEST_KEY.KEY_HI 0)) (s.get (NUM_CG_TEST_KEY.KEY_LO 1))
        (s.get (NUM_CG_TEST_KEY.KEY_HI 1)) (s.get (NUM_CG_TEST_CTR.CTR_LO 0)) (s.get (NUM_CG_TEST_CTR.CTR_HI 0))
        (s.get (NUM_CG_TEST_CTR.CTR_LO 1)) (s.get (NUM_CG_TEST_CTR.CTR_HI 1)) ∧
      t.word (NUM_CG_TEST_OUT.reg 0) = BitVec.ofNat 64 x ∧ t.word (NUM_CG_TEST_OUT.reg 1) = BitVec.ofNat 64 (x / 2 ^ 64))

/-- PROLOGUE_START, EPILOGUE_START, DEFERRED_START, ENDR and ENDT (R131, R133, R140, R142, R144, R150): deferred passes come before prologues
and prologues before epilogues; an epilogue's bank is DRAINING; an invocation that runs keeps every other from starting; its body runs for
rows 0 to 31 and its tail once, in row 31; the invocation that drains a bank leaves it EMPTY, and that of a prologue lets its block go. -/
def Obligations.Invocations : Prop :=
  (∀ (s : State) (tile p : Nat) (v : View) (r : Run), s.live → s.atWork tile = some (p, v, r) →
     ((s.bench p).inv ≠ none → ∀ c ∈ [Instr.prologueStart tile, Instr.epilogueStart tile, Instr.deferredStart tile],
       exec c s = .next s) ∧
     (∀ pass ib jb rest, (s.bench p).inv = none → (s.bench p).deferd = (pass, ib, jb) :: rest →
       exec (.prologueStart tile) s = .next s ∧ exec (.epilogueStart tile) s = .next s ∧
       ∃ t i, exec (.deferredStart tile) s = .next t ∧ Same [.regs, .benches] s t ∧ RegsBut (· = BEN_VEC_STATUS.reg p) s t ∧
         t.bench p = { s.bench p with inv := some i, deferd := rest } ∧ i.kind = 3 ∧ i.ib = ib ∧ i.jb = jb ∧ i.row = 0 ∧
         i.pc = (if pass = 1 then v.defer1 else v.defer2) ∧ ∀ q ≠ p, t.bench q = s.bench q) ∧
     (∀ x, (s.bench p).inv = none → (s.bench p).deferd = [] → (s.bench p).proDue = some x →
       exec (.epilogueStart tile) s = .next s ∧
       ∃ t i, exec (.prologueStart tile) s = .next t ∧ Same [.regs, .benches] s t ∧ RegsBut (· = BEN_VEC_STATUS.reg p) s t ∧
         t.bench p = { s.bench p with inv := some i } ∧ i.kind = 1 ∧ i.src = x.ord ∧ i.row = 0 ∧ i.pc = v.proEntry ∧
         ∀ q ≠ p, t.bench q = s.bench q) ∧
     (∀ bank ib jb rest, (s.bench p).inv = none → (s.bench p).deferd = [] → (s.bench p).proDue = none →
       v.epiEntry ≠ 0xFFFF → v.gate = false → (s.bench p).full = (bank, ib, jb) :: rest →
       ∃ t i, exec (.epilogueStart tile) s = .next t ∧ Same [.regs, .benches] s t ∧
         RegsBut (fun o => o = BEN_VEC_STATUS.reg p ∨ o = BEN_MAT_STATUS.reg p) s t ∧ t.bankSt p bank = 3 ∧
         t.bench p = { s.bench p with inv := some i, full := rest } ∧ i.kind = 2 ∧ i.bank = bank ∧ i.ib = ib ∧ i.jb = jb ∧
         i.row = 0 ∧ i.pc = v.epiEntry ∧ ∀ q ≠ p, t.bench q = s.bench q) ∧
     (∀ x, (s.bench p).inv = none → (s.bench p).deferd = [] → v.gate = true → (s.bench p).full = [x] →
       exec (.epilogueStart tile) s = .next s) ∧
     (∀ bank ib jb x rest, (s.bench p).inv = none → (s.bench p).deferd = [] → (s.bench p).proDue = none →
       v.epiEntry ≠ 0xFFFF → v.gate = true → (s.bench p).full = (bank, ib, jb) :: x :: rest →
       ∃ t i, exec (.epilogueStart tile) s = .next t ∧ Same [.regs, .benches] s t ∧
         RegsBut (fun o => o = BEN_VEC_STATUS.reg p ∨ o = BEN_MAT_STATUS.reg p) s t ∧ t.bankSt p 0 = 3 ∧ t.bankSt p 1 = 3 ∧
         t.bench p = { s.bench p with inv := some i, full := rest } ∧ i.kind = 2 ∧ i.gate = true ∧ i.ib = ib ∧ i.jb = jb ∧
         i.row = 0 ∧ i.pc = v.epiEntry ∧ ∀ q ≠ p, t.bench q = s.bench q)) ∧
  (∀ (s : State) (tile p : Nat) (v : View) (r : Run) (i : Inv), s.live → s.atWork tile = some (p, v, r) →
     (s.bench p).inv = some i →
     (wOp (v.prog i.pc) = 1 →
       ∃ t j, exec (.vEndr tile) s = .next t ∧ Same [.regs, .benches] s t ∧ RegsBut (· = BEN_VEC_STATUS.reg p) s t ∧
         t.bench p = { s.bench p with inv := some j } ∧ (∀ q ≠ p, t.bench q = s.bench q) ∧
         (i.row < 31 → i.tail = false → j = { i with row := i.row + 1, pc := i.entry }) ∧
         (31 ≤ i.row → j = { i with tail := true, pc := i.pc + 1 })) ∧
     (wOp (v.prog i.pc) = 2 → i.tail = true →
       ∃ t, exec (.vEndt tile) s = .next t ∧ Same [.regs, .benches] s t ∧ (t.bench p).inv = none ∧
         RegsBut (fun o => o = BEN_VEC_STATUS.reg p ∨ o = BEN_MAT_STATUS.reg p) s t ∧ (∀ q ≠ p, t.bench q = s.bench q) ∧
         t.get (BEN_VEC_STATUS.KIND p) = 0 ∧
         (i.kind = 1 → ∀ x, x ∈ (t.bench p).stA ↔
           ∃ y ∈ (s.bench p).stA, x = (if y.ord = i.src then { y with pro := false } else y)) ∧
         (i.kind = 2 → i.gate = false → i.bank < 2 → t.bankSt p i.bank = 0) ∧
         (i.kind = 2 → i.gate = true → t.bankSt p 0 = 0 ∧ t.bankSt p 1 = 0) ∧
         (t.bench p).deferd = (s.bench p).deferd ++
           (if i.kind = 2 ∧ v.deferred = true ∧ i.jb + 1 = v.colBlocks then v.passes i.ib else [])))

/-- The lane-wise vector instructions (Table 05.3, R137): each result is rounded once to FW40, and nothing but the
destination register, the counters and the place in the program changes. -/
def Obligations.VectorLanes : Prop :=
  ∀ (s : State) (tile p : Nat) (v : View) (r : Run) (i : Inv) (w : Nat), s.live → s.dip = false →
    s.atWork tile = some (p, v, r) → (s.bench p).inv = some i → w = v.prog i.pc →
    (wOp w = 0 → ∃ t, exec (.vNop tile) s = .next t ∧ Issued p 64 i s t) ∧
    (∀ c op f, (c, op, f) ∈ ([
        (.vAbs tile, 0x0A, fun x => canonFw (x % 2 ^ 39)), (.vNeg tile, 0x0B, fun x => canonFw (x ^^^ 2 ^ 39)),
        (.vRint tile, 0x0D, fun x => (fwOf [ofFw x] (rintVal (wFn w) (ofFw x))).bits), (.vMov tile, 0x0F, fun x => x),
        (.vRcp tile, 0x11, fun x => (fwOf [ofFw x] ((Val.fin false 1 0).div (ofFw x))).bits),
        (.vSqrt tile, 0x12, fun x => (fwOf [ofFw x] (ofFw x).sqrt).bits),
        (.vRsqrt tile, 0x13, fun x => (fwOf [ofFw x] (rsqrtVal (ofFw x))).bits),
        (.vExp2 tile, 0x14, fun x => (fwExp2 (ofFw x)).bits), (.vSigm tile, 0x16, fun x => (fwSigm (ofFw x)).bits),
        (.vErf tile, 0x17, fun x => (fwErf (ofFw x)).bits), (.vTanh tile, 0x18, fun x => (fwTanh (ofFw x)).bits)] :
          List (Instr × Nat × (Nat → Nat))) → wOp w = op →
      ∃ t, exec c s = .next t ∧ Issued p (wVd w) i s t ∧
        ∀ j < 32, t.lane p (wVd w) j = f (s.lane p (wVa w) j) % 2 ^ 40) ∧
    (∀ c op f, (c, op, f) ∈ ([(.vLog2 tile, 0x15, fwLog2), (.vSinpi tile, 0x19, fwSinPi), (.vCospi tile, 0x1A, fwCosPi)] :
          List (Instr × Nat × (Val → Option Rnd))) → wOp w = op →
      ∃ t, exec c s = .next t ∧ Issued p (wVd w) i s t ∧
        ∀ j < 32, (∀ x, f (ofFw (s.lane p (wVa w) j)) = some x → t.lane p (wVd w) j = x.bits % 2 ^ 40) ∧
          (f (ofFw (s.lane p (wVa w) j)) = none → t.lane p (wVd w) j = 0 ∨ t.lane p (wVd w) j = 2 ^ 39) ∧
          ∀ k < 32, s.lane p (wVa w) k = s.lane p (wVa w) j → t.lane p (wVd w) k = t.lane p (wVd w) j) ∧
    (∀ c op f, (c, op, f) ∈ ([
        (.vAdd tile, 0x04, fun x y => (fwOf [ofFw x, ofFw y] ((ofFw x).add (ofFw y))).bits),
        (.vSub tile, 0x05, fun x y => (fwOf [ofFw x, ofFw y] ((ofFw x).add (ofFw y).negate)).bits),
        (.vMul tile, 0x06, fun x y => (fwOf [ofFw x, ofFw y] ((ofFw x).mul (ofFw y))).bits),
        (.vDiv tile, 0x10, fun x y => (fwOf [ofFw x, ofFw y] ((ofFw x).div (ofFw y))).bits),
        (.vMax tile, 0x08, fwMax), (.vMin tile, 0x09, fwMin)] : List (Instr × Nat × (Nat → Nat → Nat))) → wOp w = op →
      ∃ t, exec c s = .next t ∧ Issued p (wVd w) i s t ∧
        ∀ j < 32, t.lane p (wVd w) j = f (s.lane p (wVa w) j) (s.lane p (wVb w) j) % 2 ^ 40) ∧
    (∀ c op f, (c, op, f) ∈ ([
        (.vFma tile, 0x07, fun x y z => (fwOf [ofFw x, ofFw y, ofFw z] (((ofFw x).mul (ofFw y)).add (ofFw z))).bits),
        (.vCsel tile, 0x0C, fun x y z => if cselHolds (wFn w) x then y else z)] :
          List (Instr × Nat × (Nat → Nat → Nat → Nat))) → wOp w = op →
      ∃ t, exec c s = .next t ∧ Issued p (wVd w) i s t ∧
        ∀ j < 32, t.lane p (wVd w) j = f (s.lane p (wVa w) j) (s.lane p (wVb w) j) (s.lane p (wVc w) j) % 2 ^ 40) ∧
    (wOp w = 0x0E → wVb w < 5 →
      ∃ t, exec (.vXln tile) s = .next t ∧ Issued p (wVd w) i s t ∧
        ∀ j < 32, t.lane p (wVd w) j = s.lane p (wVa w) (j ^^^ 2 ^ wVb w))

/-- RSUM, RMAX, BCL, POS, LDK, RNDU and ADDA (R138, R139): after five butterfly rounds every lane holds the same value, and
only lane i of the destination takes it; BCL gives every lane that of the row; ADDA moves an address modulo 2^48 and keeps its
space. -/
def Obligations.VectorRows : Prop :=
  ∀ (s : State) (tile p : Nat) (v : View) (r : Run) (i : Inv) (w : Nat), s.live → s.dip = false →
    s.atWork tile = some (p, v, r) → (s.bench p).inv = some i → w = v.prog i.pc → i.row < 32 →
    (wOp w = 0x1C →
      ∃ t, exec (.vRsum tile) s = .next t ∧ Issued p (wVd w) i s t ∧
        (∀ j < 32, j ≠ i.row → t.lane p (wVd w) j = s.lane p (wVd w) j) ∧
        ∀ k < 32, t.lane p (wVd w) i.row =
          (toFw ((ofFw (s.lane p (wVd w) i.row)).add
            (ofFw (((List.range 5).foldl sumRound (s.lanes p (wVa w), {})).1.getD k 0)))).bits % 2 ^ 40) ∧
    (wOp w = 0x1D →
      ∃ t, exec (.vRmax tile) s = .next t ∧ Issued p (wVd w) i s t ∧
        (∀ j < 32, j ≠ i.row → t.lane p (wVd w) j = s.lane p (wVd w) j) ∧
        t.lane p (wVd w) i.row = fwMax (s.lane p (wVd w) i.row)
          (((List.range 5).foldl (butterfly fwMax) (s.lanes p (wVa w))).getD 0 0) % 2 ^ 40) ∧
    (wOp w = 0x1E →
      ∃ t, exec (.vBcl tile) s = .next t ∧ Issued p (wVd w) i s t ∧
        ∀ j < 32, t.lane p (wVd w) j = s.lane p (wVa w) i.row) ∧
    (wOp w = 0x1F →
      let src := (((VCtx.mk tile p v r i w).block s).map (·.src)).getD 0
      ∃ t, exec (.vPos tile) s = .next t ∧ Issued p (wVd w) i s t ∧
        ∀ j < 32, t.lane p (wVd w) j = posBits
          (if wImm20 w % 4 = 0 then (if i.kind = 1 then v.proColBase src else v.colBase) + 32 * i.jb + j
           else if wImm20 w % 4 = 1 then (if i.kind = 1 then v.proRowBase src else v.rowBase) + 32 * i.ib + i.row
           else r.pos) % 2 ^ 40) ∧
    (wOp w = 0x20 →
      ∃ t, exec (.vLdk tile) s = .next t ∧ Issued p (wVd w) i s t ∧
        ∀ j < 32, t.lane p (wVd w) j = canonFw (v.konst (wImm20 w % 64)) % 2 ^ 40) ∧
    (wOp w = 0x21 →
      ∃ t, exec (.vRndu tile) s = .next t ∧ Issued p (wVd w) i s t ∧
        ∀ j < 32, t.lane p (wVd w) j =
          (toFw (.fin false (cgBits (s.get NUM_CG_SEED.SEED) r.step r.mb (wImm20 w % 128) (32 * i.row + j)
            ((v.tileBase + i.ib * v.tileRowStride + i.jb) % 2 ^ 32) v.layer (if bit w 7 then 2 else 4)) (-16))).bits % 2 ^ 40) ∧
    (wOp w = 0x29 →
      ∃ t, exec (.vAdda tile) s = .next t ∧ Same [.regs, .benches] s t ∧ RegsBut (vecRegs p) s t ∧
        (t.bench p).vreg = (s.bench p).vreg ∧ (t.bench p).inv = some { i with pc := i.pc + 1 } ∧
        (∀ q ≠ p, t.bench q = s.bench q) ∧
        (∀ n, n ≠ wVd w % 8 → SMap.get (t.bench p).areg 0 n = SMap.get (s.bench p).areg 0 n) ∧
        (SMap.get (t.bench p).areg 0 (wVd w % 8)).toNat / 2 ^ 48 =
          (SMap.get (s.bench p).areg 0 (wVd w % 8)).toNat / 2 ^ 48 ∧
        (((SMap.get (t.bench p).areg 0 (wVd w % 8)).toNat % 2 ^ 48 : Nat) : Int) =
          (((SMap.get (s.bench p).areg 0 (wVd w % 8)).toNat % 2 ^ 48 : Nat) + signed 20 (wImm20 w) * 32) % 2 ^ 48)

/-- LD, LDS, LDA, SPL, STG, ST and STA (R137, R140 to R143, R147, R152): a load within its bounds converts 32 elements; a store
rounds once and writes the row's own bytes; a route takes a block with row 31; an access outside the bounds writes no memory, reads NaN
and is recorded. -/
def Obligations.VectorMemory : Prop :=
  ∀ (s : State) (tile p : Nat) (v : View) (r : Run) (i : Inv) (w : Nat) (c : VCtx), s.live → s.dip = false →
    s.atWork tile = some (p, v, r) → (s.bench p).inv = some i → w = v.prog i.pc → c = ⟨tile, p, v, r, i, w⟩ →
    i.row < 32 →
    (∀ rs, wOp w = 0x22 →
      rs = (aAddr (c.areg s) + wImm7 w * 32 + (if wX w = 1 then i.row * rowBytes (wFmt w) else 0), rowBytes (wFmt w)) ::
        (if isMx (wFmt w) then [(aAddr (c.areg s) + wImm7 w * 32 + 32 * rowBytes (wFmt w) + i.row, 1)] else []) →
      (∀ s1 ds, c.read s (aSpace (c.areg s)) rs = (s1, some (some ds)) →
        ∃ t, exec (.vLd tile) s = .next t ∧ (t.bench p).inv = (s1.bench p).inv.map (fun x => { x with pc := i.pc + 1 }) ∧
          ∀ j < 32, t.lane p (wVd w) j = (toFw (if isMx (wFmt w) then
              mxVal (wFmt w) (elemAt (wFmt w) (ds.headD []) j) (leNat ((ds.drop 1).headD []))
            else elemVal (wFmt w) (elemAt (wFmt w) (ds.headD []) j))).bits % 2 ^ 40) ∧
      (∀ a es, isMx (wFmt w) = false → a = (rs.headD (0, 0)).1 → aSpace (c.areg s) ≠ 2 →
        c.bounds s (aSpace (c.areg s)) a (rowBytes (wFmt w)) = true → es = [vecEntry (aSpace (c.areg s)) a (rowBytes (wFmt w)) false] →
        s.held false (spaceAddr tile (aSpace (c.areg s)) a) (rowBytes (wFmt w)) = false → (s.issue p 2 es).1 = true →
        ∃ s1 ds, c.read s (aSpace (c.areg s)) rs = (s1, some (some ds)) ∧
          ds = [(((s.issue p 2 es).2.fetch false (some r) (spaceAddr tile (aSpace (c.areg s)) a) (rowBytes (wFmt w))).getD
            (List.replicate (rowBytes (wFmt w)) 0, (s.issue p 2 es).2)).1]) ∧
      (aSpace (c.areg s) = 2 ∨ rs.all (fun x => c.bounds s (aSpace (c.areg s)) x.1 x.2) = false →
        ∃ t, exec (.vLd tile) s = .next t ∧ Same [.regs, .benches, .ras] s t ∧ t.get (BEN_VEC_STATUS.ADDR_FAULT p) = 1 ∧
          (p < 4096 → Raised (unitId 0 p) s t) ∧ ∀ j < 32, t.lane p (wVd w) j = fFw40.nanBits % 2 ^ 40)) ∧
    (wOp w = 0x23 →
      (c.block s = none → ∃ t, exec (.vLds tile) s = .next t ∧ Issued p (wVd w) i s t ∧
        ∀ j < 32, t.lane p (wVd w) j = fFw40.nanBits % 2 ^ 40) ∧
      (∀ x, c.block s = some x → v.inFormat x.src ≠ 0x21 →
        ∃ t, exec (.vLds tile) s = .next t ∧ Issued p (wVd w) i s t ∧
          ∀ j < 32, t.lane p (wVd w) j = (toFw ((rowVals (v.inFormat x.src)
            ((x.bytes.drop (i.row * rowBytes (v.inFormat x.src))).take (rowBytes (v.inFormat x.src)))
            (fun k => ((x.bytes.drop (32 * rowBytes (v.inFormat x.src) + (if v.sScaleCols x.src then k else i.row))).headD 0).toNat)
            ).getD j .nan)).bits % 2 ^ 40) ∧
      (∀ x s1 ds, c.block s = some x → v.inFormat x.src = 0x21 →
        c.read s 0 [(v.blockOff x.src x.mn x.k + i.row * 160, 160)] = (s1, some (some ds)) →
        ∃ t, exec (.vLds tile) s = .next t ∧ ∀ j < 32, t.lane p (wVd w) j =
          (toFw (elemVal 0x21 (elemAt 0x21 (ds.headD []) j))).bits % 2 ^ 40)) ∧
    (wOp w = 0x24 →
      ∃ t, exec (.vLda tile) s = .next t ∧ Issued p (wVd w) i s t ∧
        ∀ j < 32, ∀ a, a = (if i.kind = 2 then
            (SMap.get ((s.bench p).bank (if i.gate then wAreg w % 2 else i.bank)) 0 (32 * i.row + j)).toNat
          else (c.bankRow s (wAreg w % 2)).getD j 0) →
          (wFmt w = 0 ∨ v.strict = false → t.lane p (wVd w) j = (toFw (ofAcc a)).bits % 2 ^ 40) ∧
          (wFmt w ≠ 0 → v.strict = true → t.lane p (wVd w) j = (toFw (elemVal (wFmt w)
            (storeAs (wFmt w) c.sat c.mode (if c.mode = 2 then c.rho s 1 (wImm7 w) j else 0) (ofAcc a)).bits)).bits % 2 ^ 40)) ∧
    (wOp w = 0x28 →
      (v.strict = false → ∃ t, exec (.vSpl tile) s = .next t ∧ Issued p 64 i s t) ∧
      (v.strict = true → ∃ t, exec (.vSpl tile) s = .next t ∧ Issued p (wVd w) i s t ∧
        ∀ j < 32, t.lane p (wVd w) j = (toFw (elemVal (wFmt w)
          (storeAs (wFmt w) c.sat c.mode (if c.mode = 2 then c.rho s 1 (wImm7 w) j else 0)
            (ofFw (s.lane p (wVd w) j))).bits)).bits % 2 ^ 40)) ∧
    (wOp w = 0x26 →
      (c.block s = none → ∃ t, exec (.vStg tile) s = .next t ∧ Issued p 64 i s t) ∧
      (∀ x, c.block s = some x →
        ∃ t, exec (.vStg tile) s = .next t ∧ Same [.regs, .benches] s t ∧ RegsBut (vecRegs p) s t ∧
          (t.bench p).vreg = (s.bench p).vreg ∧ (∀ q ≠ p, t.bench q = s.bench q) ∧
          ∀ y ∈ (t.bench p).stA ++ (t.bench p).stB, y.ord = x.ord → ∀ j < 32,
            SMap.find? y.out (32 * i.row + j) =
              some ((storeAs (v.sFormat x.src) (wSat w == 1) (wMode w % 2) 0 (ofFw (s.lane p (wVd w) j))).bits + 1))) ∧
    (∀ cmd op raw val, (cmd, op, raw, val) ∈ ([
        (.vSt tile, 0x25, s.lanes p (wVd w), fun x => ofFw x),
        (.vSta tile, 0x27, c.bankRow s (wVd w % 2), fun x => ofAcc x)] : List (Instr × Nat × List Nat × (Nat → Val))) →
      wOp w = op →
      (∀ a data e, isMx (wFmt w) = false → aSpace (c.areg s) ≠ 2 → a = aAddr (c.areg s) + i.row * rowBytes (wFmt w) →
        data = packElems (elemBits (wFmt w)) (c.rowOut s (wFmt w) raw val).elems →
        e = vecEntry (aSpace (c.areg s)) a data.length true →
        (c.bounds s (aSpace (c.areg s)) a data.length = true →
          s.held false (spaceAddr tile (aSpace (c.areg s)) a) data.length = false → (s.issue p 2 [e]).1 = true →
          ∀ u, (s.issue p 2 [e]).2.store false (spaceAddr tile (aSpace (c.areg s)) a) data = some u →
          ∃ t, exec cmd s = .next t ∧ Same [.regs, .benches] u t ∧ (t.bench p).vreg = (s.bench p).vreg ∧
            (t.bench p).inv = (u.bench p).inv.map (fun x => { x with pc := i.pc + 1 })) ∧
        (c.bounds s (aSpace (c.areg s)) a data.length = false →
          ∃ t, exec cmd s = .next t ∧ Same [.regs, .benches, .ras] s t ∧ t.get (BEN_VEC_STATUS.ADDR_FAULT p) = 1 ∧
            (p < 4096 → Raised (unitId 0 p) s t) ∧ (t.bench p).vreg = (s.bench p).vreg)) ∧
      (isMx (wFmt w) = true → wX w = 1 → aSpace (c.areg s) ≠ 2 → i.row < 31 →
        ∃ t, exec cmd s = .next t ∧ Same [.regs, .benches] s t ∧ (t.bench p).inv = some { i with pc := i.pc + 1 } ∧
          SMap.get (t.bench p).rowBuf [] (64 * i.pc + i.row) = packElems 64 raw) ∧
      (aSpace (c.areg s) = 2 → c.routeOk (aAddr (c.areg s) % 64) (wFmt w) = false → v.rKind (aAddr (c.areg s) % 64) ≠ 6 →
        ∃ t, exec cmd s = .next t ∧ Same [.regs, .benches, .ras] s t ∧ t.get (BEN_VEC_STATUS.ADDR_FAULT p) = 1 ∧
          (p < 4096 → Raised (unitId 0 p) s t) ∧ (t.bench p).vreg = (s.bench p).vreg) ∧
      (aSpace (c.areg s) = 2 → c.routeOk (aAddr (c.areg s) % 64) (wFmt w) = true → i.row < 31 →
        ∃ t, exec cmd s = .next t ∧ Same [.regs, .benches] s t ∧ (t.bench p).inv = some { i with pc := i.pc + 1 } ∧
          SMap.get (t.bench p).rowBuf [] (64 * i.pc + i.row) = packElems 64 raw) ∧
      (aSpace (c.areg s) = 2 → c.routeOk (aAddr (c.areg s) % 64) (wFmt w) = true → i.row = 31 →
        v.rKind (aAddr (c.areg s) % 64) ≠ 6 → s.canSend v tile (aAddr (c.areg s) % 64) r.mb = false → exec cmd s = .next s))

/-- SCRATCHPAD_ACCESS and SHELF_ACCESS that meet no error (R155 to R158, R171): one that meets a fenced position, a slice without power or
a region in re-encoding waits, and so does one whose turn it is not or whose bank the wide port holds; a read returns the memory's bytes
and changes none, over the mesh for another Bench's read of a slice; a write changes exactly its own bytes. -/
def Obligations.SramAccess : Prop :=
  ∀ (s : State) (shelf : Bool) (p : Nat) (a : Access) (c : Instr), s.live →
    c = (if shelf then .shelfAccess p a else .scratchpadAccess p a) →
    (s.inServ p = false ∨ s.accessHeld shelf p a.off a.len = true → exec c s = .next s) ∧
    (s.inServ p = true → Access.shapeOk shelf a = true → s.accessHeld shelf p a.off a.len = false →
      (s.itsTurn shelf p a = false → exec c s = .next s) ∧
      (s.itsTurn shelf p a = true → s.blockedBy shelf p a = true →
        ∃ t, exec c s = .next t ∧ Same [.benches] s t ∧ t.bench p = (s.bench p).wait a ∧ ∀ q ≠ p, t.bench q = s.bench q) ∧
      (s.accessGo shelf p a = true → s.bad = [] → a.upset = {} →
        (∀ data, a.wdata = none → data = Mem.rdN (s.mem (memKind shelf)) (p * memBytes shelf + a.off) a.len →
          (shelf = false ∨ a.src ≠ 3 ∨ a.back = none →
            ∃ t, exec c s = .next t ∧ Same [.benches] s t ∧ t.bench p = { (s.bench p).served shelf a with rd := data } ∧
              ∀ q ≠ p, t.bench q = s.bench q) ∧
          (∀ q, shelf = true → a.src = 3 → a.back = some q →
            ∃ t, exec c s = .next t ∧ Same [.benches, .mesh] s t ∧ t.bench p = (s.bench p).served shelf a ∧
              ∃ f ∈ t.mesh.flits, f.dst = q ∧ f.msg = .shelfData data)) ∧
        (∀ d, a.wdata = some d → s.ckp.snap = none →
          ∃ t, exec c s = .next t ∧ Same [.benches, if shelf then .shelf else .sp] s t ∧
            Mem.rdN (t.mem (memKind shelf)) (p * memBytes shelf + a.off) a.len = d ∧
            ∀ x, (x < p * memBytes shelf + a.off ∨ p * memBytes shelf + a.off + a.len ≤ x) →
              Mem.rd (t.mem (memKind shelf)) x = Mem.rd (s.mem (memKind shelf)) x)))

/-- Errors in scratchpads and Shelf slices (R159, R161, R162, R164): one flipped bit of an activation word is corrected and only
counted; two make it read as zero, and raise a record of the Bench; neither changes a byte of memory. The patrol scrubber reads a row of
either memory in a beat in which no other source waits: a row without an error changes nothing, and an uncorrectable word is recorded
and sets SCRUB_UE. -/
def Obligations.SramErrors : Prop :=
  ∀ (s : State) (shelf : Bool) (p off : Nat), s.live → s.inServ p = true → p < 1056 → off < memBytes shelf →
    (∀ (b : Nat) (a : Access) (u : Upset), shelf = false → s.accessHeld false p off 8 = false → s.bad = [] → off % 32 = 0 → b + 1 < 64 →
      s.codeWord .sp ((p * 0xC0000 + off) / 8) = (p * 0xC0000 + off, 8) →
      s.codeWord .sp ((p * 0xC0000 + off) / 8 + 1) = (p * 0xC0000 + off + 8, 8) →
      a = { src := 3, off := off, len := 8, wdata := none, upset := u } →
      (u = { flips := [b] } →
        ∃ t, exec (.scratchpadAccess p a) s = .next t ∧ Same [.regs, .benches] s t ∧ (t.bench p).rd = Mem.rdN s.sp (p * 0xC0000 + off) 8 ∧
          t.get (BEN_SP_CE.COUNT p) = min (2 ^ 48 - 1) (s.get (BEN_SP_CE.COUNT p) + 1) ∧
          t.get MEM_ERR_SCRATCH.CE = min (2 ^ 32 - 1) (s.get MEM_ERR_SCRATCH.CE + 1)) ∧
      (u = { flips := [b, b + 1] } →
        ∃ t, exec (.scratchpadAccess p a) s = .next t ∧ Same [.regs, .benches, .ras, .bad] s t ∧ (t.bench p).rd = List.replicate 8 0 ∧
          t.get (BEN_SP_UE.COUNT p) = min (2 ^ 48 - 1) (s.get (BEN_SP_UE.COUNT p) + 1) ∧ Raised (unitId 0 p) s t)) ∧
    (∀ (u : Upset) (base : Nat) (words : List (Nat × Nat)), base = rowBase shelf p off → words = s.rowWords shelf p off 1 →
      (∀ busy, s.get MEM_CTRL.SCRUB_EN = 0 ∨ busy = true → exec (.patrolScrub shelf p off ⟨u, busy⟩) s = .next s) ∧
      (s.get MEM_CTRL.SCRUB_EN = 1 → s.accessHeld shelf p off 1 = false →
        ∃ t, exec (.patrolScrub shelf p off ⟨u, false⟩) s = .next t ∧ Same [.regs, .ras, .bad] s t ∧
          ((∀ w ∈ words, s.judge shelf base u w = 0) → t = s) ∧
          ((∀ w ∈ words, s.judge shelf base u w ≠ 3) → Same [.regs] s t) ∧
          (∀ w ∈ words, s.judge shelf base u w = 3 →
            t.get MEM_EVENT.SCRUB_UE = 1 ∧ (SMap.find? t.ras.latches (unitId (b2n shelf) p)).isSome = true)))

/-- OPEN, CLOSE, CREDIT_ARRIVE and WINDOW_WRITE (R177 to R181): an opened window has its range and its peer gets a credit; closing an
OPEN window advances its epoch, past 0; a credit joins the entry of its window's epoch; a write that the owner does not accept changes no
memory, one that it accepts is performed in full, and either is answered. -/
def Obligations.WindowsAndCredits : Prop :=
  ∀ s : State, s.live →
    (∀ tile p v r d, s.dmaAt tile 3 = some (p, v, r, d) →
      ∃ t, exec (.closeWindow tile) s = .next t ∧ Same [.regs, .benches] s t ∧
        RegsBut (· = BEN_WIN_STATE.reg p (v.dWindow d % 8)) s t ∧ t.bench p = { s.bench p with moved := true } ∧
        t.get (BEN_WIN_STATE.OPEN p (v.dWindow d % 8)) = 0 ∧
        t.get (BEN_WIN_STATE.EPOCH p (v.dWindow d % 8)) =
          (if s.get (BEN_WIN_STATE.OPEN p (v.dWindow d % 8)) = 0 then s.get (BEN_WIN_STATE.EPOCH p (v.dWindow d % 8))
           else if s.get (BEN_WIN_STATE.EPOCH p (v.dWindow d % 8)) = 2 ^ 32 - 1 then 1
           else s.get (BEN_WIN_STATE.EPOCH p (v.dWindow d % 8)) + 1)) ∧
    (∀ tile p v r d, s.dmaAt tile 2 = some (p, v, r, d) → v.dWinOff d < 2 ^ 20 → v.dWinBytes d < 2 ^ 20 →
      ∃ t, exec (.openWindow tile) s = .next t ∧ t.get (BEN_WIN_STATE.OPEN p (v.dWindow d % 8)) = 1 ∧
        t.get (BEN_WIN_RANGE.OFFSET p (v.dWindow d % 8)) = v.dWinOff d ∧
        t.get (BEN_WIN_RANGE.BYTES p (v.dWindow d % 8)) = v.dWinBytes d ∧
        (s.get (BEN_WIN_STATE.OPEN p (v.dWindow d % 8)) = 0 →
          t.get (BEN_WIN_STATE.EPOCH p (v.dWindow d % 8)) = s.get (BEN_WIN_STATE.EPOCH p (v.dWindow d % 8))) ∧
        ∀ q, s.ownDie (v.dPeer d / 2 ^ 16 % 16) = true → s.phys (v.dPeer d % 1024) = some q →
          Same [.regs, .benches, .mesh] s t ∧
          RegsBut (fun o => o = BEN_WIN_STATE.reg p (v.dWindow d % 8) ∨ o = BEN_WIN_RANGE.reg p (v.dWindow d % 8)) s t ∧
          ∃ f ∈ t.mesh.flits, f.dst = q ∧ f.msg = .winCredit (v.dPeer d % 1024)
            ⟨s.get WRD_BOARD.DIE, tile, v.dWindow d % 8, t.get (BEN_WIN_STATE.EPOCH p (v.dWindow d % 8)), v.dCredit d⟩) ∧
    (∀ tile cr, s.ownDie cr.die = true → s.arrived (fun _ g => g == .winCredit tile cr) = none →
      exec (.creditArrive tile cr) s = .next s) ∧
    (∀ tile p cr u, s.phys tile = some p → 0 < cr.bytes → cr.epoch < 2 ^ 32 →
      (s.ownDie cr.die = false ∧ u = s ∨
        s.ownDie cr.die = true ∧ ∃ x, s.arrived (fun _ g => g == .winCredit tile cr) = some x ∧ u = s.takeUp x) →
      (∀ c old, (s.creditOf p (cr.die % 16) (cr.tile % 1024) (cr.window % 8) = some c ∧
          old = (if s.get (BEN_CREDIT_STATE.EPOCH p c) = cr.epoch then s.get (BEN_CREDIT_STATE.BYTES p c) else 0)) ∨
          (s.creditOf p (cr.die % 16) (cr.tile % 1024) (cr.window % 8) = none ∧ old = 0 ∧
          (List.range 8).find? (fun c => !(s.on (BEN_CREDIT_KEY.VALID p c))) = some c) →
        ∃ t, exec (.creditArrive tile cr) s = .next t ∧ Same [.regs] u t ∧
          RegsBut (fun o => o = BEN_CREDIT_KEY.reg p c ∨ o = BEN_CREDIT_STATE.reg p c) s t ∧
          t.get (BEN_CREDIT_KEY.VALID p c) = 1 ∧ t.get (BEN_CREDIT_STATE.EPOCH p c) = cr.epoch ∧
          t.get (BEN_CREDIT_STATE.BYTES p c) = min 0x1FFFFF (old + cr.bytes)) ∧
      (s.creditOf p (cr.die % 16) (cr.tile % 1024) (cr.window % 8) = none →
        (∀ c < 8, s.get (BEN_CREDIT_KEY.VALID p c) = 1) → p < 4096 →
        ∃ t, exec (.creditArrive tile cr) s = .next t ∧ Same [.regs, .ras] u t ∧
          RegsBut (fun o => o = BEN_DMA_STATUS.reg p ∨ regsOf 13 o) s t ∧
          t.get (BEN_DMA_STATUS.CREDIT_LOST p) = 1 ∧ Raised (unitId 0 p) s t)) ∧
    (∀ w : WinWrite, s.held true (spAddr w.tile w.off) w.data.length = false →
      (w.sender = none →
        (s.winCode w ≠ 0 → exec (.windowWrite w) s = .next s) ∧
        (∀ u, s.winCode w = 0 → s.store true (spAddr w.tile w.off) w.data = some u →
          exec (.windowWrite w) s = .next (s.keepIns u))) ∧
      (∀ die tile x q, w.sender = some (die, tile) → s.ownDie die = true → s.arrived (fun _ g => g == .winWrite w) = some x →
        s.phys tile = some q →
        ∃ t, exec (.windowWrite w) s = .next t ∧ (s.winCode w ≠ 0 → Same [.mesh] s t) ∧
          (∀ u, s.winCode w = 0 → s.store true (spAddr w.tile w.off) w.data = some u → Same [.mesh] u t) ∧
          ∃ f ∈ t.mesh.flits, f.dst = q ∧ f.msg = .winAnswer tile w.tag (s.winCode w)) ∧
      (∀ die tile, w.sender = some (die, tile) → s.ownDie die = false →
        ∃ t, exec (.windowWrite w) s = .next t ∧ (s.winCode w ≠ 0 → t.sp = s.sp ∧ t.shelf = s.shelf ∧ t.wrd = s.wrd) ∧
          ∀ u, s.winCode w = 0 → s.store true (spAddr w.tile w.off) w.data = some u → t.sp = u.sp))

/-- DESCRIPTOR_TRIGGER, COPY, CREDIT_WRITE_SEND and COPY_DONE (R175, R178, R233, R358, R485): a descriptor starts when its trigger is
met, or issues its WAIT; a COPY between memories moves the bytes that it reads; one from a route takes the words that have come, or waits
for them; one to a route sends its data when the entry can take it; a remote write goes out only under credit, which it spends; completion
passes to the next descriptor. -/
def Obligations.TransferEngine : Prop :=
  ∀ (s : State) (tile p : Nat) (v : View) (r : Run) (d : Nat), s.live → s.dmaOn tile = some (p, v, r, d) →
    ((s.bench p).started = false → (v.dTrigger d = 0 ∨ 2 ≤ v.dTrigger d ∧ s.tailDone p v = true) →
      ∃ t, exec (.descriptorTrigger tile) s = .next t ∧ Same [.regs, .benches] s t ∧ RegsBut (· = BEN_DMA_STATUS.reg p) s t ∧
        t.bench p = { s.bench p with started := true } ∧ t.get (BEN_DMA_STATUS.STATE p) = 2) ∧
    (v.dTrigger d = 2 → s.tailDone p v = false → exec (.descriptorTrigger tile) s = .next s) ∧
    ((s.bench p).started = false → v.dTrigger d = 1 → (s.bench p).waiting = none → s.replay = false →
      ∃ t, exec (.descriptorTrigger tile) s = .next t ∧ (t.bench p).waiting = some s.now ∧ (t.bench p).started = false) ∧
    (s.dmaAt tile 1 = some (p, v, r, d) → v.dSrcSpace d ≠ 2 → v.dDstSpace d ≠ 2 → v.dDstSpace d ≠ 4 →
      ∀ n rd wr, n = min 65536 (v.dLength d - (s.bench p).prog) →
      rd = ⟨3, v.dSrcSpace d, v.dSrc d + (s.bench p).prog, n, false⟩ → wr = ⟨3, v.dDstSpace d, v.dDst d + (s.bench p).prog, n, true⟩ →
      s.held false (spaceAddr tile rd.space rd.lo) n = false → s.held false (spaceAddr tile wr.space wr.lo) n = false →
      (s.issue p 3 [rd, wr]).1 = true →
      ∀ x u w, (s.issue p 3 [rd, wr]).2.fetch false (some r) (spaceAddr tile rd.space rd.lo) n = some (x, u) →
      u.store false (spaceAddr tile wr.space wr.lo) (ownCopy r tile v d (s.bench p).prog x) = some w →
      (v.dSrcSpace d ≠ v.dDstSpace d → ownCopy r tile v d (s.bench p).prog x = x) ∧
      ∃ t, exec (.copy tile) s = .next t ∧ Same [.benches] w t ∧ (t.bench p).prog = (s.bench p).prog + n ∧
        (t.bench p).moved = decide (v.dLength d ≤ (s.bench p).prog + n)) ∧
    (s.dmaAt tile 1 = some (p, v, r, d) → v.dDstSpace d ≠ 4 → v.dSrcSpace d = 2 →
      (∀ x : RxPacket, x ∈ (s.bench p).rx → x.route ≠ v.dSrc d % 64) →
      ∃ t, exec (.copy tile) s = .next t ∧ Same [.regs, .benches] s t ∧
        t.bench p = { s.bench p with waiting := some ((s.bench p).waiting.getD s.now), starved := some (v.dSrc d % 64) }) ∧
    (s.dmaAt tile 1 = some (p, v, r, d) → v.dDstSpace d ≠ 4 → v.dSrcSpace d = 2 →
      ∀ x data wr, (s.bench p).rx.find? (fun x => x.route == v.dSrc d % 64) = some x → x.got ≠ [] →
      data = x.got.take (v.dLength d - (x.recv * 64 - x.got.length)) → data ≠ [] →
      wr = ⟨3, v.dDstSpace d, v.dDst d + (x.recv * 64 - x.got.length), data.length, true⟩ →
      s.held false (spaceAddr tile wr.space wr.lo) data.length = false → (s.issue p 3 [wr]).1 = true →
      ∀ w, (s.issue p 3 [wr]).2.store false (spaceAddr tile wr.space wr.lo) data = some w →
      ∃ t, exec (.copy tile) s = .next t ∧ Same [.regs, .benches, .ras] w t ∧ (t.bench p).prog = x.recv * 64 ∧
        (t.bench p).moved = decide (x.recv = x.words) ∧ (t.bench p).waiting = none) ∧
    (s.dmaAt tile 1 = some (p, v, r, d) → v.dDstSpace d = 2 → v.dSrcSpace d ≠ 2 →
      (s.canSend v tile (v.dDst d % 64) r.mb = false → v.rKind (v.dDst d % 64) ≠ 6 → exec (.copy tile) s = .next s) ∧
      (s.canSend v tile (v.dDst d % 64) r.mb = true →
        s.held false (spaceAddr tile (v.dSrcSpace d) (v.dSrc d)) (v.dLength d) = false →
        (s.issue p 3 [⟨3, v.dSrcSpace d, v.dSrc d, v.dLength d, false⟩]).1 = true →
        ∃ t, exec (.copy tile) s = .next t ∧ (t.bench p).moved = true ∧ (t.bench p).prog = v.dLength d)) ∧
    (s.dmaAt tile 1 = some (p, v, r, d) → v.dDstSpace d = 4 → (s.bench p).nacked = false → (s.bench p).prog < v.dLength d →
      (s.writeCredit p v d = none →
        ∀ c ∈ [Instr.copy tile, .creditWriteSend tile],
        ∃ t, exec c s = .next t ∧ Same [.regs] s t ∧ RegsBut (· = BEN_DMA_STATUS.reg p) s t ∧
          t.get (BEN_DMA_STATUS.STATE p) = 3) ∧
      (∀ k a n q, s.writeCredit p v d = some k → (a, n) = s.nextWrite p v d → s.ownDie (a / 2 ^ 48) = true →
        s.held false (spaceAddr tile (v.dSrcSpace d) (v.dSrc d + (s.bench p).prog)) n = false →
        (s.issue p 3 [⟨3, v.dSrcSpace d, v.dSrc d + (s.bench p).prog, n, false⟩, ⟨3, 4, a, n, true⟩]).1 = true →
        s.phys ((a % 2 ^ 48 - spBase) / 0x100000) = some q →
        ∃ t op, exec (.creditWriteSend tile) s = .next t ∧ t.remote = s.remote ++ [op] ∧ op.write = true ∧
          op.addr = a % 2 ^ 48 ∧ op.bytes = n ∧ n ≤ 256 ∧ n ≤ s.get (BEN_CREDIT_STATE.BYTES p k) ∧
          t.get (BEN_CREDIT_STATE.BYTES p k) = s.get (BEN_CREDIT_STATE.BYTES p k) - n ∧
          ∃ f ∈ t.mesh.flits, f.dst = q ∧ ∃ w, f.msg = .winWrite w ∧ w.sender = some (op.die, tile) ∧ w.data.length = n ∧
            w.epoch = s.get (BEN_CREDIT_STATE.EPOCH p k))) ∧
    ((s.bench p).moved = true →
      (∀ n, v.nextDesc (d + 1) = some n → n < 64 →
        ∃ t, exec (.copyDone tile) s = .next t ∧ (v.dDone d = 0xFF → Same [.regs, .benches] s t ∧ RegsBut (· = BEN_DMA_STATUS.reg p) s t) ∧
          t.get (BEN_DMA_STATUS.DESC p) = n ∧ t.get (BEN_DMA_STATUS.STATE p) = 1 ∧
          (t.bench p).started = false ∧ (t.bench p).moved = false ∧ (t.bench p).prog = 0) ∧
      (v.nextDesc (d + 1) = none →
        ∃ t, exec (.copyDone tile) s = .next t ∧ (v.dDone d = 0xFF → Same [.regs, .benches] s t) ∧ (t.bench p).descDone = true ∧
          t.get (BEN_DMA_STATUS.STATE p) = 0))

/-- Bring-up of a Wardrobe port (Table 07.2, R186, R188, R189, R191): the steps in their order; a failed attempt goes back to step 3,
and the third one since the port was last READY ends in FAILED with a record and REPLACE; clearing leaves zeros in the port's part of the
memory alone, and the last port to be READY puts the Wardrobe into service; the retraining of a warm reset clears nothing. -/
def Obligations.WardrobeBringUp : Prop :=
  ∀ (s : State) (p : Nat), s.live → s.bonded p = true →
    (s.get (WRD_PORT_STATUS.STATE p) = 1 → s.get (PWR_FN_CTRL.STATUS (64 + p)) = 1 ∨ s.get (PWR_FN_CTRL.STATUS (64 + p)) = 2 →
      ∃ t, exec (.wrdPortPllLock p) s = .next t ∧ Same [.regs, .wports] s t ∧
        RegsBut (fun o => o = WRD_PORT_STATUS.reg p ∨ o = PWR_FN_CTRL.reg (64 + p)) s t ∧
        t.get (WRD_PORT_STATUS.STATE p) = 2 ∧ t.get (WRD_PORT_STATUS.RATE p) = s.get WRD_CTRL.RATE ∧ (t.wport p).step = 3 ∧
        (s.get (PWR_FN_CTRL.PENDING (64 + p)) = 0 → t.get (PWR_FN_CTRL.STATUS (64 + p)) = 2)) ∧
    (s.atStep p 3 = true →
      ∃ t, exec (.wrdResetRelease p) s = .next t ∧ Same [.wports] s t ∧
        t.wport p = { s.wport p with step := 4, resetN := true, stepAt := s.now }) ∧
    (s.atStep p 4 = true →
      (s.now < (s.wport p).stepAt + 800000 → exec (.wrdZqStart p) s = .next s) ∧
      ((s.wport p).stepAt + 800000 ≤ s.now →
        ∃ t, exec (.wrdZqStart p) s = .next t ∧ Same [.wports] s t ∧ t.wport p = { s.wport p with
          step := 6, zqAt := s.now, fsp0 := some (s.get (WRD_PORT_STATUS.RATE p)), fsp1 := some (s.get (WRD_PORT_STATUS.RATE p)),
          fsp := 0, rfm := Config.rfmThreshold p, acts := [] })) ∧
    (s.atStep p 6 = true →
      (s.sec.warming = false → ∃ t, exec (.wrdTrainDone p none) s = .next t ∧ Same [.regs, .wports] s t ∧
        RegsBut (· = WRD_PORT_STATUS.reg p) s t ∧
        t.get (WRD_PORT_STATUS.STATE p) = 3 ∧ (t.wport p).step = 8 ∧ (t.wport p).fsp = 1 ∧
        t.get (WRD_PORT_STATUS.TRIES p) = min 15 (s.get (WRD_PORT_STATUS.TRIES p) + 1)) ∧
      (s.sec.warming = true → ∃ t, exec (.wrdTrainDone p none) s = .next t ∧ Same [.regs, .wports] s t ∧
        t.get (WRD_PORT_STATUS.STATE p) = 4 ∧ bit (t.get WRD_STATUS.READY) p = true ∧ (t.wport p).fails = 0) ∧
      (∀ f, f = 5 ∨ f = 6 ∨ f = 7 → (s.wport p).fails < 2 →
        ∃ t, exec (.wrdTrainDone p (some f)) s = .next t ∧ Same [.regs, .wports] s t ∧
          RegsBut (fun o => o = WRD_PORT_STATUS.reg p ∨ o = WRD_STATUS.reg) s t ∧ t.get (WRD_PORT_STATUS.FAIL_STEP p) = f ∧
          t.get (WRD_PORT_STATUS.STATE p) = 2 ∧ t.get (WRD_PORT_STATUS.TRIES p) = min 15 (s.get (WRD_PORT_STATUS.TRIES p) + 1) ∧
          (t.wport p).step = 3 ∧ (t.wport p).resetN = false ∧ (t.wport p).fails = (s.wport p).fails + 1) ∧
      (∀ f, f = 5 ∨ f = 6 ∨ f = 7 → 2 ≤ (s.wport p).fails →
        ∃ t, exec (.wrdTrainDone p (some f)) s = .next t ∧ Same [.regs, .wports, .ras, .sec] s t ∧
          t.get (WRD_PORT_STATUS.STATE p) = 5 ∧ t.get (WRD_PORT_STATUS.FAIL_STEP p) = f ∧ t.get WRD_EVENT.TRAIN_FAIL = 1 ∧
          t.get WRD_STATUS.IN_SERVICE = 0 ∧ t.get RAS_STATUS.REPLACE = 1 ∧ t.get RAS_EVENT.REPLACE = 1 ∧
          Raised (unitId 2 p) s t)) ∧
    (s.atStep p 8 = true →
      ∃ t, exec (.wrdClearDone p) s = .next t ∧ Same [.regs, .wrd, .bad, .wports] s t ∧
        t.get (WRD_PORT_STATUS.STATE p) = 4 ∧ bit (t.get WRD_STATUS.READY) p = true ∧
        (∀ a, (s.wrdLocate a).1 = p → Mem.rd t.wrd a = 0) ∧
        (∀ a, (s.wrdLocate a).1 ≠ p → Mem.rd t.wrd a = Mem.rd s.wrd a) ∧
        ((∀ q ∈ s.wrdPorts, q ≠ p → bit (s.get WRD_STATUS.READY) q = true) →
          t.get WRD_STATUS.IN_SERVICE = 1 ∧
          (s.get WRD_STATUS.IN_SERVICE = 0 → t.get FAB_WRD_LIMIT.LIMIT = s.wrdEnd - 2 ^ 30 ∧ t.get GLB_BOOT.STAGE = 3)) ∧
        (∀ q ∈ s.wrdPorts, q ≠ p → bit (s.get WRD_STATUS.READY) q = false →
          t.get WRD_STATUS.IN_SERVICE = s.get WRD_STATUS.IN_SERVICE))

/-- Refresh, refresh management, recalibration and temperature of a Wardrobe port, WRD_SCRUB, WARDROBE_READ and WARDROBE_WRITE (R192 to
R194, R198, R200 to R202, R204): refresh and recalibration touch no data; refresh management comes where the device's mode registers ask
for it; a device above its temperature range is reported; a read of a good block returns the stored bytes, and above the limit what the
device holds there; one of an uncorrectable block returns zeros and raises a record; a write changes exactly its own bytes. -/
def Obligations.WardrobeUpkeepAndAccess : Prop :=
  (∀ (s : State) (p : Nat), s.live → s.portReady p = true →
     (∃ t, exec (.wrdRefresh p) s = .next t ∧ Same [.wports] s t ∧ t.wport p = { s.wport p with refAt := s.now }) ∧
     (∀ drifted, ∃ t, exec (.wrdZqRecal p drifted) s = .next t ∧ Same [.wports] s t ∧
       t.wport p = { s.wport p with zqAt := s.now }) ∧
     (∀ bank th, (s.wport p).rfm = some th → th ≤ SMap.get (s.wport p).acts 0 bank →
       ∃ t, exec (.wrdRfm p bank) s = .next t ∧ Same [.regs, .wports] s t ∧ RegsBut (· = WRD_PORT_REFRESH.reg p) s t ∧
       t.get (WRD_PORT_REFRESH.RFM_COUNT p) = min (2 ^ 32 - 1) (s.get (WRD_PORT_REFRESH.RFM_COUNT p) + 1) ∧
       SMap.get (t.wport p).acts 0 bank = 0 ∧ ∀ b ≠ bank, SMap.get (t.wport p).acts 0 b = SMap.get (s.wport p).acts 0 b) ∧
     (∀ bank, (s.wport p).rfm = none → exec (.wrdRfm p bank) s = .next s) ∧
     (∀ rate < 32,
       (∃ t, exec (.wrdMr4Read p rate false) s = .next t ∧ Same [.regs, .wports] s t ∧
         RegsBut (· = WRD_PORT_REFRESH.reg p) s t ∧ t.get (WRD_PORT_REFRESH.MR4_RATE p) = rate) ∧
       ∃ t, exec (.wrdMr4Read p rate true) s = .next t ∧ Same [.regs, .wports, .ras] s t ∧
         t.get (WRD_PORT_REFRESH.MR4_RATE p) = rate ∧ t.get WRD_EVENT.TEMP_LIMIT = 1 ∧ Raised (unitId 2 p) s t) ∧
     (∀ blk b ce retry, b = blk * s.wrdPorts.length + s.wrdPorts.idxOf p → s.get WRD_CTRL.SCRUB_EN = 1 → (b + 1) * 512 ≤ s.wrdEnd →
       ((0, b) ∉ s.bad →
         ∃ t, exec (.wrdScrub p blk ⟨[], ce, retry⟩) s = .next t ∧ Same [.regs, .wports] s t ∧ RegsBut (· = WRD_PORT_ERR.reg p) s t ∧
           t.get (WRD_PORT_ERR.LINK_RETRY p) = min 65535 (s.get (WRD_PORT_ERR.LINK_RETRY p) + b2n retry)) ∧
       ((0, b) ∈ s.bad →
         ∃ t, exec (.wrdScrub p blk ⟨[], ce, retry⟩) s = .next t ∧ Same [.regs, .wports, .ras, .sec] s t ∧ t.get WRD_EVENT.SCRUB_UE = 1 ∧
           Raised (unitId 2 (s.wrdLocate (b * 512)).1) s t))) ∧
  (∀ (s : State) (addr : Nat), s.live →
     (∀ len ofRun ce retry, s.inBlock addr len = true → s.bad = [] →
       ∃ t, exec (.wardrobeRead addr len [] ofRun ce retry) s = .next t ∧ Same [.regs, .wports] s t ∧
         RegsBut (· = WRD_PORT_ERR.reg (s.wrdLocate addr).1) s t ∧
         (t.wport (s.wrdLocate addr).1).rd = s.wrdBytes addr len ∧
         (addr + len ≤ s.get FAB_WRD_LIMIT.LIMIT → s.wrdBytes addr len = Mem.rdN s.wrd addr len) ∧
         t.get (WRD_PORT_ERR.LINK_CE (s.wrdLocate addr).1) =
           min 65535 (s.get (WRD_PORT_ERR.LINK_CE (s.wrdLocate addr).1) + b2n ce)) ∧
     (∀ len ce retry, s.inBlock addr len = true → (0, addr / 512) ∈ s.bad →
       ∃ t, exec (.wardrobeRead addr len [] false ce retry) s = .next t ∧ Same [.regs, .wports, .ras, .sec] s t ∧
         (t.wport (s.wrdLocate addr).1).rd = List.replicate len 0 ∧
         Raised (unitId 2 (s.wrdLocate (addr / 512 * 512)).1) s t) ∧
     (∀ data ce retry, s.inBlock addr data.length = true → s.bad = [] → s.ckp.snap = none →
       ∃ t, exec (.wardrobeWrite addr data ⟨[], ce, retry⟩) s = .next t ∧ Same [.regs, .wrd, .wports] s t ∧
         RegsBut (· = WRD_PORT_ERR.reg (s.wrdLocate addr).1) s t ∧
         Mem.rdN t.wrd addr data.length = data ∧
         ∀ a, (a < addr ∨ addr + data.length ≤ a) → Mem.rd t.wrd a = Mem.rd s.wrd a) ∧
     (s.get WRD_STATUS.IN_SERVICE = 0 → ∀ data u, exec (.wardrobeWrite addr data u) s = .next s))

/-- MEM_READ, MEM_WRITE, MEM_RESP and REMOTE_OP_TIMEOUT (Table 07.6, R179, R206 to R208, R210): an operation that the table refuses
changes no memory and is answered with an address error; a response that no operation waits for is discarded, and one that an operation
waits for completes it; a timeout is recorded and ends its operation. -/
def Obligations.RemoteOperations : Prop :=
  ∀ s : State, s.live →
    (∀ m : MemOp, deskOp m.issuer = true →
      exec (.memRead m) s = .next (s.keepIns (s.answerTo m.src m.tag (s.deskRead m.src m.issuer m.addr m.bytes).1
        (s.deskRead m.src m.issuer m.addr m.bytes).2)) ∧
      exec (.memWrite m) s = .next (s.keepIns ((s.deskWrite m.src m.issuer m.addr m.data).2.answerTo m.src m.tag
        (s.deskWrite m.src m.issuer m.addr m.data).1 []))) ∧
    (∀ m : MemOp, deskOp m.issuer = false →
      (s.held false m.addr m.bytes = true → exec (.memRead m) s = .next s) ∧
      (s.held false m.addr m.bytes = false → qstBase ≤ m.addr ∨ s.segs false m.addr m.bytes = none →
        exec (.memRead m) s = .next (s.keepIns (s.answerTo m.src m.tag 4 (List.replicate m.bytes 0)))) ∧
      (∀ l u, s.held false m.addr m.bytes = false → m.addr < qstBase → s.fetch false none m.addr m.bytes = some (l, u) →
        exec (.memRead m) s = .next (s.keepIns (u.answerTo m.src m.tag 0 l))) ∧
      (s.held (decide (spBase ≤ m.addr)) m.addr m.data.length = false →
        (qstBase ≤ m.addr ∨ m.addr < spBase ∧ s.segs false m.addr m.data.length = none →
          exec (.memWrite m) s = .next (s.keepIns (s.answerTo m.src m.tag 4 []))) ∧
        (∀ u, m.addr < spBase → s.store false m.addr m.data = some u →
          exec (.memWrite m) s = .next (s.keepIns (u.answerTo m.src m.tag 0 []))) ∧
        (∀ p, spBase ≤ m.addr → m.addr < qstBase → s.phys ((m.addr - spBase) / 0x100000) = some p → m.issuer < 2 ^ 14 →
          (∀ w < 8, s.get (BEN_WIN_STATE.OPEN p w) = 0) →
          ∃ t, exec (.memWrite m) s = .next t ∧ t.sp = s.sp ∧ t.shelf = s.shelf ∧ t.wrd = s.wrd))) ∧
    (∀ (u : State) (src tag code : Nat) (l : List Byte),
      (u.answerTo src tag code l).sp = u.sp ∧ (u.answerTo src tag code l).shelf = u.shelf ∧
      (u.answerTo src tag code l).wrd = u.wrd ∧ (u.answerTo src tag code l).qst = u.qst) ∧
    (∀ tag status data quiet, (∀ o ∈ s.remote, o.tag ≠ tag % 65536) → exec (.memResp tag ⟨status, quiet⟩ data) s = .next s) ∧
    (∀ tag op, s.remote.find? (fun o => o.tag == tag % 65536) = some op → op.issuer / 2 ^ 14 = 0 →
      (∀ status data quiet, ∃ t, exec (.memResp tag ⟨status, quiet⟩ data) s = .next t ∧ t.remote = s.remote.erase op ∧
        (status = 4 → t.get WRD_EVENT.REMOTE_ERROR = 1)) ∧
      (op.stamp + s.get WRD_REMOTE_TIMEOUT.TICKS ≤ s.now → s.ownDie op.die = false →
        ∃ t, exec (.remoteOpTimeout tag) s = .next t ∧ t.remote = s.remote.erase op ∧ t.get WRD_EVENT.REMOTE_TIMEOUT = 1)) ∧
    (∀ tag op data quiet w a n p d, s.remote.find? (fun o => o.tag == tag % 65536) = some op → op.issuer = 0xC000 → op.chan = none →
      s.sec.op = some (w, a, n, p, d) →
      (p + op.bytes = n →
        ∃ t, exec (.memResp tag ⟨0, quiet⟩ data) s = .next t ∧ t.remote = s.remote.erase op ∧ t.sec.op = none ∧ t.sec.status = accOk ∧
          (w = false → op.write = false → t.sec.data = padTo n (d ++ padTo op.bytes data))) ∧
      (∃ t, exec (.memResp tag ⟨4, quiet⟩ data) s = .next t ∧ t.remote = s.remote.erase op ∧ t.sec.op = none ∧ t.sec.status = accAddress ∧
        t.get WRD_EVENT.REMOTE_ERROR = 1 ∧ Raised (unitId 8 0xFFF) s t) ∧
      (op.stamp + s.get WRD_REMOTE_TIMEOUT.TICKS ≤ s.now →
        ∃ t, exec (.remoteOpTimeout tag) s = .next t ∧ t.remote = s.remote.erase op ∧ t.sec.op = none ∧
          t.sec.status = accTimeout ∧ t.get WRD_EVENT.REMOTE_TIMEOUT = 1 ∧ Raised (unitId 8 0xFFF) s t ∧
          (s.replay = false → s.runNow.any (fun r => r.training) = true → t.red.flags = s.red.flags ||| fRepeat)) ∧
      (s.now < op.stamp + s.get WRD_REMOTE_TIMEOUT.TICKS → exec (.remoteOpTimeout tag) s = .next s))

/-- QUEUE_CONFIG_WRITE, QUEUE_RING_WRITE, QUEUE_FLUSH_REQUEST and QUEUE_FLUSH (R215, R217, R234): a write that breaks a condition
changes no register of the queue; one that is performed while the queue is enabled empties its counters; a flush waits for the open
packet and for packets in delivery, and then discards every packet. -/
def Obligations.QueueConfigAndFlush : Prop :=
  ∀ (s : State) (iss : Issuer) (q : Nat) (w : Word), s.live → q < 64 →
    (∀ c off, (c, off) ∈ [(Instr.queueConfigWrite iss q w, QUE_Q_CFG.reg q), (Instr.queueRingWrite iss q w, QUE_Q_RING.reg q)] →
      ((s.setWord off (writable off w)).queCfgOk q = false →
        ∃ t, exec c s = .next t ∧ Same [.regs, .ras] s t ∧ RegsBut (fun o => o = QUE_EVENT.reg ∨ regsOf 13 o) s t ∧
          t.get QUE_EVENT.CFG_REFUSED = 1 ∧ Raised (unitId 5 q) s t) ∧
      ((s.setWord off (writable off w)).queCfgOk q = true →
        ∃ t, exec c s = .next t ∧ Same [.regs, .queues] s t ∧ RegsBut (regsOf 7) s t ∧ t.word off = writable off w ∧
          (∀ k ≠ q, t.queue k = s.queue k) ∧
          (∀ u, u / 64 < 2 → bit (t.get (QUE_UNIT_MAP.USED (u / 64))) (u % 64) = (List.range 64).any (fun k =>
            t.get (QUE_Q_CFG.EN k) == 1 && decide (t.get (QUE_Q_CFG.BASE_UNIT k) ≤ u) &&
              decide (u < t.get (QUE_Q_CFG.BASE_UNIT k) + t.get (QUE_Q_CFG.UNITS k)))) ∧
          ((s.setWord off (writable off w)).get (QUE_Q_CFG.EN q) = 0 → Same [.regs] s t ∧ t.word (QUE_Q_SEQ.reg q) = s.word (QUE_Q_SEQ.reg q)) ∧
          ((s.setWord off (writable off w)).get (QUE_Q_CFG.EN q) = 1 →
            t.queue q = {} ∧ t.word (QUE_Q_PTR.reg q) = 0 ∧ t.word (QUE_Q_PTR2.reg q) = 0 ∧ t.word (QUE_Q_RING_PTR.reg q) = 0 ∧
            t.word (QUE_Q_SEQ.reg q) = 0))) ∧
    (∃ t, exec (.queueFlushRequest iss w) s = .next t ∧ Same [.regs] s t ∧ RegsBut (regsOf 7) s t ∧
      t.get QUE_FLUSH.REQ = (s.get QUE_FLUSH.REQ ||| w.toNat) ∧
      (bit w.toNat q = true → t.get (QUE_Q_STATUS.FLUSH_PENDING q) = 1) ∧
      (bit w.toNat q = false → t.word (QUE_Q_STATUS.reg q) = s.word (QUE_Q_STATUS.reg q))) ∧
    (bit (s.get QUE_FLUSH.REQ) q = false ∨ (∃ p ∈ (s.queue q).pks, p.st = .opening ∨ p.st = .delivering ∨ p.returning = true) →
      exec (.queueFlush q) s = .next s) ∧
    (bit (s.get QUE_FLUSH.REQ) q = true → (∀ p ∈ (s.queue q).pks, p.st ≠ .opening ∧ p.st ≠ .delivering ∧ p.returning = false) →
      ∃ t, exec (.queueFlush q) s = .next t ∧ (∀ k ≠ q, t.queue k = s.queue k) ∧
        (t.queue q).pks.length ≤ 1 ∧ (∀ p ∈ (t.queue q).pks, p.st = .opening ∧ (p.prod, p.req, p.data) ∈ (s.queue q).wait) ∧
        t.get (QUE_Q_PTR.RD q) = s.get (QUE_Q_PTR2.OP q) ∧ t.get (QUE_Q_PTR2.DL q) = s.get (QUE_Q_PTR2.OP q) ∧
        t.get (QUE_Q_PTR.WR q) = s.get (QUE_Q_PTR2.OP q) ∧
        ((t.queue q).pks = [] → t.get (QUE_Q_PTR2.OP q) = s.get (QUE_Q_PTR2.OP q)) ∧
        t.get (QUE_Q_RING_PTR.RING_RD q) = s.get (QUE_Q_RING_PTR.RING_WR q) ∧
        t.get (QUE_Q_SEQ.NEXT_DELIVER q) = (s.get (QUE_Q_SEQ.NEXT_DELIVER q) + (s.queue q).pks.length) % 2 ^ 32 ∧
        t.get (QUE_Q_STATUS.FLUSH_PENDING q) = 0 ∧ bit (t.get QUE_FLUSH.REQ) q = false)

/-- PACKET_OPEN (R216, R221, R226, R325, R383): a packet of another source is rejected, and its producer hears of it; one whose turn it
is opens on die where it fits and the ring is empty, else in the ring where that has room, and else its producer waits. -/
def Obligations.PacketPlacement : Prop :=
  ∀ (s : State) (q : Nat) (prod : Producer) (r : OpenReq), s.live → q < 64 → r.words ≤ 1024 →
    (s.openAllowed q prod = false →
      ∃ t, exec (.packetOpen q prod r) s = .next t ∧ t.queues = s.queues ∧
        t.get (QUE_Q_ERR.REJECTED q) = min 65535 (s.get (QUE_Q_ERR.REJECTED q) + 1) ∧ t.get QUE_EVENT.REJECTED = 1 ∧
        (SMap.find? t.ras.latches (unitId 5 q)).isSome = true ∧
        (∀ tile, prod = .bench tile → Same [.regs, .ras] s t ∧ Raised (unitId 5 q) s t) ∧
        (∀ port dev, prod = .link port dev → Sends s t dev 3 [BitVec.ofNat 8 q, 1] []) ∧
        (∀ ch x y, prod = .bct ch → s.hst.pushes.find? (fun z => z.1 == ch && z.2.2 == q) = some x → s.rec? ch x.2.1 = some y → y.st ≠ 3 →
          Finished ch x.2.1 0x3A t ∧ t.hst.pushes = s.hst.pushes.erase x)) ∧
    (∀ wait w, s.openAllowed q prod = true →
      wait = (if (s.queue q).wait.any (fun z => z.1 == prod && z.2.1 == r) then (s.queue q).wait else (s.queue q).wait ++ [(prod, r, [])]) →
      pickTurn (s.queue q).turn wait = some w →
      (s.openPk q ≠ none ∨ bit (s.get QUE_FLUSH.REQ) q = true →
        ∃ t, exec (.packetOpen q prod r) s = .next t ∧ t.queue q = { s.queue q with wait := wait } ∧
          t.get (QUE_Q_STATUS.PRODUCER_WAIT q) = 1) ∧
      (s.openPk q = none → bit (s.get QUE_FLUSH.REQ) q = false → s.get (QUE_Q_CFG.UNITS q) ≤ 128 →
        (s.ringPks q = [] → s.qFits q w.2.1.words = true →
          ∃ t p, exec (.packetOpen q prod r) s = .next t ∧ t.openPk q = some p ∧ p.ring = false ∧ (p.prod, p.req, p.data) = w ∧
            p.base = s.get (QUE_Q_PTR2.OP q) ∧ (t.queue q).pks = (s.queue q).pks ++ [p] ∧ (t.queue q).wait = wait.erase w ∧
            (t.queue q).turn = prodOrder w.1 + 1 ∧
            t.get (QUE_Q_PTR2.OP q) = (s.get (QUE_Q_PTR2.OP q) + max w.2.1.words 1) % (2 * s.qW q) ∧
            t.word (QUE_Q_PTR.reg q) = s.word (QUE_Q_PTR.reg q) ∧ t.get (QUE_Q_STATUS.OPEN q) = 1 ∧
            (∀ k ≠ q, t.queue k = s.queue k) ∧
            ∀ port dev, w.1 = .link port dev → port ≠ 255 → Sends s t dev 2 [BitVec.ofNat 8 q] []) ∧
        (s.ringPks q ≠ [] ∨ s.qFits q w.2.1.words = false → s.get (QUE_Q_RING.UNITS q) < 2 ^ 16 → s.qR q ≠ 0 →
          qSpan (s.get (QUE_Q_RING_PTR.RING_RD q)) (s.get (QUE_Q_RING_PTR.RING_WR q)) (s.qR q) + (w.2.1.words + 1) ≤ s.qR q →
          ∃ t p, exec (.packetOpen q prod r) s = .next t ∧ t.openPk q = some p ∧ p.ring = true ∧ (p.prod, p.req, p.data) = w ∧
            p.base = s.get (QUE_Q_RING_PTR.RING_WR q) ∧ t.word (QUE_Q_PTR2.reg q) = s.word (QUE_Q_PTR2.reg q) ∧
            t.get (QUE_Q_RING_PTR.RING_WR q) = (s.get (QUE_Q_RING_PTR.RING_WR q) + (w.2.1.words + 1)) % (2 * s.qR q) ∧
            t.get (QUE_Q_STATUS.SPILL q) = 1 ∧ t.get (QUE_Q_STATUS.OPEN_RING q) = 1 ∧
            ∀ port dev, w.1 = .link port dev → port ≠ 255 → Sends s t dev 2 [BitVec.ofNat 8 q] []) ∧
        (s.ringPks q ≠ [] ∨ s.qFits q w.2.1.words = false →
          s.qR q = 0 ∨ s.qR q < qSpan (s.get (QUE_Q_RING_PTR.RING_RD q)) (s.get (QUE_Q_RING_PTR.RING_WR q)) (s.qR q) + (w.2.1.words + 1) →
          ∃ t, exec (.packetOpen q prod r) s = .next t ∧ t.openPk q = none ∧ (t.queue q).pks = (s.queue q).pks ∧
            (t.queue q).wait = wait ∧ (t.queue q).turn = prodOrder w.1 ∧ t.get (QUE_Q_STATUS.PRODUCER_WAIT q) = 1 ∧
            t.bundles = s.bundles)))

/-- PACKET_COMMIT, RING_RETURN, RING_RETURN_DONE, PACKET_NOTICE, WORD_DELIVER, PACKET_TAKEN and END_MARKER (R214, R220, R223, R225, R227 to
R232, R485): a commit writes the words that the model holds or is given, takes the next sequence number and, for a QUEUE_PUSH, completes
it; a packet comes back from the ring where it fits, COMMITTED with the sequence number that it has. A notice goes to each consumer of the
head packet of the fed micro-batch, and to no other; no more words are sent than a receive buffer has room for; a packet that every
consumer has taken is freed, and an END packet lets the boundary token go. -/
def Obligations.PacketDelivery : Prop :=
  (∀ (s : State) (q : Nat), s.live → q < 64 →
     (s.openPk q = none → ∀ data, exec (.packetCommit q data) s = .next s) ∧
     (∀ p pre data l, (s.queue q).pks = pre ++ [p] → (∀ x ∈ pre, x.st ≠ .opening) → p.st = .opening → l = (if p.data.isEmpty then data else p.data) →
       ((s.queue q).got + (l.length + 63) / 64 ≠ p.req.words → (s.queue q).got ≠ p.req.words → exec (.packetCommit q data) s = .next s) ∧
       ((s.queue q).got + (l.length + 63) / 64 = p.req.words ∨ (s.queue q).got = p.req.words →
         ∃ t n more, exec (.packetCommit q data) s = .next t ∧ (t.queue q).pks = pre ++ n :: more ∧ ((s.queue q).wait = [] → more = []) ∧
           (∀ x ∈ more, x.st = .opening) ∧ n.st = (if p.ring then .inRing else .committed) ∧ n.seq = s.get (QUE_Q_SEQ.NEXT_COMMIT q) ∧
           n.spilled = p.ring ∧ n.req = p.req ∧ n.base = p.base ∧ n.data = [] ∧
           t.get (QUE_Q_SEQ.NEXT_COMMIT q) = (s.get (QUE_Q_SEQ.NEXT_COMMIT q) + 1) % 2 ^ 32 ∧
           (p.ring = false → t.get (QUE_Q_PTR.WR q) = s.get (QUE_Q_PTR2.OP q)) ∧
           (p.ring = true → t.word (QUE_Q_PTR.reg q) = s.word (QUE_Q_PTR.reg q) ∧ (t.queue q).ringCommit = s.get (QUE_Q_RING_PTR.RING_WR q)) ∧
           (∀ tile, p.prod = .bench tile → p.ring = false → (s.queue q).got = 0 → s.bad = [] → s.ckp.snap = none → s.get (QUE_Q_CFG.UNITS q) ≤ 128 →
             p.base < 2 * s.qW q → p.req.words ≤ s.qW q → (l.length + 63) / 64 = p.req.words → ∀ k < p.req.words,
               Mem.rdN t.qst (s.qWord q (qAdv p.base k (s.qW q))) 64 = padTo 64 ((l.drop (64 * k)).take 64)) ∧
           (∀ ch x y, p.prod = .bct ch → s.hst.pushes.find? (fun z => z.1 == ch && z.2.2 == q) = some x → s.rec? ch x.2.1 = some y → y.st ≠ 3 →
             Finished ch x.2.1 0 t ∧ t.hst.pushes = s.hst.pushes.erase x))) ∧
     (∀ p rest, s.ringPks q = p :: rest →
       (p.st ≠ .inRing ∨ p.returning = true ∨ s.qFits q p.req.words = false ∨ (∃ o, s.openPk q = some o ∧ o.ring = false) →
         exec (.ringReturn q) s = .next s) ∧
       (p.st = .inRing → p.returning = false → s.qFits q p.req.words = true → (∀ o, s.openPk q = some o → o.ring = true) →
         s.get (QUE_Q_CFG.UNITS q) ≤ 128 →
         ∃ t, exec (.ringReturn q) s = .next t ∧ Same [.regs, .queues] s t ∧ RegsBut (· = QUE_Q_PTR2.reg q) s t ∧
           t.get (QUE_Q_PTR2.OP q) = (s.get (QUE_Q_PTR2.OP q) + p.room) % (2 * s.qW q) ∧
           { p with returning := true } ∈ (t.queue q).pks)) ∧
     (s.ringPks q = [] → exec (.ringReturn q) s = .next s) ∧
     ((∀ p ∈ s.ringPks q, p.returning = false) → exec (.ringReturnDone q) s = .next s) ∧
     (∀ p pre post, (s.queue q).pks = pre ++ p :: post → (∀ x ∈ pre, x.ring = false ∨ x.returning = false) → p.ring = true → p.returning = true →
       0 < s.qW q → s.get (QUE_Q_CFG.UNITS q) ≤ 128 →
       ∃ t n more, exec (.ringReturnDone q) s = .next t ∧ (t.queue q).pks = pre ++ n :: post ++ more ∧ ((s.queue q).wait = [] → more = []) ∧
         n.st = .committed ∧ n.seq = p.seq ∧ n.req = p.req ∧ n.stampC = p.stampC ∧ n.spilled = true ∧ n.ring = false ∧ n.returning = false ∧
         n.base = s.get (QUE_Q_PTR.WR q) ∧ t.get (QUE_Q_PTR.WR q) = (s.get (QUE_Q_PTR.WR q) + p.room) % (2 * s.qW q) ∧
         t.get (QUE_Q_RING_PTR.RING_RD q) = (s.get (QUE_Q_RING_PTR.RING_RD q) + (p.req.words + 1)) % (2 * s.qR q) % 2 ^ 27 ∧
         ((s.queue q).wait = [] → (∀ x ∈ pre ++ post, x.ring = false) → t.get (QUE_Q_STATUS.SPILL q) = 0) ∧
         (s.bad = [] → s.ckp.snap = none → p.req.words ≤ s.qW q → s.get (QUE_Q_PTR.WR q) < 2 * s.qW q → ∀ k d, k < p.req.words →
           s.rdA true (s.ringWord q (qAdv p.base (1 + k) (s.qR q))) 64 = some d →
           Mem.rdN t.qst (s.qWord q (qAdv (s.get (QUE_Q_PTR.WR q)) k (s.qW q))) 64 = d))) ∧
  (∀ (s : State) (q : Nat), s.live → q < 64 →
     (s.feeding = none ∨ s.headPk q = none → exec (.packetNotice q) s = .next s) ∧
     (∀ m p pre post, s.feeding = some m → s.headPk q = some p → (s.queue q).pks = pre ++ p :: post → p ∉ pre →
       (m.run.mb ≠ p.req.mb ∨ m.run.drawer ≠ s.active ∨ bit (s.get QUE_FLUSH.REQ) q = true ∨ s.consumersOf s.active q = [] ∨
         (∃ x ∈ pre, x.req.isEnd = true) → exec (.packetNotice q) s = .next s) ∧
       (m.run.mb = p.req.mb → m.run.drawer = s.active → bit (s.get QUE_FLUSH.REQ) q = false → s.consumersOf s.active q ≠ [] →
         (∀ x ∈ pre, x.req.isEnd = false) →
         ∃ t n, exec (.packetNotice q) s = .next t ∧ Same [.regs, .queues, .mesh, .fab, .ras] s t ∧ n = { p with st := .delivering } ∧
           (t.queue q).pks = pre ++ n :: post ∧
           ∀ c b, c ∈ s.consumersOf s.active q → s.phys c.1 = some b → OnWay t b (.notice c.1 c.2.1 c.2.2 (padTo 64 (n.notice q))))) ∧
     (∀ p tile b c n u pre post held, (s.queue q).pks = pre ++ p :: post → p ∉ pre → (s.consumersOf s.active q).find? (fun x => x.1 == tile) = some c →
       (s.queue q).pks.find? (fun x => x.st == .delivering && decide (x.sentTo tile < x.req.words)) = some p →
       s.phys tile = some b → held = s.rxHeld b tile c.2.2 →
       (n = 0 ∨ p.req.words < p.sentTo tile + n ∨ 64 < held + n → exec (.wordDeliver q tile ⟨n, u⟩) s = .next s) ∧
       (0 < n → p.sentTo tile + n ≤ p.req.words → held + n ≤ 64 →
         ∃ t p' data, exec (.wordDeliver q tile ⟨n, u⟩) s = .next t ∧ (t.queue q).pks = pre ++ p' :: post ∧ p'.sentTo tile = p.sentTo tile + n ∧
           p'.req = p.req ∧ p'.st = .delivering ∧ data.length = 64 * n ∧ OnWay t b (.words tile c.2.2 p.seq p.req.mb data) ∧ t.qst = s.qst ∧
           (s.bad = [] → u.checks = [] →
             (u.flips.length ≤ 1 → data = ((List.range n).map (fun i =>
               Mem.rdN s.qst (s.qWord q (qAdv p.base (p.sentTo tile + i) (s.qW q))) 64)).flatten) ∧
             (∀ x, x < 512 * n → u.flips = [x] → t.get (QUE_Q_ERR.CE q) = min 65535 (s.get (QUE_Q_ERR.CE q) + 1) ∧
               t.get QUE_ERR_TOTAL.CE = min (2 ^ 32 - 1) (s.get QUE_ERR_TOTAL.CE + 1)) ∧
             (∀ x, x < 512 * n → x % 64 ≠ 63 → u.flips = [x, x + 1] → t.get (QUE_Q_ERR.UE q) = min 65535 (s.get (QUE_Q_ERR.UE q) + 1) ∧
               t.get QUE_EVENT.UE = 1 ∧ (SMap.find? t.ras.latches (unitId 5 q)).isSome = true)))) ∧
     (∀ p rest, (s.queue q).pks = p :: rest →
       (p.st ≠ .delivering ∨ (∃ c ∈ s.consumersOf s.active q, s.tookPk p c = false) → exec (.packetTaken q) s = .next s) ∧
       (p.st = .delivering → s.get (QUE_Q_CFG.UNITS q) ≤ 128 → 0 < s.qW q → (∀ c ∈ s.consumersOf s.active q, s.tookPk p c = true) →
         ∃ t more, exec (.packetTaken q) s = .next t ∧ (t.queue q).pks = rest ++ more ∧ ((s.queue q).wait = [] → more = []) ∧
           t.get (QUE_Q_PTR.RD q) = (s.get (QUE_Q_PTR.RD q) + p.room) % (2 * s.qW q) ∧
           t.get (QUE_Q_SEQ.NEXT_DELIVER q) = (s.get (QUE_Q_SEQ.NEXT_DELIVER q) + 1) % 2 ^ 32 ∧
           (∀ m, p.req.isEnd = true → s.feeding = some m → (∃ y ∈ t.fab.micros, y.run = m.run ∧ q ∈ y.ended) ∧
             ∀ c b v, c ∈ s.consumersOf m.run.drawer q → s.phys c.1 = some b → s.planeAt m.run.drawer c.1 = some v → bit v.tokenIn c.2.2 = true →
               OnWay t b (.token c.1 c.2.2)) ∧
           (p.req.isEnd = false → t.mesh = s.mesh))) ∧
     ((s.queue q).pks = [] → exec (.packetTaken q) s = .next s) ∧
     ((∀ x ∈ s.fab.prodTok, ∀ y ∈ s.producersOf x.2.drawer q, tokKey y.1 y.2 ≠ x.1) → exec (.endMarker q) s = .next s) ∧
     (∀ tile route ps x rest u, s.fab.prodTok = x :: rest → s.producersOf x.2.drawer q = (tile, route) :: ps →
       (∃ y ∈ (tile, route) :: ps, tokKey y.1 y.2 = x.1) → s.takeTokens ((tile, route) :: ps) x.2 = some u →
       (s.openAllowed q (.bench tile) = true → s.openPk q = none → bit (s.get QUE_FLUSH.REQ) q = false → (s.queue q).wait = [] →
         s.ringPks q = [] → s.qFits q 0 = true →
         ∃ t p, exec (.endMarker q) s = .next t ∧ t.fab.prodTok = u.fab.prodTok ∧ t.openPk q = some p ∧ p.req.words = 0 ∧ p.req.isEnd = true ∧
           p.req.step = x.2.step ∧ p.req.mb = x.2.mb) ∧
       (s.openAllowed q (.bench tile) = false →
         ∃ t, exec (.endMarker q) s = .next t ∧ t.fab.prodTok = u.fab.prodTok ∧ t.queues = s.queues ∧ t.get QUE_EVENT.REJECTED = 1)))

/-- ROLLBACK, SBD_REFRESH, SBD_BANK_T_WRITE and LOSS_EMA_WRITE (R266, R483): each is performed only while the Sideboard and the
fabric are idle, and otherwise sets REFUSED, raises the record of a refused write and changes nothing else; a write of the current
value never does. -/
def Obligations.SideboardGuards : Prop :=
  ∀ (s : State) (iss : Issuer), s.live →
    (s.sbdFree = true → s.get SBD_BANK.ROLLED = 0 →
      ∃ t, exec (.rollback iss) s = .next t ∧ Same [.regs] s t ∧ RegsBut (fun o => o = SBD_BANK.reg ∨ o = SBD_STATUS.reg) s t ∧
        t.get SBD_BANK.ACTIVE = 1 - s.get SBD_BANK.ACTIVE ∧ t.get SBD_BANK.ROLLED = 1 ∧ t.get SBD_STATUS.STATE = 5) ∧
    (s.sbdFree = true →
      ∃ t, exec (.sbdRefresh iss) s = .next t ∧ Same [.regs] s t ∧ RegsBut (· = SBD_STATUS.reg) s t ∧
        t.get SBD_STATUS.STATE = 5) ∧
    (∀ b v, b < 2 → v < 2 ^ 32 →
      (s.sbdFree = true →
        ∃ t, exec (.sbdBankTWrite iss b v) s = .next t ∧ Same [.regs] s t ∧ RegsBut (· = SBD_BANK_T.reg b) s t ∧
          t.get (SBD_BANK_T.T b) = v) ∧
      (v = s.get (SBD_BANK_T.T b) → exec (.sbdBankTWrite iss b v) s = .next s)) ∧
    (∀ v : Bool,
      (s.sbdFree = true →
        ∃ t, exec (.lossEmaWrite iss v) s = .next t ∧ Same [.regs] s t ∧ RegsBut (· = SBD_LOSS_EMA.reg) s t ∧
          t.get SBD_LOSS_EMA.VALID = b2n v ∧ t.get SBD_LOSS_EMA.EMA = s.get SBD_LOSS_EMA.EMA) ∧
      (s.get SBD_LOSS_EMA.VALID = b2n v → exec (.lossEmaWrite iss v) s = .next s)) ∧
    (∀ c, s.sbdFree = false ∧ (c = .sbdRefresh iss ∨ c = .rollback iss ∨
          (∃ b v, b < 2 ∧ v < 2 ^ 32 ∧ v ≠ s.get (SBD_BANK_T.T b) ∧ c = .sbdBankTWrite iss b v) ∨
          ∃ v : Bool, s.get SBD_LOSS_EMA.VALID ≠ b2n v ∧ c = .lossEmaWrite iss v) ∨
        s.get SBD_BANK.ROLLED = 1 ∧ c = .rollback iss →
      ∃ t, exec c s = .next t ∧ Same [.regs, .ras] s t ∧ RegsBut (fun o => o = SBD_EVENT.reg ∨ regsOf 13 o) s t ∧
        t.get SBD_EVENT.REFUSED = 1 ∧ Raised (unitId 8 0xFFF) s t)

/-- SBD_SCAN, NORM_PARTIAL, UPDATE_CHUNK_DONE, SBD_UPDATE_DONE and REFRESH_DONE (R255 to R267, R293): a scan counts each element of a
closed bucket once and adds its square to the norm sum; the clip factor follows from the total; an update writes nothing but the
inactive bank, and it is abandoned at an uncorrectable read; STATE goes from 3 to 4 once the shard is written, and to 0 once the
working copies are. -/
def Obligations.SideboardUpdate : Prop :=
  ∀ s : State, s.live →
    (∀ i ue xs, xs = (List.range (s.slice i s.redRank).2).map (fun k =>
        s.leA true (s.get SBD_GRAD_BASE.ADDR + 4 * ((s.slice i s.redRank).1 - s.get SBD_SHARD_FIRST.VALUE) + 4 * k) 4) →
      (s.red.tab.length ≤ i ∨ (s.bucket i).closed = false ∨ (s.bucket i).scanned = true ∨ s.scanOn = false ∨ s.red.voted = true ∨
        2 ≤ s.get SBD_STATUS.STATE → exec (.sbdScan i ue) s = .next s) ∧
      (i < s.red.tab.length → (s.bucket i).closed = true → (s.bucket i).scanned = false → s.scanOn = true → s.red.voted = false →
        s.get SBD_STATUS.STATE < 2 →
        ∃ t, exec (.sbdScan i ue) s = .next t ∧ (t.bucket i).scanned = true ∧ t.red.scanBegun = true ∧ t.get SBD_STATUS.STATE = 1 ∧
          t.get SBD_STATUS.STEP = s.get RED_STATUS.STEP ∧
          t.red.normAcc = xs.foldl (fun a x => min ns512 (a + ns512Of x)) s.red.normAcc ∧
          (∀ bin < 32, t.get (histFld bin) = min (2 ^ 32 - 1)
            ((if s.red.scanBegun then s.get (histFld bin) else 0) + xs.countP (fun x => bits x 26 5 == bin))) ∧
          (ue = true → s.replay = false → bit t.red.flags 0 = true))) ∧
    (∀ sum, (s.replay = true → ∀ c, exec (.normPartial c sum) s = .next s) ∧
      (s.replay = false →
        (∀ c, c ∉ s.children → exec (.normPartial (some c) sum) s = .next s) ∧
        (∀ c, c ∈ s.children →
          ∃ t, exec (.normPartial (some c) sum) s = .next t ∧ SMap.find? t.red.normIn c = some (min ns512 sum + 1)) ∧
        (s.parent = none ∨ s.red.normDone = true → exec (.normPartial none sum) s = .next s) ∧
        (∀ x, s.parent.isSome = true → s.red.normDone = false → x = toF32 (.fin false (min ns512 sum) (-256)) →
          ∃ t, exec (.normPartial none sum) s = .next t ∧ t.red.normDone = true ∧
            (fFinite x = true → t.get SBD_NORM.NORM = fSqrt x % 2 ^ 32 ∧
              t.get SBD_NORM.CLIP =
                (if fGt (fSqrt x) (s.get SBD_CLIP.MAX_NORM) then fDiv (s.get SBD_CLIP.MAX_NORM) (fSqrt x) else fOne) % 2 ^ 32) ∧
            (fFinite x = false → t.get SBD_EVENT.NORM_OVERFLOW = 1 ∧ bit t.red.flags 2 = true)))) ∧
    (∀ ue, s.upd = none ∨ s.get SBD_STATUS.STATE ≠ 3 ∨ (∃ u, s.upd = some u ∧ (u.bad = true ∨ u.get SBD_SHARD_COUNT.VALUE ≤ u.next)) →
      exec (.updateChunkDone ue) s = .next s) ∧
    (∀ u ue n, s.upd = some u → s.get SBD_STATUS.STATE = 3 → u.bad = false → u.next < u.get SBD_SHARD_COUNT.VALUE →
      n = min 524288 (u.get SBD_SHARD_COUNT.VALUE - u.next) →
      (ue = true ∨ s.updBad u u.next n ≠ [] →
        ∃ t, exec (.updateChunkDone ue) s = .next t ∧ t.upd = some { u with bad := true } ∧
          t.get SBD_EVENT.UPDATE_FAILED = 1 ∧ t.get SBD_STATUS.STATE = 2 ∧ t.wrd = s.wrd) ∧
      (ue = false → s.updBad u u.next n = [] →
        ∃ t nf, exec (.updateChunkDone ue) s = .next t ∧ t.upd = some { u with next := u.next + n, nonfinite := u.nonfinite + nf } ∧
          (s.redSize = 1 → t.bundles = s.bundles))) ∧
    (∀ (v : State) (u : Update) (i a : Nat), v.bad = [] → v.ckp.snap = none →
      (∀ b ∈ [u.get (SBD_WBANK.ADDR (1 - v.get SBD_BANK.ACTIVE)) + 2 * (u.get SBD_SHARD_FIRST.VALUE + i),
          u.get (SBD_MBANK.ADDR (1 - v.get SBD_BANK.ACTIVE)) + 2 * i, u.get (SBD_VBANK.ADDR (1 - v.get SBD_BANK.ACTIVE)) + 2 * i],
        b < shelfBase ∧ (a < b ∨ b + 2 ≤ a)) →
      Same [.wrd] v (v.updOne u i).1 ∧ Mem.rd (v.updOne u i).1.wrd a = Mem.rd v.wrd a) ∧
    (∀ u, s.upd = some u →
      (s.get SBD_STATUS.STATE ≠ 3 ∨ u.bad = true ∨ u.next < u.get SBD_SHARD_COUNT.VALUE → exec .sbdUpdateDone s = .next s) ∧
      (s.get SBD_STATUS.STATE = 3 → u.bad = false → u.get SBD_SHARD_COUNT.VALUE ≤ u.next →
        ∃ t, exec .sbdUpdateDone s = .next t ∧ Same [.regs, .upd, .ras] s t ∧ t.get SBD_STATUS.STATE = 4 ∧
          t.upd = some { u with own := true } ∧ t.get SBD_UPDATE_STATS.NONFINITE_LAST = min 0xFFFF u.nonfinite ∧
          (u.nonfinite = 0 → t.ras = s.ras ∧ RegsBut (fun o => o = SBD_STATUS.reg ∨ o = SBD_UPDATE_STATS.reg) s t) ∧
          (u.nonfinite ≠ 0 → t.get SBD_EVENT.NONFINITE_OUT = 1 ∧ Raised (unitId 7 0) s t))) ∧
    (s.get SBD_STATUS.STATE = 5 →
      ∃ t, exec .refreshDone s = .next t ∧ t.get SBD_STATUS.STATE = 0 ∧ t.upd = none ∧ t.ckp.due = false ∧ t.ckp.rejoin = none ∧
        (s.ckp.due = false ∨ s.get CKP_CTRL.EVERY_STEP = 0 →
          t.wrd = s.refreshAll.wrd ∧ t.sp = s.refreshAll.sp ∧ t.shelf = s.refreshAll.shelf) ∧
        (∀ c y, s.ckp.rejoin = some c → s.rec? c.1 c.2 = some y → y.st ≠ 3 → Finished c.1 c.2 0 t)) ∧
    (s.get SBD_STATUS.STATE ≠ 5 → exec .refreshDone s = .next s)

/-- RED_DATA, BUCKET_NOTICE, EXPONENT_PASS, BUCKET_DEADLINE and SEGMENT_SEND (R275, R276, R278, R281, R282, R289 to R291, R414): an arrival of
an earlier attempt counts as late, one of the next attempt is kept, and one beyond that is an error; a current partial waits until its
bucket opens and is then added and sent on; a bucket closes with its own slice and every other notice; the window follows the largest
exponent of the participants; a bucket past its deadline repeats the step. The head bucket of a channel, once its local data is complete,
takes part in the exponent pass or opens; nothing is sent while the configuration fails, after the vote, or in an attempt that repeats. A
device in replay takes nothing in. -/
def Obligations.Segments : Prop :=
  (∀ s : State, s.live →
     (∀ (h : BucketHdr) (seg : Segment) (port : Nat) (c : Instr), seg.hdr = h → h.channel < 16 →
       c = .redData seg port ∨ c = .bucketNotice h ∨ c = .exponentPass h →
       (s.replay = true → exec c s = .next s) ∧
       (s.replay = false →
         (h.step < s.get RED_STATUS.STEP ∨ h.step = s.get RED_STATUS.STEP ∧ (h.attempt < s.get RED_STATUS.ATTEMPT ∨
             h.attempt = s.get RED_STATUS.ATTEMPT ∧ s.red.voted = true) →
           ∃ t, exec c s = .next t ∧ Same [.regs] s t ∧
             RegsBut (fun o => o = RED_CH_STATS.reg h.channel ∨ o = RED_EVENT.reg) s t ∧
             t.get (RED_CH_STATS.LATE h.channel) = min 255 (s.get (RED_CH_STATS.LATE h.channel) + 1) ∧ t.get RED_EVENT.LATE = 1) ∧
         (h.step = s.get RED_STATUS.STEP ∧ h.attempt = s.get RED_STATUS.ATTEMPT + 1 ∨
             h.step = s.get RED_STATUS.STEP + 1 ∧ h.attempt = 0 →
           ∃ t, exec c s = .next t ∧ t.red.buckets = s.red.buckets ∧
             (t.red.kept = s.red.kept ++ [(port, seg)] ∧ t.red.keptN = s.red.keptN ∨
               t.red.kept = s.red.kept ∧ t.red.keptN = s.red.keptN ++ [h]) ∧
             (c ≠ .redData seg port ∨ s.bucketIdx h.channel h.bucket = none → Same [.red] s t)) ∧
         (h.step > s.get RED_STATUS.STEP + 1 ∨ h.step = s.get RED_STATUS.STEP + 1 ∧ h.attempt ≠ 0 ∨
             h.step = s.get RED_STATUS.STEP ∧ h.attempt > s.get RED_STATUS.ATTEMPT + 1 →
           ∃ t, exec c s = .next t ∧ Same [.regs, .ras] s t ∧ t.get RED_EVENT.SEQUENCE = 1 ∧ Raised (unitId 9 0xFFF) s t) ∧
         (s.red.voted = false → h.step = s.get RED_STATUS.STEP → h.attempt = s.get RED_STATUS.ATTEMPT →
           s.bucketIdx h.channel h.bucket = none → exec c s = .next s))) ∧
     (∀ (h : BucketHdr) (i : Nat), s.replay = false → s.red.voted = false → h.step = s.get RED_STATUS.STEP →
       h.attempt = s.get RED_STATUS.ATTEMPT → s.bucketIdx h.channel h.bucket = some i →
       (∀ seg port, seg.hdr = h →
         ((s.bucket i).opened = false →
           ∃ t, exec (.redData seg port) s = .next t ∧
             (t.bucket i).wait = (s.bucket i).wait ++ [(port, (s.bucket i).localAt.isSome, seg)]) ∧
         ((s.bucket i).opened = true → s.get RED_GROUP.MODE = 1 → h.owner < s.redSize →
           (h.owner ≠ s.redRank → h.owner ∉ (s.bucket i).sentTo → s.get RED_STATUS.CONFIG_OK = 1 →
             ∃ t, exec (.redData seg port) s = .next t ∧ h.owner ∈ (t.bucket i).sentTo) ∧
           (h.owner ≠ s.redRank → s.get RED_STATUS.CONFIG_OK = 0 →
             ∃ t, exec (.redData seg port) s = .next t ∧ (t.bucket i).sentTo = (s.bucket i).sentTo) ∧
           (h.owner = s.redRank → (s.bucket i).complete = false → (∀ w ∈ (s.bucket i).wait, w.2.2.hdr.owner ≠ h.owner) →
             h.contrib + 1 = s.redSize →
             ∃ t, exec (.redData seg port) s = .next t ∧ (t.bucket i).complete = true))) ∧
       (∃ t, exec (.bucketNotice h) s = .next t ∧ h.owner ∈ (t.bucket i).notices ∧
         (t.bucket i).closed = ((s.bucket i).closed || (s.bucket i).complete && !(s.bucket i).incomplete &&
           (List.range s.redSize).all (fun r => r == s.redRank || r == h.owner || (s.bucket i).notices.contains r))) ∧
       ((∀ x ∈ (s.bucket i).heads, x.1 ≠ h.sender) →
         ∃ t, exec (.exponentPass h) s = .next t ∧ (t.bucket i).heads = (s.bucket i).heads ++ [(h.sender, h.maxexp)] ∧
           ((s.bucket i).headSent = true → s.redSize ≤ (s.bucket i).heads.length + 2 → (s.ent i).wvalid = false →
             (t.ent i).wvalid = true ∧
             (t.ent i).window = windowFor (((s.bucket i).heads ++ [(h.sender, h.maxexp)]).foldl (fun a x => max a x.2) (s.localMax i))))) ∧
     (∀ i, (s.bucket i).localAt = none ∨ s.red.tab.length ≤ i ∨ (s.bucket i).closed = true ∨ (s.bucket i).incomplete = true →
       exec (.bucketDeadline i) s = .next s) ∧
     (∀ i n, (s.bucket i).localAt = some n → i < s.red.tab.length → (s.ent i).chan < 16 → (s.bucket i).closed = false →
       (s.bucket i).incomplete = false →
       (s.now < n + (s.ent i).deadline → exec (.bucketDeadline i) s = .next s) ∧
       (n + (s.ent i).deadline ≤ s.now →
         ∃ t, exec (.bucketDeadline i) s = .next t ∧ (t.bucket i).incomplete = true ∧ (∀ k ≠ i, t.bucket k = s.bucket k) ∧
           (s.replay = false → bit t.red.flags 0 = true) ∧ t.get RED_EVENT.INCOMPLETE = 1 ∧
           t.get (RED_CH_STATS.INCOMPLETE (s.ent i).chan) = min 65535 (s.get (RED_CH_STATS.INCOMPLETE (s.ent i).chan) + 1) ∧
           (s.clipOn = false → s.red.normOwn = false → Same [.regs, .ras, .red] s t ∧ Raised (unitId 9 0xFFF) s t)))) ∧
  (∀ (s : State) (c : Nat), s.live →
     (s.chanHead c = none ∨ s.red.voted = true ∨ s.replay = true ∨ s.get RED_STATUS.CONFIG_OK = 0 ∨ bit s.red.flags 0 = true →
       exec (.segmentSend c) s = .next s) ∧
     (∀ i, s.replay = false → s.chanHead c = some i →
       ((s.bucket i).localAt = none ∨ (s.bucket i).opened = true ∨
           s.get RED_GROUP.MODE = 1 ∧ (s.ent i).wvalid = false ∧ (s.bucket i).headSent = true → exec (.segmentSend c) s = .next s) ∧
       ((s.bucket i).localAt.isSome = true → (s.bucket i).opened = false → s.red.voted = false → s.get RED_STATUS.CONFIG_OK = 1 →
         bit s.red.flags 0 = false →
         (s.get RED_GROUP.MODE = 1 → (s.ent i).wvalid = false → (s.bucket i).headSent = false →
           ∃ t, exec (.segmentSend c) s = .next t ∧ (t.bucket i).headSent = true ∧ (t.bucket i).opened = false ∧
             (s.redSize = 1 → (t.ent i).wvalid = true ∧
               (t.ent i).window = windowFor ((s.bucket i).heads.foldl (fun a h => max a h.2) (s.localMax i)))) ∧
         (s.get RED_GROUP.MODE ≠ 1 ∨ (s.ent i).wvalid = true →
           ∃ t, exec (.segmentSend c) s = .next t ∧ (t.bucket i).opened = true ∧
             (1 < s.redSize → s.redRank < s.redSize → s.get RED_GROUP.MODE = 1 → (s.bucket i).wait = [] →
               (s.redRank + s.redSize - 1) % s.redSize ∈ (t.bucket i).sentTo) ∧
             (s.redSize = 1 → s.redRank = 0 → s.get RED_GROUP.MODE = 1 → (s.bucket i).complete = false → (s.bucket i).wait = [] →
               (s.bucket i).incomplete = false → (t.bucket i).complete = true ∧ (t.bucket i).closed = true)))))

/-- The exact reduction does not depend on the order of the participants, and its check holds (R280, R281, R285): for at most 128
devices whose contributions to a slice are added hop by hop, each element of the final partial is the exact sum of the integers
that the devices contribute, the 160-bit sum of the elements is the checksum, and every order gives the same. -/
def Obligations.ExactReduction : Prop :=
  ∀ (ss : List State) (i owner n : Nat) (z : Segment), ss ≠ [] → ss.length ≤ 128 →
    (∀ s ∈ ss, s.get RED_GROUP.MODE = 1 ∧ (s.slice i owner).2 = n) →
    ∀ g, g = ((ss.map (fun s => s.contribution i owner)).drop 1).foldl segAdd ((ss.map (fun s => s.contribution i owner)).headD z) →
      g.elems.length = n ∧
      (∀ k < n, signed 96 (g.elems.getD k 0) = (ss.map (fun s => (exactElem (s.ent i).window
        (SMap.get (s.bucket i).drained 0 ((s.slice i owner).1 + k - (s.ent i).first) % 2 ^ 32)).1)).sum) ∧
      wrap 160 (g.elems.foldl (fun a x => a + signed 96 x) 0) = g.hdr.checksum ∧
      g.hdr.contrib = ss.length ∧
      ∀ ts : List State, ts.Perm ss →
        ∀ g', g' = ((ts.map (fun s => s.contribution i owner)).drop 1).foldl segAdd ((ts.map (fun s => s.contribution i owner)).headD z) →
          g'.elems = g.elems ∧ g'.hdr.checksum = g.hdr.checksum ∧ g'.hdr.nonfinite = g.hdr.nonfinite ∧ g'.hdr.flags = g.hdr.flags ∧
          g'.hdr.maxexp = g.hdr.maxexp

/-- VOTE_CONTRIBUTE, VOTE_UP, CONFIRM, REVOTE and VOTE_TIMEOUT (R122, R294 to R296, R298 to R300): a device contributes once an
attempt, with REPEAT while its configuration fails and SUSPECT after a residue error or an anomaly; a subtree's flags go up once every
child's are in, and the root decides; an update that is abandoned does not confirm. -/
def Obligations.VoteRounds : Prop :=
  ∀ s : State, s.live →
    (s.voteDue = false → exec .voteContribute s = .next s) ∧
    (s.voteDue = true →
      ∃ t f, exec .voteContribute s = .next t ∧
        (s.get RED_STATUS.CONFIG_OK = 0 → bit f 0 = true) ∧ (s.get NUM_STATUS.RESIDUE = 1 ∨ s.get NUM_STATUS.ANOMALY = 1 → bit f 1 = true) ∧
        (∀ k, bit s.red.flags k = true → bit f k = true) ∧
        (s.get SBD_LOSS_WIN.EN = 1 → s.get SBD_LOSS_CTRL.SPIKE_SKIP = 1 → fFinite (s.get SBD_LOSS.SUM) = false → bit f 2 = true) ∧
        (s.parent.isSome = true ∨ (∃ c ∈ s.children, ∀ u ∈ s.red.ups, u.1 ≠ c) →
          t.red.contributed = some f ∧ t.red.voted = true ∧
          t.red.voteStep = s.get RED_STATUS.STEP ∧ t.red.voteAtt = s.get RED_STATUS.ATTEMPT ∧ t.red.round = 0 ∧ t.red.vkind = 0 ∧
          t.red.stamp = s.now ∧ t.get RED_VOTE_STATUS.STATE = 1 ∧ t.get RED_VOTE_FLAGS.LOCAL = f % 32 ∧ t.get SBD_STATUS.STATE = 2) ∧
        (s.parent = none → s.children = [] → s.jobSize = 1 → s.red.sentUp = false → decideOutcome 0 f ≠ 3 →
          t.get RED_VOTE_STATUS.OUTCOME = decideOutcome 0 f ∧ t.get RED_VOTE_FLAGS.GLOBAL = f % 32)) ∧
    (∀ c m, c ∉ s.children ∨ 2 ≤ m.kind ∨ (∃ u ∈ s.red.ups, u.1 = c ∧ u.2.step = m.step ∧ u.2.attempt = m.attempt ∧ u.2.round = m.round ∧
          u.2.kind = m.kind) → exec (.voteUp c m) s = .next s) ∧
    (∀ c m, c ∈ s.children → m.kind ≤ 1 → (∀ u ∈ s.red.ups, u.1 ≠ c) →
      (s.red.contributed = none ∨ s.red.sentUp = true ∨ (∃ k ∈ s.children, k ≠ c ∧ ∀ u ∈ s.red.ups, u.1 ≠ k) →
        ∃ t, exec (.voteUp c m) s = .next t ∧ Same [.red] s t ∧ t.red = { s.red with ups := s.red.ups ++ [(c, m)] }) ∧
      (∀ own, s.red.contributed = some own → s.children = [c] → s.voteCur m = true → m.kind = s.red.vkind → s.red.sentUp = false →
        (∀ p, s.parent = some p →
          ∃ t, exec (.voteUp c m) s = .next t ∧ t.red.sentUp = true ∧ t.red.contributed = some own ∧
            Sends s t p 0x20 [1] (s.voteBody ⟨s.red.voteStep, s.red.voteAtt, s.red.round, s.red.vkind, own ||| m.flags, 0, m.count + 1⟩)) ∧
        (s.parent = none → m.count + 1 ≠ s.jobSize → ∃ t, exec (.voteUp c m) s = .next t ∧ Same [.red] s t) ∧
        (s.parent = none → m.count + 1 = s.jobSize → decideOutcome m.kind (own ||| m.flags) ≠ 3 →
          ∃ t, exec (.voteUp c m) s = .next t ∧ t.get RED_VOTE_STATUS.OUTCOME = decideOutcome m.kind (own ||| m.flags) ∧
            t.get RED_VOTE_FLAGS.GLOBAL = (own ||| m.flags) % 32 ∧
            (s.red.kept = [] → s.red.keptN = [] → Sends s t c 0x20 [1] (s.voteBody ⟨s.red.voteStep, s.red.voteAtt, s.red.round, 2,
              own ||| m.flags, decideOutcome m.kind (own ||| m.flags), 0⟩))) ∧
        (s.parent = none → m.count + 1 = s.jobSize → decideOutcome m.kind (own ||| m.flags) = 3 →
          ∃ t, exec (.voteUp c m) s = .next t ∧ t.red.round = s.red.round + 1 ∧ t.red.buckets = s.red.buckets))) ∧
    (∀ flags, (bit flags 0 = true → decideOutcome 0 flags = 2) ∧
      (bit flags 0 = false → bit flags 1 = true → decideOutcome 0 flags = 3) ∧
      (bit flags 0 = false → bit flags 1 = false → bit flags 2 = true → decideOutcome 0 flags = 4) ∧
      (flags = 0 → decideOutcome 0 flags = 1) ∧ decideOutcome 1 flags = if bit flags 4 then 2 else 5) ∧
    (s.upd = none ∨ s.red.vkind ≠ 1 ∨ s.red.contributed.isSome = true → exec .confirm s = .next s) ∧
    (∀ u, s.red.vkind = 1 → s.red.contributed = none → s.upd = some u →
      (u.bad = false → s.red.gatherBad = false → s.get SBD_STATUS.STATE ≠ 4 ∨ s.red.gathered.length < s.chunksDue → exec .confirm s = .next s) ∧
      (∀ f, u.bad = true ∧ f = 16 ∨ s.red.gatherBad = true ∧ f = 16 ∨
          u.bad = false ∧ s.red.gatherBad = false ∧ s.get SBD_STATUS.STATE = 4 ∧ s.chunksDue ≤ s.red.gathered.length ∧ f = 0 →
        (s.parent.isSome = true ∨ (∃ c ∈ s.children, ∀ y ∈ s.red.ups, y.1 ≠ c) →
          ∃ t, exec .confirm s = .next t ∧ t.red.contributed = some f ∧ t.get RED_VOTE_FLAGS.LOCAL = f ∧ t.upd = s.upd) ∧
        (s.parent = none → s.children = [] → s.jobSize = 1 → s.red.sentUp = false →
          ∃ t, exec .confirm s = .next t ∧ t.get RED_VOTE_STATUS.OUTCOME = (if f = 16 then 2 else 5) ∧
            t.get SBD_BANK.ACTIVE = (if f = 16 then s.get SBD_BANK.ACTIVE else 1 - s.get SBD_BANK.ACTIVE)))) ∧
    (∀ iss b, s.red.waitRevote = false → exec (.revote iss b) s = .next s) ∧
    (∀ iss b, s.red.waitRevote = true → s.parent.isSome = true ∨ (∃ c ∈ s.children, ∀ u ∈ s.red.ups, u.1 ≠ c) →
      ∃ t, exec (.revote iss b) s = .next t ∧ t.red.waitRevote = false ∧ t.red.stamp = s.now ∧
        t.red.contributed = some ((s.red.flags &&& 4) ||| b2n b)) ∧
    (s.red.contributed = none ∨ s.red.timedOut = true ∨ s.now < s.red.stamp + s.get RED_VOTE_CTRL.TIMEOUT → exec .voteTimeout s = .next s) ∧
    (s.red.contributed.isSome = true → s.red.timedOut = false → s.red.stamp + s.get RED_VOTE_CTRL.TIMEOUT ≤ s.now →
      ∃ t, exec .voteTimeout s = .next t ∧ Same [.regs, .ras, .red] s t ∧ t.red = { s.red with timedOut := true } ∧
        t.get RED_EVENT.VOTE_TIMEOUT = 1 ∧ Raised (unitId 9 0xFFF) s t)

/-- VOTE_OUTCOME and GATHER_CHUNK (R282, R297 to R299, R301, R409, R414): COMMIT begins the update and the next step; REPEAT repeats the
step; SKIP goes to the next step without an update; HELD begins another round, for which a device that was suspect waits for REVOTE;
CONFIRMED flips the banks; a gathered chunk is written and goes on to the next rank, and one that fails its check abandons the update. -/
def Obligations.VoteOutcomes : Prop :=
  ∀ s : State, s.live →
    (∀ m, s.voteCur m = false ∨ m.kind ≠ 2 ∨ s.red.sentUp = false ∨ s.parent = none → exec (.voteOutcome m) s = .next s) ∧
    (∀ m, s.voteCur m = true → m.kind = 2 → s.red.sentUp = true → s.parent.isSome = true →
      (s.red.vkind ≠ 1 →
        (m.outcome = 2 →
          ∃ t, exec (.voteOutcome m) s = .next t ∧ t.get RED_STATUS.STEP = s.red.voteStep % 2 ^ 32 ∧
            t.get RED_STATUS.ATTEMPT = (s.red.voteAtt + 1) % 65536 ∧ t.red.voted = false ∧ t.upd = none ∧
            t.get SBD_STATUS.STATE = 0 ∧ t.get SBD_LOSS.SUM = 0 ∧ t.get RED_VOTE_STATUS.OUTCOME = 2 ∧
            (s.red.kept = [] → s.red.keptN = [] → t.red.buckets = [] ∧ t.red.flags = 0 ∧
              (bit m.flags 3 = false → t.red.tab = s.red.tab) ∧ (bit m.flags 3 = true → ∀ e ∈ t.red.tab, e.wvalid = false))) ∧
        (m.outcome = 4 →
          ∃ t, exec (.voteOutcome m) s = .next t ∧ t.get RED_STATUS.STEP = (s.red.voteStep + 1) % 2 ^ 32 ∧ t.get RED_STATUS.ATTEMPT = 0 ∧
            t.red.voted = false ∧ t.upd = s.upd ∧ t.get SBD_EVENT.SKIPPED = 1 ∧
            t.get SBD_UPDATE_STATS.SKIPS = min 65535 (s.get SBD_UPDATE_STATS.SKIPS + 1) ∧
            t.get SBD_BANK.ACTIVE = s.get SBD_BANK.ACTIVE ∧ t.get RED_VOTE_STATUS.OUTCOME = 4 ∧
            (s.red.kept = [] → s.red.keptN = [] → t.red.buckets = [] ∧ t.red.flags = 0)) ∧
        (m.outcome = 1 →
          ∃ t u, exec (.voteOutcome m) s = .next t ∧ t.get RED_STATUS.STEP = (s.red.voteStep + 1) % 2 ^ 32 ∧ t.get RED_STATUS.ATTEMPT = 0 ∧
            t.red.vkind = 1 ∧ t.red.contributed = none ∧ t.upd = some u ∧ u.step = s.red.voteStep ∧
            u.t = (s.get (SBD_BANK_T.T (s.get SBD_BANK.ACTIVE)) + 1) % 2 ^ 32 ∧ t.get SBD_BANK.ACTIVE = s.get SBD_BANK.ACTIVE ∧
            (u.bad = false → t.get SBD_STATUS.STATE = 3) ∧ (u.bad = true → t.get SBD_EVENT.CONFIG_ERR = 1) ∧
            t.get RED_VOTE_STATUS.OUTCOME = 1 ∧ (s.red.kept = [] → s.red.keptN = [] → t.red.buckets = [])) ∧
        (m.outcome = 3 → ∀ own, s.red.contributed = some own →
          ∃ t, exec (.voteOutcome m) s = .next t ∧ t.red.round = s.red.round + 1 ∧
            t.red.voteStep = s.red.voteStep ∧ t.red.voteAtt = s.red.voteAtt ∧ t.red.buckets = s.red.buckets ∧
            (bit own 1 = false → t.red.waitRevote = false ∧ t.red.contributed = some (s.red.flags &&& 4)) ∧
            (bit own 1 = true → s.ras.overflow = false → t.red.waitRevote = true ∧ t.red.contributed = none) ∧
            (bit own 1 = true → s.ras.overflow = true → t.red.waitRevote = false ∧ t.red.contributed = some ((s.red.flags &&& 4) ||| 1)))) ∧
      (s.red.vkind = 1 → ∀ u, s.upd = some u →
        (m.outcome = 5 →
          ∃ t, exec (.voteOutcome m) s = .next t ∧ t.get SBD_BANK.ACTIVE = 1 - s.get SBD_BANK.ACTIVE ∧
            t.get (SBD_BANK_T.T (1 - s.get SBD_BANK.ACTIVE)) = u.t % 2 ^ 32 ∧ t.get SBD_BANK.ROLLED = 0 ∧
            t.get SBD_STATUS.STATE = 5 ∧ t.red.vkind = 0 ∧ t.get RED_STATUS.STEP = s.get RED_STATUS.STEP ∧
            (fFinite (s.get SBD_LOSS.SUM) = true → s.get SBD_LOSS_EMA.VALID = 0 →
              t.get SBD_LOSS_EMA.EMA = s.get SBD_LOSS.SUM ∧ t.get SBD_LOSS_EMA.VALID = 1)) ∧
        (m.outcome = 2 →
          ∃ t, exec (.voteOutcome m) s = .next t ∧ t.get SBD_BANK.ACTIVE = s.get SBD_BANK.ACTIVE ∧ t.upd = none ∧
            t.get RED_STATUS.STEP = s.red.voteStep % 2 ^ 32 ∧ t.get RED_STATUS.ATTEMPT = (s.red.voteAtt + 1) % 65536))) ∧
    (∀ h data ue, s.replay = true ∨ h.owner = s.redRank → exec (.gatherChunk h data ue) s = .next s) ∧
    (∀ h data ue, s.replay = false → h.owner ≠ s.redRank →
      (s.chunkCur h = false ∨ h.first ∈ s.red.gathered →
        ∃ t, exec (.gatherChunk h data ue) s = .next t ∧ t.red = s.red ∧ t.wrd = s.wrd) ∧
      (s.chunkCur h = true → h.first ∉ s.red.gathered →
        (chunkSum data ≠ h.checksum % 2 ^ 64 ∨ ue = true →
          ∃ t, exec (.gatherChunk h data ue) s = .next t ∧ t.red = { s.red with gatherBad := true } ∧ t.wrd = s.wrd ∧
            t.get RED_EVENT.GATHER_BAD = 1 ∧ (SMap.find? t.ras.latches (unitId 9 0xFFF)).isSome = true) ∧
        (∀ a, a = s.sbd (SBD_WBANK.ADDR (1 - s.get SBD_BANK.ACTIVE)) + 2 * h.first → chunkSum data = h.checksum % 2 ^ 64 → ue = false →
          ∃ t, exec (.gatherChunk h data ue) s = .next t ∧ t.red = { s.red with gathered := s.red.gathered ++ [h.first] } ∧
            (s.bad = [] → s.ckp.snap = none → s.on WRD_STATUS.IN_SERVICE = true → a + data.length ≤ s.wrdEnd →
              Mem.rdN t.wrd a data.length = data ∧ ∀ x, x < a ∨ a + data.length ≤ x → Mem.rd t.wrd x = Mem.rd s.wrd x))) ∧
      (∃ t, exec (.gatherChunk h data ue) s = .next t ∧
        ((s.redRank + 1) % s.redSize = h.owner → t.bundles = s.bundles) ∧
        ((s.redRank + 1) % s.redSize ≠ h.owner → ∀ a dir d, s.routeOf (s.get RED_RING.NEXT) = some (a, dir) → dir = 1 ∨ dir = 2 →
          d = 2 * a + (dir - 1) → s.get (LNK_BUNDLE_STATUS.TUNNEL d) ≠ 1 →
          (t.bundle d).queue.length = (s.bundle d).queue.length + 1 + (data.length + 4079) / 4080)))

/-- The link training rows, IDENT_FLIT, LINK_TRAIN_TIMEOUT, RETRAIN_GAP_EXPIRE, PORT_RETRAIN, PORT_FENCE, PORT_LOGIC_ERROR,
LANE_LOCK_LOST and PARTNER_SILENT (R292, R303, R305 to R309, R311, R334, R335): a link that passes every step of Table 11.2 is UP with
LSEQ and ACK zero; one whose partner check fails is in MISMATCH; the third failed attempt leaves it FAILED; a link that goes DOWN gives
its unacknowledged flits back to the bundle; a new partner gets nothing meant for the old one; a fenced port stays out. -/
def Obligations.LinkTraining : Prop :=
  ∀ (s : State) (l d : Nat), s.live → l < 48 → d = l / 8 →
    ((s.link l).train = .pattern →
      ∃ t, exec (.linkLanesLocked l) s = .next t ∧ Same [.links] s t ∧ t.link l = { s.link l with train := .locked } ∧
        ∀ k ≠ l, t.link k = s.link k) ∧
    ((s.link l).train = .locked → (s.link l).cls ≠ 0 →
      ∃ t, exec (.linkEqAdapted l) s = .next t ∧ Same [.links] s t ∧ t.link l = { s.link l with train := .adapted } ∧
        ∀ k ≠ l, t.link k = s.link k) ∧
    ((s.link l).train = (if (s.link l).cls = 0 then Train.locked else Train.adapted) →
      ∃ t, exec (.linkFrameLocked l) s = .next t ∧ Same [.links] s t ∧ (t.link l).train = .framed ∧
        (s.on LNK_COORD.VALID = true → (t.link l).wire = mkFlit 4 (leBytes 2 s.coord ++ leBytes 1 d ++ leBytes 1 (l % 8) ++
          leBytes 1 (s.link l).cls ++ leBytes 8 (s.get GLB_SERIAL.SERIAL))) ∧
        (s.on LNK_COORD.VALID = false → (t.link l).wire = (s.link l).wire) ∧ ∀ k ≠ l, t.link k = s.link k) ∧
    ((s.link l).train ≠ .pattern → exec (.linkLanesLocked l) s = .next s) ∧
    ((s.link l).train ≠ .locked ∨ (s.link l).cls = 0 → exec (.linkEqAdapted l) s = .next s) ∧
    (∀ id : Ident, (s.link l).train ≠ .framed → exec (.identFlit l id) s = .next s) ∧
    (∀ id : Ident, (s.link l).train = .framed →
      (id.fec = none ∨ id.crc = false →
        ∃ t, exec (.identFlit l id) s = .next t ∧ Same [.regs] s t ∧ RegsBut (fun o => o = LNK_PORT_ERR.reg l ∨ o = LNK_PORT_FEC.reg l) s t ∧
          t.get (LNK_PORT_ERR.CRC l) = min 65535 (s.get (LNK_PORT_ERR.CRC l) + 1) ∧
          (id.fec = none → t.get (LNK_PORT_FEC.UNCORRECTABLE l) = min 65535 (s.get (LNK_PORT_FEC.UNCORRECTABLE l) + 1))) ∧
      (∀ n, id.fec = some n → id.crc = true →
        (s.on LNK_COORD.VALID = false →
          ∃ t, exec (.identFlit l id) s = .next t ∧ Same [.regs] s t ∧ RegsBut (· = LNK_PORT_FEC.reg l) s t ∧
            ((s.link l).cls ≠ 0 → t.get (LNK_PORT_FEC.CORRECTED l) = min (2 ^ 48 - 1) (s.get (LNK_PORT_FEC.CORRECTED l) + n))) ∧
        (s.on LNK_COORD.VALID = true → id.coord ≠ s.partner d ∨ id.dir ≠ opposite d ∨ id.pos ≠ l % 8 ∨ id.cls ≠ (s.link l).cls →
          ∃ t, exec (.identFlit l id) s = .next t ∧ Same [.regs, .links, .ras] s t ∧ t.get (LNK_PORT_STATUS.STATE l) = 5 ∧
            (t.link l).train = .none ∧ t.get LNK_EVENT.MISMATCH = 1 ∧ t.get (LNK_BUNDLE_STATUS.PARTNER d) = id.coord % 2 ^ 15 ∧
            Raised (unitId 3 l) s t) ∧
        (s.on LNK_COORD.VALID = true → id.coord = s.partner d → id.dir = opposite d → id.pos = l % 8 → id.cls = (s.link l).cls →
          (s.link l).out = false →
          ∃ t, exec (.identFlit l id) s = .next t ∧ t.get (LNK_PORT_STATUS.STATE l) = 2 ∧ t.get (LNK_PORT_STATUS.TRIES l) = 0 ∧
            bit (t.get (LNK_BUNDLE_STATUS.UP d)) (l % 8) = true ∧ bit (t.get FAB_AVAIL_LINKS.IN_SERVICE) l = true ∧
            (t.link l).lseq = 0 ∧ (t.link l).ackd = 0 ∧ (t.link l).retry = [] ∧
            t.get (LNK_PARTNER_SERIAL.SERIAL d) = id.serial % 2 ^ 64 ∧
            (s.get (LNK_PARTNER_SERIAL.SERIAL d) ≠ 0 → s.get (LNK_PARTNER_SERIAL.SERIAL d) ≠ id.serial →
              t.get LNK_EVENT.PARTNER_CHANGED = 1 ∧ (t.bundle d).held = [] ∧ (t.bundle d).resend = [] ∧ (t.bundle d).sendSeq = [] ∧
              (t.bundle d).relSeq = [] ∧ (t.bundle d).spent = [] ∧ (t.bundle d).part = [] ∧ ∀ k < 48, k / 8 = d → (t.link k).retry = [])))) ∧
    ((s.link l).train = .none ∨ s.now < (s.link l).began + 2 * retrainTicks (s.link l).cls → exec (.linkTrainTimeout l) s = .next s) ∧
    ((s.link l).train ≠ .none →
      (∀ c, (c = .linkTrainTimeout l ∧ (s.link l).began + 2 * retrainTicks (s.link l).cls ≤ s.now ∨
            (∃ ticks, c = .laneLockLost l ticks) ∧ s.get (LNK_PORT_STATUS.STATE l) ≠ 2) →
        ∃ t, exec c s = .next t ∧ Same [.regs, .links, .ras] s t ∧
          t.get (LNK_PORT_STATUS.TRIES l) = min 15 (s.get (LNK_PORT_STATUS.TRIES l) + 1) ∧
          t.link l = { s.link l with train := .none, gapFrom := some s.now } ∧
          (s.get (LNK_PORT_STATUS.TRIES l) < 2 → t.get (LNK_PORT_STATUS.STATE l) = 3 ∧ t.ras = s.ras) ∧
          (2 ≤ s.get (LNK_PORT_STATUS.TRIES l) → t.get (LNK_PORT_STATUS.STATE l) = 4 ∧ t.get LNK_EVENT.TRAIN_FAIL = 1 ∧
            Raised (unitId 3 l) s t))) ∧
    (s.get (PWR_FN_CTRL.STATUS (96 + l)) ≠ 2 ∨ (s.link l).out = true → ∀ iss c, c = .retrainGapExpire l ∨ c = .portRetrain iss l →
      exec c s = .next s) ∧
    (s.get (LNK_PORT_STATUS.STATE l) ≠ 3 → exec (.retrainGapExpire l) s = .next s) ∧
    (∀ g, (s.link l).gapFrom = some g → s.now < g + s.get LNK_RETRY_CTRL.RETRAIN_GAP → exec (.retrainGapExpire l) s = .next s) ∧
    (s.get (PWR_FN_CTRL.STATUS (96 + l)) = 2 → (s.link l).out = false → ∀ iss,
      (∀ c, (c = .retrainGapExpire l ∧ s.get (LNK_PORT_STATUS.STATE l) = 3 ∧
            (∀ g, (s.link l).gapFrom = some g → g + s.get LNK_RETRY_CTRL.RETRAIN_GAP ≤ s.now) ∨
            c = .portRetrain iss l ∧ s.get (LNK_PORT_STATUS.STATE l) ≠ 2) →
        ∃ t, exec c s = .next t ∧ Same [.regs, .links] s t ∧ t.get (LNK_PORT_STATUS.STATE l) = 1 ∧
          t.link l = { s.link l with
            train := .pattern, began := s.now, gapFrom := none, cls := s.get (LNK_BUNDLE_CFG.CLASS d) } ∧
          (c = .portRetrain iss l → t.get (LNK_PORT_STATUS.TRIES l) = 0)) ∧
      (s.get (LNK_PORT_STATUS.STATE l) = 2 →
        ∃ t, exec (.portRetrain iss l) s = .next t ∧ t.get (LNK_PORT_STATUS.STATE l) = 1 ∧ t.get (LNK_PORT_STATUS.TRIES l) = 0 ∧
          t.get LNK_EVENT.LINK_DOWN = 1 ∧ (t.link l).train = .pattern ∧ (t.link l).retry = [] ∧
          bit (t.get (LNK_BUNDLE_STATUS.UP d)) (l % 8) = false)) ∧
    (∀ c iss, c = .portFence iss l ∨ c = .portLogicError l →
      ((s.link l).out = true → exec c s = .next s) ∧
      ((s.link l).out = false →
        ∃ t, exec c s = .next t ∧ t.get (LNK_PORT_STATUS.STATE l) = 6 ∧ (t.link l).out = true ∧ (t.link l).train = .none ∧
          (SMap.find? t.ras.latches (unitId 3 l)).isSome = true ∧ (c = .portFence iss l → t.get (LNK_PORT_CTRL.FENCE l) = 1) ∧
          (s.get (LNK_PORT_STATUS.STATE l) = 2 → t.get LNK_EVENT.LINK_DOWN = 1 ∧ bit (t.get FAB_AVAIL_LINKS.IN_SERVICE) l = false ∧
            (t.link l).retry = []) ∧
          (s.get (LNK_PORT_STATUS.STATE l) ≠ 2 → (∀ x ∈ s.red.buckets, ∀ w ∈ x.2.wait, w.1 ≠ l ∨ w.2.1 = false) →
            Same [.regs, .links, .ras] s t ∧ Raised (unitId 3 l) s t) ∧
          (∀ i b w, (i, b) ∈ s.red.buckets → w ∈ b.wait → w.1 = l → w.2.1 = true →
            (t.bucket i).incomplete = true ∧ (s.replay = false → bit t.red.flags 0 = true) ∧ t.get RED_EVENT.ADDER_LOST = 1))) ∧
    (s.get (LNK_PORT_STATUS.STATE l) = 2 → ∀ c ticks, c = .laneLockLost l ticks ∧ 40 < ticks ∨ c = .partnerSilent l ticks ∧ 4000 ≤ ticks ∨
        c = .ackTimeout l ∧ (∃ f rest, (s.link l).retry = f :: rest ∧ f.sent + s.get LNK_RETRY_CTRL.ACK_TIMEOUT ≤ s.now) ∧
          max 1 (s.get LNK_RETRY_CTRL.LIMIT) ≤ (s.link l).replays →
      ∃ t, exec c s = .next t ∧ t.get (LNK_PORT_STATUS.STATE l) = 3 ∧
        t.get (LNK_PORT_ERR.DOWNS l) = min 65535 (s.get (LNK_PORT_ERR.DOWNS l) + 1) ∧ t.get LNK_EVENT.LINK_DOWN = 1 ∧
        bit (t.get (LNK_BUNDLE_STATUS.UP d)) (l % 8) = false ∧ bit (t.get FAB_AVAIL_LINKS.IN_SERVICE) l = false ∧
        (t.link l).retry = [] ∧ (t.link l).gapFrom = none ∧ (∀ k ≠ l, t.link k = s.link k) ∧
        (SMap.find? t.ras.latches (unitId 3 l)).isSome = true ∧
        ∀ p, p < 8 → p ≠ l % 8 → bit (s.get (LNK_BUNDLE_STATUS.UP d)) p = true →
          Same [.regs, .links, .bundles, .ras] s t ∧ bit (t.get (LNK_BUNDLE_STATUS.UP d)) p = true ∧
          t.bundle d = { s.bundle d with resend := (s.bundle d).resend ++ (s.link l).retry } ∧ (∀ e ≠ d, t.bundle e = s.bundle e) ∧
          Raised (unitId 3 l) s t) ∧
    (∀ ticks, (s.link l).train = .none → s.get (LNK_PORT_STATUS.STATE l) ≠ 2 ∨ ticks ≤ 40 → exec (.laneLockLost l ticks) s = .next s) ∧
    (∀ ticks, s.get (LNK_PORT_STATUS.STATE l) ≠ 2 ∨ ticks < 4000 → exec (.partnerSilent l ticks) s = .next s)

/-- DATA_FLIT, TUNNEL_FLIT, NULL_FLIT, NAK_FLIT, FLIT_SEND and ACK_TIMEOUT (R224, R309 to R316, R318, R320 to R322): a flit whose CRC
fails is discarded and counted, with one NAK; a flit in LSEQ order is accepted and enters reassembly, which releases it once and in BSEQ
order; one of a packet in transit goes on at once; no flit is sent without a credit and without room in the retry buffer; a replay repeats
the flits that no ACK covers, as they were sent; a link with nothing to send sends NULL flits. -/
def Obligations.LinkFlits : Prop :=
  (∀ h p, h < 2 ^ 64 → (mkFlit h p).length = 256 ∧ leAt (mkFlit h p) 0 8 = h ∧ ((mkFlit h p).drop 8).take 244 = padTo 244 p ∧
    leAt (mkFlit h p) 252 4 = crc32c ((mkFlit h p).take 252)) ∧
  (∀ (b b1 : Bundle) (ch : Nat) (f : TxFlit), b.next ch = some (f, b1) →
    (f ∈ b.resend ∧ b1.resend = b.resend.erase f ∧ b1.spent = b.spent ∧ b1.sendSeq = b.sendSeq) ∨
    (f.ch = ch ∧ f.bseq = SMap.get b.sendSeq 0 ch ∧ SMap.get b1.sendSeq 0 ch = (SMap.get b.sendSeq 0 ch + 1) % 65536 ∧
      SMap.get b1.spent 0 ch = SMap.get b.spent 0 ch + 1 ∧ b1.resend = b.resend ∧
      ∃ p rest, b.pick ch = some p ∧ p.ch = ch ∧ p.flits = f.pay :: rest ∧
        ∀ x ∈ b.queue, x.ch = ch → x.started = true → p.started = true)) ∧
  (∀ (b : Bundle) (ch : Nat), (b.canSend ch = true → (∀ r ∈ b.resend, r.ch ≠ ch) → SMap.get b.spent 0 ch < partition ch) ∧
    (b.canSend 8 = true → ch < 8 → b.turn ch = false) ∧
    (b.canSend 8 = false → b.canSend 6 = true ∨ b.canSend 7 = true → ch < 6 → b.turn ch = false)) ∧
  ∀ (s : State) (l d : Nat), s.live → l < 48 → d = l / 8 →
    (s.get (LNK_PORT_STATUS.STATE l) ≠ 2 → ∀ raw fec ch lost, ∀ c ∈ [Instr.dataFlit l raw ⟨fec, lost⟩, .tunnelFlit l raw fec, .nullFlit l raw fec,
      .nakFlit l raw fec, .flitSend l ch, .ackTimeout l], exec c s = .next s) ∧
    (s.get (LNK_PORT_STATUS.STATE l) = 2 →
      (∀ raw fec lost, fec = none ∨ raw.length ≠ 256 ∨ leAt raw 252 4 ≠ crc32c (raw.take 252) ∨ 5 ≤ leAt raw 0 8 % 16 →
        (∀ c ∈ [Instr.dataFlit l raw ⟨fec, lost⟩, .tunnelFlit l raw fec, .nullFlit l raw fec, .nakFlit l raw fec],
          ∃ t, exec c s = .next t ∧ (lost = false ∨ c ≠ .dataFlit l raw ⟨fec, lost⟩ → Same [.regs, .links, .bundles] s t) ∧
            t.get (LNK_PORT_ERR.CRC l) = min 65535 (s.get (LNK_PORT_ERR.CRC l) + 1) ∧ (t.bundle d).held = (s.bundle d).held ∧
            (t.bundle d).relSeq = (s.bundle d).relSeq ∧ t.lnkIn = s.lnkIn ∧ (t.link l).nakked = true ∧ (t.link l).ackd = (s.link l).ackd ∧
            (t.link l).retry = (s.link l).retry ∧ ((s.link l).nakked = true → t.link l = s.link l) ∧
            (fec = none → t.get (LNK_PORT_FEC.UNCORRECTABLE l) = min 65535 (s.get (LNK_PORT_FEC.UNCORRECTABLE l) + 1))) ∧
        (∀ q p dev, q < 64 → s.openPk q = some p → p.prod = .link l dev →
          ∃ t, exec (.dataFlit l raw ⟨fec, true⟩) s = .next t ∧ t.get (QUE_Q_ERR.REWOUND q) = min 65535 (s.get (QUE_Q_ERR.REWOUND q) + 1) ∧
            ((s.queue q).wait = [] → t.openPk q = none))) ∧
      (∀ h p n ty, h < 2 ^ 64 → h % 16 < 5 → h % 16 ≠ ty → ∀ lost c, (c, ty) ∈ [(Instr.dataFlit l (mkFlit h p) ⟨some n, lost⟩, 1),
          (.tunnelFlit l (mkFlit h p) (some n), 3), (.nullFlit l (mkFlit h p) (some n), 0), (.nakFlit l (mkFlit h p) (some n), 2)] →
        ∃ t, exec c s = .next t ∧ Same [.regs] s t ∧ RegsBut (· = LNK_PORT_FEC.reg l) s t) ∧
      (∀ h p n lost, h < 2 ^ 64 → ∀ c, (h % 16 = 1 ∧ c = .dataFlit l (mkFlit h p) ⟨some n, lost⟩ ∨
          h % 16 = 3 ∧ c = .tunnelFlit l (mkFlit h p) (some n)) →
        (bits h 40 12 ≠ ((s.link l).ackd + 1) % 4096 →
          ∃ t, exec c s = .next t ∧ t.lnkIn = s.lnkIn ∧ (t.bundle d).held = (s.bundle d).held ∧
            (t.bundle d).relSeq = (s.bundle d).relSeq ∧ (t.link l).ackd = (s.link l).ackd ∧ (t.link l).nakked = true) ∧
        (bits h 40 12 = ((s.link l).ackd + 1) % 4096 →
          ∀ ch rel q full, ch = flitChannel h → rel = SMap.get (s.bundle d).relSeq 0 ch → q = (padTo 244 p).take (bits h 4 8) →
            full = decide (32 + leAt q 6 2 ≤ q.length) →
          ∃ t, exec c s = .next t ∧ (t.link l).ackd = bits h 40 12 ∧ (t.link l).nakked = false ∧
            ((s.link l).cls ≠ 0 → t.get (LNK_PORT_FEC.CORRECTED l) = min (2 ^ 48 - 1) (s.get (LNK_PORT_FEC.CORRECTED l) + n)) ∧
            ((s.bundle d).known ch (bits h 24 16) = true →
              t.lnkIn = s.lnkIn ∧ (t.bundle d).held = (s.bundle d).held ∧ (t.bundle d).relSeq = (s.bundle d).relSeq ∧
              (t.bundle d).spent = (s.bundle d).spent ∧
              t.get (LNK_PORT_ERR.DUPLICATES l) = min 65535 (s.get (LNK_PORT_ERR.DUPLICATES l) + 1)) ∧
            ((s.bundle d).known ch (bits h 24 16) = false →
              (bits h 24 16 ≠ rel → SMap.find? (s.bundle d).held (ch * 65536 + rel) = none →
                t.lnkIn = s.lnkIn ∧ SMap.find? (t.bundle d).held (ch * 65536 + bits h 24 16) = some q ∧
                SMap.get (t.bundle d).relSeq 0 ch = rel) ∧
              (bits h 24 16 = rel → SMap.find? (s.bundle d).held (ch * 65536 + (rel + 1) % 65536) = none →
                SMap.get (s.bundle d).part [] ch = [] → 32 ≤ q.length →
                (∀ o < 6, ∀ x ∈ (s.bundle o).queue, x.src ≠ some (16 * d + ch)) →
                SMap.get (t.bundle d).relSeq 0 ch = (rel + 1) % 65536 ∧
                SMap.find? (t.bundle d).held (ch * 65536 + rel) = none ∧
                (full = true → ch = 8 ∨ s.routeOf (leAt q 0 2) = none ∨ (∃ a, s.routeOf (leAt q 0 2) = some (a, 0)) →
                  SMap.get (t.bundle d).owed 0 ch = SMap.get (s.bundle d).owed 0 ch + 1 ∧
                  (packetOk q = true → t.lnkIn = s.lnkIn ++ [(d, q)]) ∧
                  (packetOk q = false → t.lnkIn = s.lnkIn ∧ (SMap.find? t.ras.latches (unitId 3 (8 * d))).isSome = true)) ∧
                (∀ a, full = true → ch ≠ 8 → s.routeOf (leAt q 0 2) = some (a, 3) → t.lnkIn = s.lnkIn ∧ t.get LNK_EVENT.UNROUTABLE = 1) ∧
                (∀ o ch', s.transit d ch q = some (o, ch') → s.get (LNK_BUNDLE_STATUS.TUNNEL o) ≠ 1 →
                  t.lnkIn = s.lnkIn ∧ (t.bundle o).queue = (s.bundle o).queue ++
                    [⟨d, ch', chunk244 (q.length + 1) q, false, if full then none else some (16 * d + ch)⟩]))))) ∧
      (∀ h p n, h < 2 ^ 64 → h % 16 = 0 →
        ∃ t, exec (.nullFlit l (mkFlit h p) (some n)) s = .next t ∧ Same [.regs, .links, .bundles] s t ∧
          SMap.get (t.bundle d).spent 0 (bits h 18 3) = SMap.get (s.bundle d).spent 0 (bits h 18 3) - bits h 12 6 ∧
          SMap.get (t.bundle d).spent 0 8 = SMap.get (s.bundle d).spent 0 8 - bits h 4 8 ∧
          (t.link l).retry = (s.link l).retry.filter (fun f => !(decide ((bits h 52 12 + 4096 - f.lseq) % 4096 < 2048)))) ∧
      (∀ h p n r, h < 2 ^ 64 → h % 16 = 2 →
        r = (s.link l).retry.filter (fun f => !(decide ((bits h 52 12 + 4096 - f.lseq) % 4096 < 2048))) →
        ∃ t, exec (.nakFlit l (mkFlit h p) (some n)) s = .next t ∧ (t.link l).retry.map TxFlit.raw = r.map TxFlit.raw ∧
          (r = [] → (t.link l).retry = [] ∧ t.get (LNK_PORT_ERR.REPLAYS l) = s.get (LNK_PORT_ERR.REPLAYS l)) ∧
          (r ≠ [] → (t.link l).retry = r.map (fun f => { f with sent := s.now }) ∧ (t.link l).replay = r ∧
            t.get (LNK_PORT_ERR.REPLAYS l) = min 65535 (s.get (LNK_PORT_ERR.REPLAYS l) + 1))) ∧
      (∀ ch, (s.link l).out = true → exec (.flitSend l ch) s = .next s) ∧
      (∀ ch b, (s.link l).out = false → b = s.bundle d →
        (∀ n8, n8 = min 244 (SMap.get b.owed 0 8) → (0 < SMap.get b.owed 0 8 ∧ 63 ≤ (s.link l).since ∨ (s.link l).replay = [] ∧ s.linkIdle l = true) →
          ∃ t, exec (.flitSend l ch) s = .next t ∧ Same [.links, .bundles] s t ∧
            (t.link l).wire = mkFlit (flitHdr (s.link l).ackd 0 0 0 b.creditOut.1 b.creditOut.2 n8 0) [] ∧ (t.link l).since = 0 ∧
            (t.link l).retry = (s.link l).retry ∧ t.bundle d = (b.paid b.creditOut.1 b.creditOut.2).paid 8 n8) ∧
        (SMap.get b.owed 0 8 = 0 ∨ (s.link l).since < 63 →
          (∀ f fs, (s.link l).replay = f :: fs →
            ∃ t, exec (.flitSend l ch) s = .next t ∧ Same [.links] s t ∧ (∀ k ≠ l, t.link k = s.link k) ∧
              (t.link l).replay = fs ∧ (t.link l).wire = f.raw ∧ (t.link l).lseq = (s.link l).lseq ∧
              (t.link l).retry = (s.link l).retry.map (fun g => if g.lseq = f.lseq then { g with sent := s.now } else g)) ∧
          ((s.link l).replay = [] → s.linkIdle l = false →
            (b.canSend ch = false ∨ b.turn ch = false → exec (.flitSend l ch) s = .next s) ∧
            (∀ f b1 cr, b.canSend ch = true → b.turn ch = true → b.next ch = some (f, b1) → cr = (if f.cr.2 = 0 then b1.creditOut else f.cr) →
              ∃ t g, exec (.flitSend l ch) s = .next t ∧ Same [.links, .bundles] s t ∧ (∀ k ≠ l, t.link k = s.link k) ∧
                (t.link l).retry = (s.link l).retry ++ [g] ∧ (t.link l).lseq = ((s.link l).lseq + 1) % 4096 ∧ (t.link l).wire = g.raw ∧
                g.raw = txImage (s.link l) { f with lseq := ((s.link l).lseq + 1) % 4096 } cr.1 cr.2 ∧ g.pay = f.pay ∧ g.ch = f.ch ∧
                g.bseq = f.bseq ∧ g.lseq = ((s.link l).lseq + 1) % 4096 ∧ g.sent = s.now ∧ g.cr = cr ∧
                t.bundle d = (if f.cr.2 = 0 then b1.paid cr.1 cr.2 else b1) ∧ ∀ e ≠ d, t.bundle e = s.bundle e)))) ∧
      (512 ≤ (s.link l).retry.length → s.linkIdle l = true) ∧
      ((s.link l).retry = [] → exec (.ackTimeout l) s = .next s) ∧
      (∀ f rest, (s.link l).retry = f :: rest →
        (s.now < f.sent + s.get LNK_RETRY_CTRL.ACK_TIMEOUT → exec (.ackTimeout l) s = .next s) ∧
        (f.sent + s.get LNK_RETRY_CTRL.ACK_TIMEOUT ≤ s.now → (s.link l).replays < max 1 (s.get LNK_RETRY_CTRL.LIMIT) →
          ∃ t, exec (.ackTimeout l) s = .next t ∧ Same [.regs, .links] s t ∧ RegsBut (· = LNK_PORT_ERR.reg l) s t ∧
            (t.link l).replay = (s.link l).retry ∧ (t.link l).replays = (s.link l).replays + 1 ∧
            (t.link l).retry = (s.link l).retry.map (fun g => { g with sent := s.now }) ∧
            t.get (LNK_PORT_ERR.REPLAYS l) = min 65535 (s.get (LNK_PORT_ERR.REPLAYS l) + 1))))

/-- LNK_COORD_WRITE, LNK_ROUTE_WRITE, LINK_STATUS and TUNNEL (R317, R318, R320, R333, R336, R337): coordinates and routes change only
while the fabric is idle; a change fills the route tables and retrains every link; a direction without a link is tunnelled over the
side that the neighbours' reports allow; a TUNNEL packet goes on by its HOP, and its records are released at the partner. -/
def Obligations.CoordinatesAndTunnels : Prop :=
  (∀ (s : State) (d ch bseq n : Nat) (pay rest : List Byte), ch < 8 → bseq < 65536 → pay.length ≤ 244 → n < 64 →
    State.unwrap 1 s d (flitRecord ch bseq pay ++ rest) = s.reassemble d ch bseq pay none ∧
    State.unwrap 1 s d (creditRecord ch n ++ rest) = s.modBundle d (fun b => b.refund ch n)) ∧
  ∀ (s : State) (iss : Issuer) (v : Word), s.live →
    (∀ torus : Bool, ∀ dims c, dims = (if torus then v.toNat % 2 ^ 18 else (s.word LNK_TORUS.reg).toNat) →
      c = (if torus then s.coord else v.toNat % 2 ^ 15) →
      (s.get FAB_STATUS.IDLE = 0 ∨ torusOk dims c = false →
        ((if torus then dims ≠ (s.word LNK_TORUS.reg).toNat else c ≠ s.coord) →
          ∃ t, exec (.lnkCoordWrite iss torus v) s = .next t ∧ Same [.regs, .ras] s t ∧ RegsBut (regsOf 13) s t ∧
            Raised (unitId 3 0xFFF) s t) ∧
        ((if torus then dims = (s.word LNK_TORUS.reg).toNat else c = s.coord) → exec (.lnkCoordWrite iss torus v) s = .next s)) ∧
      (s.get FAB_STATUS.IDLE = 1 → torusOk dims c = true →
        ∃ t, exec (.lnkCoordWrite iss torus v) s = .next t ∧ t.get LNK_COORD.VALID = 1 ∧ t.coord = c ∧
          (t.word LNK_TORUS.reg).toNat = dims ∧
          (∀ a k f, a < 3 → k < 32 → f = (k + bits dims (6 * a) 6 - axisOf c a) % bits dims (6 * a) 6 → t.get (LNK_ROUTE.DIR a k) =
            if k = axisOf c a then 0 else if f ≤ bits dims (6 * a) 6 - f then 1 else 2) ∧
          ∀ l < 48, s.get (LNK_PORT_STATUS.STATE l) ≠ 0 → (s.link l).out = false → s.get (PWR_FN_CTRL.STATUS (96 + l)) = 2 →
            t.get (LNK_PORT_STATUS.STATE l) = 1 ∧ (t.link l).train = .pattern)) ∧
    (∀ a < 3, (s.get FAB_STATUS.IDLE = 1 → ∃ t, exec (.lnkRouteWrite iss a v) s = .next t ∧ Same [.regs] s t ∧
          RegsBut (· = LNK_ROUTE.reg a) s t ∧ t.word (LNK_ROUTE.reg a) = v) ∧
      (s.get FAB_STATUS.IDLE = 0 → s.word (LNK_ROUTE.reg a) = v → exec (.lnkRouteWrite iss a v) s = .next s) ∧
      (s.get FAB_STATUS.IDLE = 0 → s.word (LNK_ROUTE.reg a) ≠ v →
        ∃ t, exec (.lnkRouteWrite iss a v) s = .next t ∧ Same [.regs, .ras] s t ∧ RegsBut (regsOf 13) s t ∧
          Raised (unitId 3 0xFFF) s t)) ∧
    (∀ d up, d < 6 →
      ∃ t, exec (.linkStatus d up) s = .next t ∧ Same [.regs, .bundles, .ras] s t ∧ (t.bundle d).reports = up % 64 ∧
        (∀ e < 6, e ≠ d → (t.bundle e).reports = (s.bundle e).reports) ∧
        ∀ e < 6, s.bundleUp e = false → s.hadPartner e = true →
          (∀ x, t.sideFor e = some x → t.get (LNK_BUNDLE_STATUS.TUNNEL e) = 1 ∧ t.get (LNK_BUNDLE_STATUS.TUNNEL_SIDE e) = x ∧
            (s.get (LNK_BUNDLE_STATUS.TUNNEL e) ≠ 1 → t.get LNK_EVENT.TUNNEL = 1)) ∧
          (t.sideFor e = none → t.get (LNK_BUNDLE_STATUS.TUNNEL e) = 2 ∧
            (s.get (LNK_BUNDLE_STATUS.TUNNEL e) ≠ 2 → t.get LNK_EVENT.NO_TUNNEL = 1))) ∧
    (∀ d td te hop recs f,
      (6 ≤ td ∨ hop = 0 ∨ 4 ≤ hop ∨ hop ≠ 3 ∧ 6 ≤ te → exec (.tunnel d td te hop recs f) s = .next s) ∧
      (∀ o pkt, td < 6 → te < 6 → hop = 1 ∧ o = td ∨ hop = 2 ∧ o = opposite te → pkt = tunnelBytes td te (hop + 1) recs f →
        leAt pkt 16 1 = td ∧ leAt pkt 17 1 = te ∧ leAt pkt 18 1 = hop + 1 ∧ leAt pkt 19 1 = f.count % 256 ∧ pkt.drop 32 = recs ∧
        (f.header.length = 16 → pkt.take 16 = f.header) ∧
        ∃ t, exec (.tunnel d td te hop recs f) s = .next t ∧
          t.bundle o = { s.bundle o with queue := (s.bundle o).queue ++
            [⟨d, 8, chunk244 (pkt.length + 1) pkt, false, none⟩] } ∧
          (∀ e ≠ o, t.bundle e = s.bundle e) ∧
          (s.bundleUp o = true ∨ s.get (LNK_BUNDLE_STATUS.TUNNEL o) = 2 → Same [.bundles] s t) ∧
          (s.bundleUp o = false → s.get (LNK_BUNDLE_STATUS.TUNNEL o) ≠ 2 →
            Same [.regs, .bundles, .ras] s t ∧ t.get (LNK_BUNDLE_STATUS.TUNNEL o) = 2 ∧ t.get LNK_EVENT.NO_TUNNEL = 1 ∧
            Raised (unitId 3 (8 * o)) s t)) ∧
      (∀ o ch bseq n pay, td < 6 → hop = 3 → f.count = 1 → o = opposite td → s.bundleUp o = true → ch < 8 → bseq < 65536 →
        pay.length ≤ 244 → n < 64 →
        (recs = creditRecord ch n →
          ∃ t, exec (.tunnel d td te hop recs f) s = .next t ∧ Same [.bundles] s t ∧ t.bundle o = (s.bundle o).refund ch n) ∧
        (recs = flitRecord ch bseq pay → (s.bundle o).known ch bseq = true → exec (.tunnel d td te hop recs f) s = .next s) ∧
        (recs = flitRecord ch bseq pay → (s.bundle o).known ch bseq = false → bseq ≠ SMap.get (s.bundle o).relSeq 0 ch →
          SMap.find? (s.bundle o).held (ch * 65536 + SMap.get (s.bundle o).relSeq 0 ch) = none →
          ∃ t, exec (.tunnel d td te hop recs f) s = .next t ∧ Same [.bundles] s t ∧
            t.bundle o = { s.bundle o with held := SMap.insert (s.bundle o).held (ch * 65536 + bseq) pay }) ∧
        (recs = flitRecord ch bseq pay → (s.bundle o).known ch bseq = false → bseq = SMap.get (s.bundle o).relSeq 0 ch →
          SMap.find? (s.bundle o).held (ch * 65536 + (bseq + 1) % 65536) = none →
          ∃ t, exec (.tunnel d td te hop recs f) s = .next t ∧ SMap.get (t.bundle o).relSeq 0 ch = (bseq + 1) % 65536)))

/-- QUEUE_OPEN, QUEUE_GRANT, QUEUE_REJECT, QUEUE_OPEN_RETRY, QUEUE_DATA, QUEUE_ABORT, QUEUE_STALL_TIMEOUT, STREAM_BLOCK, STREAM_TOKEN
and STREAM_CREDIT (R216, R221, R226, R323 to R325, R329, R330): an open of another source is rejected, one that finds room is placed, and
one beyond 1,024 that must wait is turned away; a granted packet takes its words in order and is rewound by an abort or for lack of data;
a stream packet without a credit is discarded, and one with a credit goes to its Bench over the mesh. -/
def Obligations.LinkQueuesAndStreams : Prop :=
  ∀ (s : State) (src q port : Nat), s.live → q < 64 → port < 48 →
    (∀ r, (1024 < r.words →
        ∃ t, exec (.queueOpen src q port r) s = .next t ∧ Same [.regs, .ras] s t ∧ Raised (unitId 3 (8 * (port / 8))) s t) ∧
      (r.words ≤ 1024 → s.openAllowed q (.link port src) = false →
        ∃ t, exec (.queueOpen src q port r) s = .next t ∧
          t.get (QUE_Q_ERR.REJECTED q) = min 65535 (s.get (QUE_Q_ERR.REJECTED q) + 1) ∧ t.get QUE_EVENT.REJECTED = 1 ∧
          t.queues = s.queues ∧ Sends s t src 3 [BitVec.ofNat 8 q, 1] []) ∧
      (r.words ≤ 1024 → s.openAllowed q (.link port src) = true →
        (s.openPk q = none → bit (s.get QUE_FLUSH.REQ) q = false →
          (s.queue q).wait = [] → s.ringPks q = [] → s.get (QUE_Q_CFG.UNITS q) ≤ 128 → s.qFits q r.words = true →
          ∃ t p, exec (.queueOpen src q port r) s = .next t ∧ t.openPk q = some p ∧ p.prod = .link port src ∧ p.req = r ∧
            (t.queue q).lastData = s.now ∧ (t.queue q).got = 0 ∧ Sends s t src 2 [BitVec.ofNat 8 q] []) ∧
        ((s.openPk q).isSome = true → s.pendOpens < 1024 → (∀ w ∈ (s.queue q).wait, w.1 ≠ .link port src ∨ w.2.1 ≠ r) →
          ∃ t, exec (.queueOpen src q port r) s = .next t ∧ (t.queue q).pks = (s.queue q).pks ∧
            (t.queue q).wait = (s.queue q).wait ++ [(.link port src, r, [])]) ∧
        ((s.openPk q).isSome = true → 1024 ≤ s.pendOpens →
          ∃ t, exec (.queueOpen src q port r) s = .next t ∧ t.queues = s.queues ∧ Sends s t src 3 [BitVec.ofNat 8 q, 0] []))) ∧
    (∀ dev, (∀ o ∈ s.opens, o.dev ≠ dev ∨ o.queue ≠ q ∨ o.st ≠ 0 ∧ o.st ≠ 3) → ∀ reason,
      exec (.queueGrant dev q) s = .next s ∧ exec (.queueReject dev q reason) s = .next s) ∧
    (∀ dev, (∀ o ∈ s.opens, o.dev ≠ dev ∨ o.queue ≠ q ∨ o.st ≠ 1 ∨ s.now < o.stamp + 400) → exec (.queueOpenRetry dev q) s = .next s) ∧
    (∀ o dev, o.dev = dev → o.queue = q → s.opens = [o] →
      (o.st = 0 → ∃ t, exec (.queueGrant dev q) s = .next t ∧ t.opens = [] ∧
        ∀ a dir d, s.routeOf dev = some (a, dir) → dir = 1 ∨ dir = 2 → d = 2 * a + (dir - 1) → s.get (LNK_BUNDLE_STATUS.TUNNEL d) ≠ 1 →
          (t.bundle d).queue.length = (s.bundle d).queue.length + (o.data.length + 4095) / 4096) ∧
      (o.st = 3 → ∃ t, exec (.queueGrant dev q) s = .next t ∧ t.opens = [] ∧ Sends s t dev 5 [BitVec.ofNat 8 q] []) ∧
      (o.st = 0 ∨ o.st = 3 →
        ∃ t, exec (.queueReject dev q 1) s = .next t ∧ Same [.regs, .ras, .opens] s t ∧ t.opens = [] ∧
          t.get LNK_EVENT.QUEUE_REJECTED = 1 ∧ Raised (unitId 5 q) s t) ∧
      (o.st = 0 → ∃ t, exec (.queueReject dev q 0) s = .next t ∧ Same [.opens] s t ∧
        t.opens = [{ o with st := 1, stamp := s.now }]) ∧
      (o.st = 3 → ∃ t, exec (.queueReject dev q 0) s = .next t ∧ Same [.opens] s t ∧ t.opens = []) ∧
      (o.st = 1 → o.stamp + 400 ≤ s.now → ∃ t, exec (.queueOpenRetry dev q) s = .next t ∧
        t.opens = [{ o with st := 0, stamp := s.now }] ∧ Sends s t dev 1 (openFields q o.req) [])) ∧
    (∀ data, s.grantedTo q src = none → ∀ c, c = .queueData src q data ∨ c = .queueAbort src q →
      ∃ t, exec c s = .next t ∧ Same [.regs] s t ∧ RegsBut (· = QUE_Q_ERR.reg q) s t ∧
        t.get (QUE_Q_ERR.REWOUND q) = min 65535 (s.get (QUE_Q_ERR.REWOUND q) + 1)) ∧
    (∀ p pre, s.grantedTo q src = some p → (s.queue q).pks = pre ++ [p] → (∀ x ∈ pre, x.st ≠ .opening) →
      (∀ data, (data.length % 64 ≠ 0 ∨ data = [] ∨ 4096 < data.length ∨ p.req.words < (s.queue q).got + data.length / 64 →
          exec (.queueData src q data) s = .next s) ∧
        (data.length % 64 = 0 → 0 < data.length → data.length ≤ 4096 → (s.queue q).got + data.length / 64 ≤ p.req.words →
          ∃ t, exec (.queueData src q data) s = .next t ∧
            t.queue q = { s.queue q with got := (s.queue q).got + data.length / 64, lastData := s.now } ∧
            (p.ring = false → s.bad = [] → s.ckp.snap = none → s.get (QUE_Q_CFG.UNITS q) ≤ 128 → p.base < 2 * s.qW q →
              p.req.words ≤ s.qW q → Same [.qst, .queues] s t ∧ ∀ k < data.length / 64,
                Mem.rdN t.qst (s.qWord q (qAdv p.base ((s.queue q).got + k) (s.qW q))) 64 = (data.drop (64 * k)).take 64))) ∧
      (∀ c, c = .queueAbort src q ∨
          c = .queueStallTimeout q ∧ (s.queue q).got < p.req.words ∧ (s.queue q).lastData + s.get LNK_STALL.TICKS ≤ s.now →
        ∃ t more, exec c s = .next t ∧ (t.queue q).pks = pre ++ more ∧ ((s.queue q).wait = [] → more = []) ∧
          t.get (QUE_Q_ERR.REWOUND q) = min 65535 (s.get (QUE_Q_ERR.REWOUND q) + 1) ∧
          (c = .queueStallTimeout q → t.get LNK_EVENT.QUEUE_STALL = 1) ∧
          ((s.queue q).wait = [] → p.ring = false → t.get (QUE_Q_PTR2.OP q) = s.get (QUE_Q_PTR.WR q)) ∧
          ((s.queue q).wait = [] → p.ring = true → t.get (QUE_Q_RING_PTR.RING_WR q) = (s.queue q).ringCommit % 2 ^ 27)) ∧
      (p.req.words ≤ (s.queue q).got ∨ s.now < (s.queue q).lastData + s.get LNK_STALL.TICKS → exec (.queueStallTimeout q) s = .next s)) ∧
    (s.openPk q = none → exec (.queueStallTimeout q) s = .next s) ∧
    (∀ h data, s.replay = true ∨ s.streamOk h = false → ∀ c, c = .streamBlock h data ∨ c = .streamToken h →
      ∃ t, exec c s = .next t ∧ Same [.regs, .ras] s t ∧ t.get LNK_EVENT.STREAM_MISMATCH = 1 ∧ Raised (unitId 3 0) s t) ∧
    (∀ h p, s.replay = false → s.streamOk h = true → s.phys h.tile = some p →
      (∀ data, ∃ t, exec (.streamBlock h data) s = .next t ∧ (s.get RAS_CTRL.CAPTURE = 0 → Same [.benches, .mesh] s t) ∧
        OnWay t p (.block h.tile h.entry h.mb data) ∧
        SMap.get (t.bench p).strIn 0 (credKey h.entry h.mb) = SMap.get (s.bench p).strIn 0 (credKey h.entry h.mb) - 1 ∧
        ∀ k ≠ p, t.bench k = s.bench k) ∧
      ∃ t, exec (.streamToken h) s = .next t ∧ OnWay t p (.token h.tile h.entry) ∧
        SMap.get (t.bench p).strIn 0 (credKey h.entry h.mb) = 0 ∧ t.fab.tokens = s.fab.tokens ∧ ∀ k ≠ p, t.bench k = s.bench k) ∧
    (∀ tile entry mb n, (s.phys tile = none ∨ ∀ e v, e < 4 → s.planeAt e tile = some v → v.rKind entry ≠ 5 ∨ v.rPeer entry ≠ src) →
      exec (.streamCredit src tile entry mb n) s = .next s) ∧
    (∀ tile p v e entry mb n, s.phys tile = some p → e < 4 → s.planeAt e tile = some v → v.rKind entry = 5 → v.rPeer entry = src →
      ∃ t, exec (.streamCredit src tile entry mb n) s = .next t ∧ Same [.benches] s t ∧
        SMap.get (t.bench p).strOut 0 (credKey entry mb) = SMap.get (s.bench p).strOut 0 (credKey entry mb) + n ∧
        ∀ k ≠ p, t.bench k = s.bench k)

/-- ARRIVE, WAIT, ARRIVE_WAIT and CLEAR at a cell of this die (R341 to R345, R350, R354, R355, R361): a cell accepts what the mesh has
delivered for it, oldest first, with the effects of Tables 12.2 and 12.3; merged arrivals count one by one; a release advances GEN, takes
NEXT into COUNT, clears WAITERS and REMOTE and goes down the tree, twice where every participant had arrived early; a rejected operation
changes no cell, and one whose key does not match is a translation miss. -/
def Obligations.SyncCells : Prop :=
  ∀ (s : State) (cell tag req ctx vid n : Nat) (x : Nat × Flit) (c : Cell) (u : State), s.live → c = s.cell cell → u = s.takeUp x →
    (∀ count, s.accept 0 cell tag count req = none → exec (.arrive cell tag count req) s = .next s) ∧
    (s.accept 1 cell tag 1 req = none → exec (.wait cell tag req) s = .next s) ∧
    (s.accept 2 cell tag 1 req = none → exec (.arriveWait cell tag req) s = .next s) ∧
    ((∀ tg, s.accept 3 cell tg 1 req = none) → exec (.clear cell req) s = .next s) ∧
    (∀ l k, Brings s cell 0 ctx vid tag l x → l.length = k → l.getLast?.map (·.1) = some req →
      ∃ t, exec (.arrive cell tag k req) s = .next t ∧ (∀ j ≠ cell, t.cell j = s.cell j) ∧
        ((∀ r ∈ l, r.2 = 9) → c.names = [] → Same [.regs, .ras, .cells, .mesh] s t) ∧
        (c.holds ctx vid = false → t.cell cell = c ∧ t.get SYN_EVENT.UNKNOWN = 1 ∧
          ((∀ r ∈ l, r.2 = 9) → t.get SYN_ERR_COUNT.UNKNOWN = min 65535 (s.get SYN_ERR_COUNT.UNKNOWN + k) ∧
            (k = 1 → Raised (unitId 6 0xFFF) s t))) ∧
        (c.holds ctx vid = true → c.barrier = false →
          (c.count = 0 →
            t.cell cell = { c with
              count := 1, gen := (c.gen + 1) % 65536, last := req, waiters := 0, remote := 0, names := [],
              setLost := min 65535 (c.setLost + (k - 1)) } ∧
            ((∀ r ∈ l, r.2 = 9) → OnWay t (cellStop cell) (.release cell ((c.gen + 1) % 65536)))) ∧
          (c.count ≠ 0 → t.cell cell = { c with last := req, setLost := min 65535 (c.setLost + k) } ∧
            ((∀ r ∈ l, r.2 = 9) → Same [.cells] u t))) ∧
        (c.holds ctx vid = true → c.barrier = true → c.count < c.n → tag % 4 = c.gen % 4 →
          (c.count + k < c.n → t.cell cell = { c with count := c.count + k, last := req } ∧ ((∀ r ∈ l, r.2 = 9) → Same [.cells] u t)) ∧
          (c.n ≤ c.count + k →
            (c.next < c.n → t.cell cell = { c with
              gen := (c.gen + 1) % 65536, count := c.next, next := 0, waiters := 0, remote := 0, names := [], last := req }) ∧
            (c.next = c.n → t.cell cell = { c with
              gen := ((c.gen + 1) % 65536 + 1) % 65536, count := 0, next := 0, waiters := 0, remote := 0, names := [], last := req }) ∧
            ((∀ r ∈ l, r.2 = 9) → OnWay t (cellStop cell) (.release cell ((c.gen + 1) % 65536)) ∧
              (c.next = c.n → OnWay t (cellStop cell) (.release cell (((c.gen + 1) % 65536 + 1) % 65536))) ∧
              t.get SYN_ERR_COUNT.GEN_ERRORS = min 65535 (s.get SYN_ERR_COUNT.GEN_ERRORS + (c.count + k - c.n))) ∧
            (∀ die phys cx co, c.names = [(die, phys, cx)] → s.dieCoord die = some co → (∀ r ∈ l, r.2 = 9) →
              Sends s t co 0x20 [0] (s.syncBody { op := 5, tag := 0, phys := phys, ctx := cx, vid := c.vid, count := 1, req := 0,
                                                  cell := cell, gen := (c.gen + 1) % 65536, reason := 0, flag := false })))) ∧
        (c.holds ctx vid = true → c.barrier = true → tag % 4 = (c.gen + 1) % 4 →
          (c.next + k ≤ c.n → t.cell cell = { c with next := c.next + k, last := req }) ∧
          (c.next < c.n → c.n < c.next + k → t.cell cell = { c with next := c.n, last := req }) ∧
          (c.n ≤ c.next → t.cell cell = c) ∧
          ((∀ r ∈ l, r.2 = 9) →
            t.get SYN_ERR_COUNT.GEN_ERRORS = min 65535 (s.get SYN_ERR_COUNT.GEN_ERRORS + (k - (c.n - c.next))))) ∧
        (c.holds ctx vid = true → c.barrier = true → tag % 4 = (c.gen + 2) % 4 ∨ tag % 4 = (c.gen + 3) % 4 →
          t.cell cell = c ∧ t.get SYN_EVENT.GEN_ERROR = 1 ∧
          ((∀ r ∈ l, r.2 = 9) → t.get SYN_ERR_COUNT.GEN_ERRORS = min 65535 (s.get SYN_ERR_COUNT.GEN_ERRORS + k) ∧
            (k = 1 → Raised (unitId 6 cell) s t)))) ∧
    (Brings s cell 1 ctx vid tag [(req, n)] x →
      (s.waiterOf cell tag (req, n) = none → exec (.wait cell tag req) s = .next u) ∧
      (∀ w, s.waiterOf cell tag (req, n) = some w →
        (c.holds ctx vid = false →
          ∃ t, exec (.wait cell tag req) s = .next t ∧ t.cells = s.cells ∧ t.get SYN_EVENT.UNKNOWN = 1 ∧
            (n = 9 → Same [.regs, .ras, .waits] u t ∧ { w with on := .nothing } ∈ t.waits ∧ Raised (unitId 6 0xFFF) s t)) ∧
        (c.holds ctx vid = true → c.barrier = false ∧ c.count = 1 ∨
            c.barrier = true ∧ (tag % 4 = (c.gen + 2) % 4 ∨ tag % 4 = (c.gen + 3) % 4) →
          ∃ t, exec (.wait cell tag req) s = .next t ∧ t.cells = s.cells ∧
            (n = 9 → t.waits = s.waits.erase w ∧ ∀ p, s.phys (req % 1024) = some p →
              Same [.regs, .benches, .waits] u t ∧ WaitPassed p w.key s t)) ∧
        (c.holds ctx vid = true → c.barrier = false ∧ c.count ≠ 1 ∨
            c.barrier = true ∧ (tag % 4 = c.gen % 4 ∨ tag % 4 = (c.gen + 1) % 4) →
          ∃ t, exec (.wait cell tag req) s = .next t ∧ (∀ j ≠ cell, t.cell j = s.cell j) ∧
            t.cell cell = { c with waiters := c.waiters + 1 } ∧ { w with placed := true } ∈ t.waits ∧
            (8 < n → Same [.cells, .waits] u t) ∧ (n ≤ 8 → t.get (SYN_OP_STATUS.HEAD n) = 2)))) ∧
    (Brings s cell 2 ctx vid tag [(req, n)] x →
      (s.waiterOf cell tag (req, n) = none → c.holds ctx vid = true →
        ∃ t, exec (.arriveWait cell tag req) s = .next t ∧ t.waits = s.waits ∧ t.cell cell = (c.arrive (tag % 4) 1 req).cell) ∧
      (∀ w, s.waiterOf cell tag (req, n) = some w →
        ∃ t, exec (.arriveWait cell tag req) s = .next t ∧ (∀ j ≠ cell, t.cell j = s.cell j) ∧
          (c.holds ctx vid = false → t.cell cell = c ∧ t.get SYN_EVENT.UNKNOWN = 1) ∧
          (c.holds ctx vid = true → c.barrier = false →
            (c.count = 0 → t.cell cell = { c with
              count := 1, gen := (c.gen + 1) % 65536, last := req, waiters := 0, remote := 0, names := [],
              setLost := min 65535 c.setLost }) ∧
            (c.count ≠ 0 → t.cell cell = { c with last := req, setLost := min 65535 (c.setLost + 1) })) ∧
          (c.holds ctx vid = true → c.barrier = true → c.count < c.n →
            (tag % 4 = c.gen % 4 → c.count + 1 < c.n → { w with placed := true } ∈ t.waits ∧
              t.cell cell = { c with count := c.count + 1, last := req, waiters := c.waiters + 1 }) ∧
            (tag % 4 = c.gen % 4 → c.count + 1 = c.n → c.next < c.n → t.cell cell = { c with
              gen := (c.gen + 1) % 65536, count := c.next, next := 0, waiters := 0, remote := 0, names := [], last := req }) ∧
            (tag % 4 = c.gen % 4 → c.count + 1 = c.n → c.next = c.n → t.cell cell = { c with
              gen := ((c.gen + 1) % 65536 + 1) % 65536, count := 0, next := 0, waiters := 0, remote := 0, names := [], last := req }) ∧
            (tag % 4 = (c.gen + 1) % 4 → c.next < c.n → { w with placed := true } ∈ t.waits ∧
              t.cell cell = { c with next := c.next + 1, last := req, waiters := c.waiters + 1 }) ∧
            (tag % 4 = (c.gen + 2) % 4 ∨ tag % 4 = (c.gen + 3) % 4 ∨ tag % 4 = (c.gen + 1) % 4 ∧ c.n ≤ c.next →
              t.cell cell = c ∧ t.get SYN_EVENT.GEN_ERROR = 1)))) ∧
    (Brings s cell 3 ctx vid tag [(req, n)] x →
      ∃ t, exec (.clear cell req) s = .next t ∧ (∀ j ≠ cell, t.cell j = s.cell j) ∧
        (c.holds ctx vid = false → t.cell cell = c ∧ t.get SYN_EVENT.UNKNOWN = 1) ∧
        (c.holds ctx vid = true → c.barrier = false →
          (c.count ≠ 0 → t.cell cell = { c with count := 0, last := req }) ∧
          (c.count = 0 → t.cell cell = c ∧ t.get SYN_EVENT.UNDERFLOW = 1 ∧ (n = 9 → Raised (unitId 6 cell) s t))) ∧
        (c.holds ctx vid = true → c.barrier = true → t.cell cell = c ∧ t.get SYN_EVENT.GEN_ERROR = 1 ∧
          (n = 9 → Raised (unitId 6 cell) s t)))

/-- SYN_OP_WRITE, the completion of a slot's operation, SYNC_RELEASE, REMOTE_SYNC_OP, SYNC_ANSWER, SYNC_WAIT_TIMEOUT, SYN_CTX_CLEAR,
SYN_DBG_SEL_WRITE and SYN_DBG_FIND (R345, R349, R350, R353, R355, R357 to R359, R482, R483). -/
def Obligations.SyncRequesters : Prop :=
  ∀ (s : State) (iss : Issuer), s.live →
    (∀ n v, 8 < n → exec (.synOpWrite iss n v) s = .next s) ∧
    (∀ n v o, n ≤ 8 → o = SlotOp.mk (v.toNat % 8) (bits v.toNat 32 2) (bits v.toNat 36 4) (bit v.toNat 34) (bit v.toNat 35)
        (bits v.toNat 40 4) (bits v.toNat 48 16) (s.opReq iss) →
      (4 ≤ v.toNat % 8 →
        ∃ t, exec (.synOpWrite iss n v) s = .next t ∧ Same [.regs, .ras] s t ∧ t.get (SYN_OP_STATUS.RESULT n) = 6 ∧
          Raised (unitId 8 0xFFF) s t) ∧
      (v.toNat % 8 < 4 → 16 ≤ (s.slot n).length →
        ∃ t, exec (.synOpWrite iss n v) s = .next t ∧ Same [.regs] s t ∧ t.get (SYN_OP_STATUS.RESULT n) = 6 ∧
          t.get SYN_EVENT.OP_FULL = 1) ∧
      (v.toNat % 8 < 4 → s.slot n ≠ [] → (s.slot n).length < 16 →
        ∃ t, exec (.synOpWrite iss n v) s = .next t ∧ Same [.regs, .slots] s t ∧ t.slot n = s.slot n ++ [o] ∧
          t.get (SYN_OP_STATUS.DEPTH n) = (s.slot n).length + 1) ∧
      (v.toNat % 8 < 4 → s.slot n = [] → ∀ ctx,
          ctx = (if o.remote = true ∧ o.phys = false then s.physCtx 0 o.ctx else o.ctx) →
        (o.remote = false ∨ s.ownDie o.die = true →
          (∀ cell, s.findCell ctx o.vid = some cell →
            ∃ t, exec (.synOpWrite iss n v) s = .next t ∧ Same [.regs, .slots, .mesh, .waits] s t ∧ t.slot n = [o] ∧
              t.get (SYN_OP_STATUS.DEPTH n) = 1 ∧ t.get (SYN_OP_STATUS.HEAD n) = 1 ∧
              (∃ f ∈ t.mesh.flits, ∃ l, f.msg = .sync o.op cell ctx o.vid o.tag l ∧ (o.req, n) ∈ l ∧
                (o.op ≠ 0 → f.dst = cellStop cell)) ∧
              (o.op = 0 ∨ o.op = 3 → t.waits = s.waits) ∧
              (o.op = 1 ∨ o.op = 2 → ∃ w, t.waits = s.waits ++ [w] ∧ w.req = o.req ∧ w.on = .cell cell ∧ w.tag = o.tag ∧
                w.stamp = s.now ∧ w.slot = n ∧ w.placed = false)) ∧
          (s.findCell ctx o.vid = none →
            ∃ t, exec (.synOpWrite iss n v) s = .next t ∧ Same [.regs, .slots, .ras] s t ∧ SlotEnds n 3 s t ∧ t.get SYN_EVENT.UNKNOWN = 1 ∧
              Raised (unitId 6 0xFFF) s t)) ∧
        (o.remote = true → s.ownDie o.die = false →
          (s.dieCoord o.die = none →
            ∃ t, exec (.synOpWrite iss n v) s = .next t ∧ Same [.regs, .slots, .ras] s t ∧ SlotEnds n 3 s t ∧ t.get SYN_EVENT.UNKNOWN = 1 ∧
              Raised (unitId 6 0xFFF) s t) ∧
          (∀ co, s.dieCoord o.die = some co →
            ∃ t, exec (.synOpWrite iss n v) s = .next t ∧
              Sends s t co 0x20 [0] (s.syncBody { op := o.op, tag := o.tag, phys := o.phys, ctx := o.ctx, vid := o.vid, count := 1,
                                                  req := o.req, cell := 0, gen := 0, reason := 0, flag := false }) ∧
              (o.op = 0 ∨ o.op = 3 → SlotEnds n 1 s t ∧ t.waits = s.waits) ∧
              (o.op = 1 ∨ o.op = 2 → t.slot n = [o] ∧ t.get (SYN_OP_STATUS.HEAD n) = 1 ∧ ∃ w, t.waits = s.waits ++ [w] ∧
                w.on = .far o.die o.phys o.ctx o.vid ∧ w.req = o.req ∧ w.stamp = s.now ∧ w.slot = n))))) ∧
    (∀ cell tag req ctx vid n o x c, n ≤ 8 → s.slot n = [o] → c = s.cell cell →
      (Brings s cell 0 ctx vid tag [(req, n)] x →
        ∃ t, exec (.arrive cell tag 1 req) s = .next t ∧
          (c.holds ctx vid = false → SlotEnds n 3 s t) ∧
          (c.holds ctx vid = true → c.barrier = false ∨ tag % 4 = c.gen % 4 ∧ c.count < c.n ∨ tag % 4 = (c.gen + 1) % 4 ∧ c.next < c.n →
            SlotEnds n 1 s t) ∧
          (c.holds ctx vid = true → c.barrier = true → tag % 4 = (c.gen + 2) % 4 ∨ tag % 4 = (c.gen + 3) % 4 → SlotEnds n 3 s t)) ∧
      (Brings s cell 3 ctx vid tag [(req, n)] x →
        ∃ t, exec (.clear cell req) s = .next t ∧
          (c.holds ctx vid = true ∧ c.barrier = false ∧ c.count ≠ 0 → SlotEnds n 1 s t) ∧
          (c.holds ctx vid = false ∨ c.barrier = true ∨ c.count = 0 → SlotEnds n 3 s t)) ∧
      (∀ w, s.waiterOf cell tag (req, n) = some w →
        (Brings s cell 1 ctx vid tag [(req, n)] x →
          ∃ t, exec (.wait cell tag req) s = .next t ∧
            (c.holds ctx vid = false → SlotEnds n 3 s t ∧ t.waits = s.waits.erase w) ∧
            (c.holds ctx vid = true → c.passes (tag % 4) = true → SlotEnds n 1 s t ∧ t.waits = s.waits.erase w)) ∧
        (Brings s cell 2 ctx vid tag [(req, n)] x →
          ∃ t, exec (.arriveWait cell tag req) s = .next t ∧
            (c.holds ctx vid = false → SlotEnds n 3 s t ∧ t.waits = s.waits.erase w) ∧
            (c.holds ctx vid = true → c.barrier = false ∨ tag % 4 = c.gen % 4 ∧ c.count + 1 = c.n →
              SlotEnds n 1 s t ∧ t.waits = s.waits.erase w) ∧
            (c.holds ctx vid = true → c.barrier = true → tag % 4 = (c.gen + 2) % 4 ∨ tag % 4 = (c.gen + 3) % 4 →
              SlotEnds n 3 s t ∧ t.waits = s.waits.erase w)))) ∧
    (∀ stop cell,
      (s.arrived (fun st g => st == stop && (g.release? cell).isSome) = none → exec (.syncRelease stop cell) s = .next s) ∧
      (∀ x gen, s.arrived (fun st g => st == stop && (g.release? cell).isSome) = some x → x.2.msg = .release cell gen →
        ∃ t, exec (.syncRelease stop cell) s = .next t ∧ t.mesh.got.length + 1 = s.mesh.got.length ∧ t.cells = s.cells ∧
          (s.waits.Nodup → ∀ w ∈ s.waits, (w ∈ t.waits ↔ ¬ (w.on = .cell cell ∧ w.placed = true ∧ w.stop = stop ∧
            ((s.cell cell).barrier = false ∨ 2 ≤ (w.tag + 4 - gen % 4) % 4)))) ∧
          (∀ w, s.waits = [w] → w.on = .cell cell → w.placed = true → w.stop = stop →
              (s.cell cell).barrier = false ∨ 2 ≤ (w.tag + 4 - gen % 4) % 4 →
            (w.slot = 9 → ∀ p, s.phys (w.req % 1024) = some p →
              Same [.regs, .benches, .waits] (s.takeUp x) t ∧ t.waits = [] ∧ WaitPassed p w.key s t) ∧
            (∀ o, w.slot ≤ 8 → s.slot w.slot = [o] → SlotEnds w.slot 1 s t)))) ∧
    (∀ src m, 4 ≤ m.op → exec (.remoteSyncOp src m) s = .next s) ∧
    (∀ src m cell c ctx, src < 16 → ctx = (if m.phys then m.ctx else s.physCtx 0 m.ctx) → s.findCell ctx m.vid = some cell → c = s.cell cell →
      ∀ answer : Nat → Nat → Nat → State → Prop, answer = (fun op gen reason t => ∀ co, s.dieCoord src = some co →
        Sends s t co 0x20 [0] (s.syncBody { op := op, tag := m.tag, phys := m.phys, ctx := m.ctx, vid := m.vid, count := 1, req := m.req,
                                            cell := cell, gen := gen, reason := reason, flag := false })) →
      (m.op < 4 → ∃ t, exec (.remoteSyncOp src m) s = .next t ∧
        (m.op = 0 ∧ c.barrier = false ∧ c.count ≠ 0 → Same [.cells] s t ∧
          t.cell cell = { c with last := m.req, setLost := min 65535 (c.setLost + max 1 m.count) }) ∧
        (m.op = 0 ∧ c.barrier = false ∧ c.count = 0 ∧ c.names = [] → Same [.cells, .mesh] s t ∧
          OnWay t (cellStop cell) (.release cell ((c.gen + 1) % 65536)) ∧ t.cell cell = { c with
            count := 1, gen := (c.gen + 1) % 65536, last := m.req, waiters := 0, remote := 0, names := [],
            setLost := min 65535 (c.setLost + (max 1 m.count - 1)) }) ∧
        (m.op = 0 ∧ c.barrier = true ∧ m.tag % 4 = c.gen % 4 ∧ c.count + max 1 m.count < c.n → Same [.cells] s t ∧
          t.cell cell = { c with count := c.count + max 1 m.count, last := m.req }) ∧
        (m.op = 0 ∧ c.barrier = true ∧ m.tag % 4 = (c.gen + 2) % 4 → t.cell cell = c ∧ t.get SYN_EVENT.GEN_ERROR = 1 ∧ answer 6 c.gen 3 t) ∧
        (m.op = 0 ∧ c.barrier = true ∧ m.tag % 4 = (c.gen + 3) % 4 → t.cell cell = c ∧ t.get SYN_EVENT.GEN_ERROR = 1 ∧ answer 6 c.gen 4 t) ∧
        (m.op = 1 ∧ c.passes (m.tag % 4) = true → t.cells = s.cells ∧ answer 4 c.gen 0 t) ∧
        (m.op = 1 ∧ c.passes (m.tag % 4) = false → Same [.cells] s t ∧ bit (t.cell cell).remote src = true ∧
          (src, m.phys, m.ctx) ∈ (t.cell cell).names ∧ (t.cell cell).count = c.count ∧ (t.cell cell).gen = c.gen) ∧
        (m.op = 2 ∧ c.barrier = false ∧ c.count ≠ 0 → answer 4 c.gen 0 t ∧
          t.cell cell = { c with last := m.req, setLost := min 65535 (c.setLost + 1) }) ∧
        (m.op = 2 ∧ c.barrier = true ∧ m.tag % 4 = c.gen % 4 ∧ c.count + 1 < c.n → Same [.cells] s t ∧
          (t.cell cell).count = c.count + 1 ∧ (t.cell cell).last = m.req ∧ bit (t.cell cell).remote src = true ∧
          (src, m.phys, m.ctx) ∈ (t.cell cell).names) ∧
        (m.op = 2 ∧ c.barrier = true ∧ m.tag % 4 = (c.gen + 2) % 4 → t.cell cell = c ∧ answer 6 c.gen 3 t) ∧
        (m.op = 3 ∧ c.barrier = false ∧ c.count ≠ 0 → Same [.cells] s t ∧ t.cell cell = { c with count := 0, last := m.req }) ∧
        (m.op = 3 ∧ c.barrier = false ∧ c.count = 0 → t.cells = s.cells ∧ t.get SYN_EVENT.UNDERFLOW = 1 ∧ answer 6 c.gen 2 t) ∧
        (m.op = 3 ∧ c.barrier = true → t.cells = s.cells ∧ t.get SYN_EVENT.GEN_ERROR = 1 ∧ answer 6 c.gen 7 t))) ∧
    (∀ src m, m.op < 4 → s.findCell (if m.phys then m.ctx else s.physCtx 0 m.ctx) m.vid = none →
      ∃ t, exec (.remoteSyncOp src m) s = .next t ∧ t.cells = s.cells ∧ t.get SYN_EVENT.UNKNOWN = 1 ∧
        (s.dieCoord src = none → Same [.regs, .ras] s t ∧ Raised (unitId 6 0xFFF) s t) ∧
        (∀ co, s.dieCoord src = some co → Sends s t co 0x20 [0] (s.syncBody { op := 6, tag := m.tag, phys := m.phys, ctx := m.ctx, vid := m.vid,
                                                                              count := 1, req := m.req, cell := 0, gen := 0, reason := 6, flag := false }))) ∧
    (∀ src m, (m.op < 4 ∨ 6 < m.op → exec (.syncAnswer src m) s = .next s) ∧
      ((∀ w ∈ s.waits, w.on ≠ .far src m.phys m.ctx m.vid) → exec (.syncAnswer src m) s = .next s) ∧
      (∀ w, s.waits = [w] → w.on = .far src m.phys m.ctx m.vid →
        (m.op = 4 ∧ m.req = w.req ∧ m.tag % 4 = w.tag % 4 ∨ m.op = 5 ∧ (m.flag = true ∨ 2 ≤ (w.tag + 4 - m.gen % 4) % 4) →
          ∃ t, exec (.syncAnswer src m) s = .next t ∧ t.waits = [] ∧
            (w.slot = 9 → ∀ p, s.phys (w.req % 1024) = some p → Same [.regs, .benches, .waits] s t ∧ WaitPassed p w.key s t) ∧
            (∀ o, w.slot ≤ 8 → s.slot w.slot = [o] → SlotEnds w.slot 1 s t)) ∧
        (m.op = 4 ∧ (m.req ≠ w.req ∨ m.tag % 4 ≠ w.tag % 4) ∨ m.op = 5 ∧ m.flag = false ∧ (w.tag + 4 - m.gen % 4) % 4 < 2 ∨
            m.op = 6 ∧ (m.req ≠ w.req ∨ m.reason ≠ 6 ∧ w.op ≠ 2) → exec (.syncAnswer src m) s = .next s) ∧
        (m.op = 6 ∧ m.req = w.req ∧ (m.reason = 6 ∨ w.op = 2) →
          (w.slot = 9 → ∃ t, exec (.syncAnswer src m) s = .next t ∧ Same [.waits] s t ∧ t.waits = [{ w with on := .nothing }]) ∧
          (∀ o, w.slot ≤ 8 → s.slot w.slot = [o] → ∃ t, exec (.syncAnswer src m) s = .next t ∧ t.waits = [] ∧ SlotEnds w.slot 3 s t)))) ∧
    (∀ req, (∀ w ∈ s.waits, w.req = req → w.told = true ∨ s.now < w.stamp + s.get SYN_TIMEOUT.TICKS) →
      exec (.syncWaitTimeout req) s = .next s) ∧
    (∀ w, s.waits = [w] → w.told = false → w.stamp + s.get SYN_TIMEOUT.TICKS ≤ s.now →
      (w.slot = 9 →
        ∃ t, exec (.syncWaitTimeout w.req) s = .next t ∧ Same [.regs, .ras, .waits] s t ∧ t.waits = [{ w with told := true }] ∧
          t.get SYN_EVENT.TIMEOUT = 1 ∧ t.get SYN_ERR_COUNT.TIMEOUTS = min 65535 (s.get SYN_ERR_COUNT.TIMEOUTS + 1) ∧
          Raised (unitId 6 (w.cell.getD 0xFFF)) s t) ∧
      (∀ o, w.slot ≤ 8 → s.slot w.slot = [o] →
        ∃ t, exec (.syncWaitTimeout w.req) s = .next t ∧ t.waits = [] ∧ SlotEnds w.slot 2 s t ∧ t.get SYN_EVENT.TIMEOUT = 1 ∧
          Raised (unitId 6 (w.cell.getD 0xFFF)) s t ∧
          ∀ cell, w.on = .cell cell → t.cell cell = if w.placed then { s.cell cell with waiters := (s.cell cell).waiters - 1 } else s.cell cell)) ∧
    (∀ x, 16 ≤ x → exec (.synCtxClear iss x) s = .next s) ∧
    (∀ x < 16,
      (s.on FAB_STATUS.IDLE = false →
        ∃ t, exec (.synCtxClear iss x) s = .next t ∧ Same [.regs, .ras] s t ∧ t.get SYN_EVENT.REFUSED = 1 ∧ Raised (unitId 8 0xFFF) s t) ∧
      (s.on FAB_STATUS.IDLE = true → SMap.wf (fun _ => {}) s.cells = true → SMap.wf (fun _ => {}) s.benches = true →
        ∃ t, exec (.synCtxClear iss x) s = .next t ∧
          (∀ c, t.cell c = if (s.cell c).ctx = x then (s.cell c).wipe else s.cell c) ∧
          (∀ p k, k < 2 ^ 32 → k / 2 ^ 16 % 16 = x → SMap.get (t.bench p).tagA 0 k = 0 ∧ SMap.get (t.bench p).tagW 0 k = 0) ∧
          (∀ n o, n ≤ 8 → n ∈ s.slotsOn (s.inCtx [x]) → s.slot n = [o] → SlotEnds n 4 s t))) ∧
    (∀ cell < 4096, ∀ c, c = s.cell cell → c.ctx < 16 → c.vid < 65536 → c.n < 8192 → c.gen < 65536 → c.waiters < 8192 → c.next < 8192 →
      c.count < 8192 → c.setLost < 65536 → c.remote < 65536 → c.last < 65536 →
      ∃ t, exec (.synDbgSelWrite iss cell) s = .next t ∧ Same [.regs] s t ∧
        RegsBut (fun o => o ∈ [SYN_DBG_SEL.reg, SYN_DBG_KEY.reg, SYN_DBG_STATE.reg, SYN_DBG_LAST.reg]) s t ∧
        t.get SYN_DBG_SEL.CELL = cell ∧ t.get SYN_DBG_KEY.VALID = b2n c.valid ∧ t.get SYN_DBG_KEY.MODE = b2n c.barrier ∧
        t.get SYN_DBG_KEY.N = c.n ∧ t.get SYN_DBG_KEY.CTX = c.ctx ∧ t.get SYN_DBG_KEY.VID = c.vid ∧ t.get SYN_DBG_STATE.GEN = c.gen ∧
        t.get SYN_DBG_STATE.WAITERS = c.waiters ∧ t.get SYN_DBG_STATE.NEXT = c.next ∧ t.get SYN_DBG_STATE.COUNT = c.count ∧
        t.get SYN_DBG_LAST.SET_LOST = c.setLost ∧ t.get SYN_DBG_LAST.REMOTE = c.remote ∧ t.get SYN_DBG_LAST.LAST = c.last) ∧
    (∀ ctx vid, ctx < 16 → vid < 65536 →
      (s.findCell ctx vid = none →
        ∃ t, exec (.synDbgFind iss ctx vid) s = .next t ∧ Same [.regs] s t ∧ RegsBut (· = SYN_DBG_SEL.reg) s t ∧
          t.get SYN_DBG_SEL.MISS = 1) ∧
      (∀ cell < 4096, s.findCell ctx vid = some cell →
        ∃ t, exec (.synDbgFind iss ctx vid) s = .next t ∧ Same [.regs] s t ∧ t.get SYN_DBG_SEL.MISS = 0 ∧ t.get SYN_DBG_SEL.CELL = cell))

/-- ETH_FRAME, ARP_ND, ETH_PORT_UP, ETH_PORT_DOWN and COMMAND_COPY (R363 to R370, R373 to R376, R390, R394, R398, R445): a frame that fails
a check is dropped and counted; a copy is judged in the order of R376 and answered with its status, and a command is journaled once: a
second copy of it adds no record. -/
def Obligations.CommandCopies : Prop :=
  ∀ s : State, s.live →
    (∀ e l good, 8 ≤ e ∨ s.ethUp e = false ∨ s.sec.warming = true → exec (.ethFrame e l good) s = .next s) ∧
    (∀ e l good, e < 8 → s.ethUp e = true → s.sec.warming = false →
      (good = false ∨ l.length < 60 ∨ s.maxFrame < l.length + 4 ∨ s.untag e l = none →
        ∃ t, exec (.ethFrame e l good) s = .next t ∧ Same [.regs] s t ∧ RegsBut (· = HST_PORT_STATS.reg e) s t ∧
          t.get (HST_PORT_STATS.RX_DROPPED e) = min (2 ^ 32 - 1) (s.get (HST_PORT_STATS.RX_DROPPED e) + 1)) ∧
      (good = true → 60 ≤ l.length → l.length + 4 ≤ s.maxFrame → ∀ o type, s.untag e l = some (o, type) →
        (isDesk type (l.drop o) = true →
          ∃ t, exec (.ethFrame e l good) s = .next t ∧ Same [.hst] s t ∧ t.hst = { s.hst with rxDesk := s.hst.rxDesk ++ [(e, l)] }) ∧
        (isDesk type (l.drop o) = false → l.take 6 ≠ s.portMac e ∨ s.datagram e type (l.drop o) = none →
          ∃ t, exec (.ethFrame e l good) s = .next t ∧ Same [.regs] s t ∧ RegsBut (· = HST_PORT_STATS.reg e) s t ∧
            t.get (HST_PORT_STATS.RX_DROPPED e) = min (2 ^ 32 - 1) (s.get (HST_PORT_STATS.RX_DROPPED e) + 1)) ∧
        (isDesk type (l.drop o) = false → l.take 6 = s.portMac e → ∀ v6 src port pay,
          s.datagram e type (l.drop o) = some (v6, src, port, pay) →
          (s.filterOk (netOf e) v6 src = true →
            ∃ t, exec (.ethFrame e l good) s = .next t ∧ Same [.regs, .hst] s t ∧
              t.hst = { s.hst with rxBct := s.hst.rxBct ++ [⟨e, pay, ⟨src, port⟩⟩] } ∧
              t.get (HST_PORT_STATS.RX_BCT e) = min (2 ^ 32 - 1) (s.get (HST_PORT_STATS.RX_BCT e) + 1)) ∧
          (s.filterOk (netOf e) v6 src = false →
            ∃ t, exec (.ethFrame e l good) s = .next t ∧ Same [.regs] s t ∧ t.get HST_EVENT.FILTERED = 1 ∧
              t.get (HST_PORT_STATS.RX_DROPPED e) = min (2 ^ 32 - 1) (s.get (HST_PORT_STATS.RX_DROPPED e) + 1) ∧
              t.get HST_DROPS.FILTERED = min 65535 (s.get HST_DROPS.FILTERED + 1))))) ∧
    (∀ e l, 8 ≤ e ∨ s.ethUp e = false ∨ s.sec.warming = true ∨ s.untag e l = none →
      ∃ t, exec (.arpNd e l) s = .next t ∧ Same [.hst] s t ∧ t.hst = { s.hst with rxDesk := s.hst.rxDesk.erase (e, l) }) ∧
    (∀ e l p q, e < 8 → s.ethUp e = true → s.sec.warming = false → q = l.drop p →
      (s.untag e l = some (p, 0x806) → beAt q 0 2 = 1 → beAt q 2 2 = 0x800 → beAt q 4 2 = 0x604 → 28 ≤ q.length →
        ∃ t, exec (.arpNd e l) s = .next t ∧ Same [.hst] s t ∧ t.hst.rxDesk = s.hst.rxDesk.erase (e, l) ∧
          (beAt q 6 2 = 1 → s.get (HST_PORT_IPV4.V4_EN e) = 1 → (q.drop 24).take 4 = s.portIp4 e →
            t.hst.frames = s.hst.frames ++ [(e, s.frame e ((q.drop 8).take 6) 0x806 (s.arp e 2 ((q.drop 8).take 6) ((q.drop 14).take 4)))]) ∧
          (beAt q 6 2 ≠ 1 ∨ s.get (HST_PORT_IPV4.V4_EN e) = 0 ∨ (q.drop 24).take 4 ≠ s.portIp4 e → t.hst.frames = s.hst.frames) ∧
          (s.get (HST_PORT_IPV4.V4_EN e) = 1 ∧ (q.drop 24).take 4 = s.portIp4 e ∨ (s.neighbourMac (netOf e) ((q.drop 14).take 4)).isSome = true →
            (netOf e, (q.drop 14).take 4, leNat ((q.drop 8).take 6)) ∈ t.hst.neigh)) ∧
      (∀ icmp, s.untag e l = some (p, 0x86DD) → isDesk 0x86DD q = true → beAt q 7 1 = 255 → icmp = (q.drop 40).take (beAt q 4 2) → 24 ≤ icmp.length →
        icmp.length = beAt q 4 2 →
        onesSum ((q.drop 8).take 16 ++ (q.drop 24).take 16 ++ beBytes 4 icmp.length ++ beBytes 4 58 ++ icmp) = 65535 →
        ∃ t, exec (.arpNd e l) s = .next t ∧ Same [.hst] s t ∧ t.hst.rxDesk = s.hst.rxDesk.erase (e, l) ∧
          (beAt icmp 0 1 = 135 → s.get (HST_PORT_IPV4.V6_EN e) = 1 → (icmp.drop 8).take 16 = s.portIp6 e →
              (q.drop 8).take 16 ≠ List.replicate 16 0 →
            t.hst.frames = s.hst.frames ++ [(e, s.advert e 0x60000000 ((l.drop 6).take 6) ((q.drop 8).take 16))] ∧
            (beAt icmp 24 1 = 1 → (netOf e, (q.drop 8).take 16, leNat ((icmp.drop 26).take 6)) ∈ t.hst.neigh)) ∧
          (beAt icmp 0 1 = 136 → t.hst.frames = s.hst.frames ∧
            (beAt icmp 24 1 = 2 → (netOf e, (icmp.drop 8).take 16, leNat ((icmp.drop 26).take 6)) ∈ t.hst.neigh)))) ∧
    (∀ e, (8 ≤ e ∨ s.get (PWR_FN_CTRL.STATUS (144 + e)) ≠ 2 ∨ s.ethUp e = true → exec (.ethPortUp e) s = .next s) ∧
      (8 ≤ e ∨ s.ethUp e = false → exec (.ethPortDown e) s = .next s)) ∧
    (∀ e, e < 8 →
      (s.ethUp e = false → s.get (PWR_FN_CTRL.STATUS (144 + e)) = 2 →
        ∃ t, exec (.ethPortUp e) s = .next t ∧ Same [.regs, .hst] s t ∧ t.get (HST_PORT_STATUS.STATE e) = 2 ∧
          t.get (if e < 4 then HST_STATUS.NET_A else HST_STATUS.NET_B) = 1 ∧
          SMap.get t.hst.modes 1 e = s.get (HST_PORT_CFG.MODE e) ∧
          (s.get (HST_PORT_IPV4.V4_EN e) = 1 → (e, s.frame e bcastMac 0x806 (s.arp e 1 (List.replicate 6 0) (s.portIp4 e))) ∈ t.hst.frames) ∧
          (s.get (HST_PORT_IPV4.V6_EN e) = 1 → (e, s.advert e 0x20000000 (mcastMac allNodes) allNodes) ∈ t.hst.frames)) ∧
      (s.ethUp e = true →
        ∃ t, exec (.ethPortDown e) s = .next t ∧ Same [.regs, .ras, .sec] s t ∧ t.get (HST_PORT_STATUS.STATE e) = 3 ∧
          t.get (HST_PORT_STATUS.DOWNS e) = min 65535 (s.get (HST_PORT_STATUS.DOWNS e) + 1) ∧ Raised (unitId 4 e) s t ∧
          ((∀ k < 8, k ≠ e → k / 4 = e / 4 → s.ethUp k = false) →
            t.get (if e < 4 then HST_STATUS.NET_A else HST_STATUS.NET_B) = 0 ∧
            t.get (if e < 4 then HST_EVENT.NET_A_DOWN else HST_EVENT.NET_B_DOWN) = 1))) ∧
    (∀ cp : Copy, (8 ≤ cp.port → exec (.commandCopy cp) s = .next s) ∧
      (cp.port < 8 → s.sec.warming = true ∨ bctOk cp.payload = true ∧ s.get WRD_STATUS.IN_SERVICE = 1 ∧ s.bctOn = false →
        ∃ t, exec (.commandCopy cp) s = .next t ∧ Same [.hst] s t ∧ t.hst = { s.hst with rxBct := s.hst.rxBct.erase cp })) ∧
    (∀ cp : Copy, cp.port < 8 → s.sec.warming = false → s.ethUp cp.port = true →
      (bctOk cp.payload = false →
        ∃ t, exec (.commandCopy cp) s = .next t ∧ Same [.regs, .hst] s t ∧ t.hst = { s.hst with rxBct := s.hst.rxBct.erase cp } ∧
          t.get HST_EVENT.MALFORMED = 1 ∧ t.get HST_DROPS.MALFORMED = min 65535 (s.get HST_DROPS.MALFORMED + 1)) ∧
      (bctOk cp.payload = true → ∀ ch seq, ch = leAt cp.payload 4 2 → seq = leAt cp.payload 16 8 →
        (∀ status, status = 7 ∧ s.get WRD_STATUS.IN_SERVICE = 0 ∨
            status = 6 ∧ s.bctOn = true ∧ ((s.chan ch).isOpen = false ∨ (s.chan ch).session ≠ leAt cp.payload 8 4) →
          ∃ t pkt, exec (.commandCopy cp) s = .next t ∧ Same [.hst] s t ∧ t.hst.recs = s.hst.recs ∧ t.hst.chans = s.hst.chans ∧
            t.hst.sent = s.hst.sent ++ [⟨cp.port, cp.peer, pkt⟩] ∧ leAt pkt 3 1 = 1 ∧ leAt pkt 14 1 = status ∧
            leAt pkt 8 4 = (s.chan ch).session % 2 ^ 32) ∧
        (s.bctOn = true → (s.chan ch).isOpen = true → (s.chan ch).session = leAt cp.payload 8 4 →
          (∃ t, exec (.commandCopy cp) s = .next t ∧
            (t.chan ch).retire = max (s.chan ch).retire (min (leAt cp.payload 0x18 8) (s.chan ch).nextDone) ∧
            (t.chan ch).evAck = max (s.chan ch).evAck (min (leAt cp.payload 0x20 8) (s.chan ch).evNext)) ∧
          (leAt cp.payload 0x18 8 ≤ (s.chan ch).retire → leAt cp.payload 0x20 8 ≤ (s.chan ch).evAck →
            (∀ status, status = 3 ∧ seq < (s.chan ch).retire ∨
                status = 2 ∧ (s.chan ch).retire ≤ seq ∧ (seq < (s.chan ch).nextSeq ∨ seq ∈ (s.chan ch).window) ∧
                  (∀ x ∈ s.hst.heldAcks, x.1 = ch → x.2.1 ≠ seq) ∧ (∀ x, s.rec? ch seq = some x → x.st ≠ 3 ∨ x.sent = false) ∨
                status = 4 ∧ (s.chan ch).retire ≤ seq ∧ (s.chan ch).nextSeq + 256 ≤ seq ∧ seq ∉ (s.chan ch).window ∨
                status = 5 ∧ (s.chan ch).retire ≤ seq ∧ (s.chan ch).nextSeq ≤ seq ∧ seq < (s.chan ch).nextSeq + 256 ∧
                  seq ∉ (s.chan ch).window ∧
                  placeRec s.hst.recs.isEmpty (s.get HST_JOURNAL.HEAD) (s.get HST_JOURNAL.TAIL) (recLen cp.payload) = none →
              ∃ t pkt, exec (.commandCopy cp) s = .next t ∧ Same [.regs, .hst] s t ∧ t.hst.recs = s.hst.recs ∧
                t.hst.chans = s.hst.chans ∧ t.hst.sent = s.hst.sent ++ [⟨cp.port, cp.peer, pkt⟩] ∧ leAt pkt 3 1 = 1 ∧
                leAt pkt 14 1 = status ∧
                (status = 4 → t.get HST_DROPS.WINDOW = min 65535 (s.get HST_DROPS.WINDOW + 1)) ∧
                (status = 5 → t.get HST_EVENT.JOURNAL_FULL = 1 ∧ t.get HST_DROPS.BUSY = min 65535 (s.get HST_DROPS.BUSY + 1))) ∧
            ((s.chan ch).retire ≤ seq → seq < (s.chan ch).nextSeq ∨ seq ∈ (s.chan ch).window →
              ((∃ x ∈ s.hst.heldAcks, x.1 = ch ∧ x.2.1 = seq) →
                ∃ t, exec (.commandCopy cp) s = .next t ∧ Same [.hst] s t ∧ t.hst.sent = s.hst.sent ∧ t.hst.recs = s.hst.recs ∧
                  t.hst.heldAcks = s.hst.heldAcks ++ [(ch, seq, cp)]) ∧
              (∀ x, (∀ y ∈ s.hst.heldAcks, y.1 = ch → y.2.1 ≠ seq) → s.rec? ch seq = some x → x.st = 3 → x.sent = true →
                ∃ t a b, exec (.commandCopy cp) s = .next t ∧ Same [.hst] s t ∧ t.hst.recs = s.hst.recs ∧
                  t.hst.sent = s.hst.sent ++ [⟨cp.port, cp.peer, a⟩, ⟨cp.port, cp.peer, b⟩] ∧ leAt a 14 1 = 2 ∧
                  b = s.complPacket x (netOf cp.port) true)) ∧
            (∀ off, (s.chan ch).retire ≤ seq → (s.chan ch).nextSeq ≤ seq → seq < (s.chan ch).nextSeq + 256 → seq ∉ (s.chan ch).window →
              placeRec s.hst.recs.isEmpty (s.get HST_JOURNAL.HEAD) (s.get HST_JOURNAL.TAIL) (recLen cp.payload) = some off →
              s.get HST_STATUS.MIRROR = 1 ∨ s.get HST_BUDDY.VALID = 1 ∧ s.reaches (s.get HST_BUDDY.COORD) = true →
              ∃ t r, exec (.commandCopy cp) s = .next t ∧ t.hst.recs.length = s.hst.recs.length + 1 ∧
                t.hst.recs.getLast? = some r ∧ r.ch = ch ∧ r.seq = seq ∧ r.st = 1 ∧ r.off = off ∧ r.hdr = cp.payload.take 96 ∧
                r.body = cp.payload.drop 96 ∧ r.net = cp.port / 4 ∧
                ((s.chan ch).window = [] → seq = (s.chan ch).nextSeq → (t.chan ch).nextSeq = seq + 1 ∧ (t.chan ch).window = []) ∧
                ((s.chan ch).window = [] → (s.chan ch).nextSeq < seq → (t.chan ch).nextSeq = (s.chan ch).nextSeq ∧ (t.chan ch).window = [seq]) ∧
                (s.get HST_STATUS.MIRROR = 1 → t.hst.heldAcks = s.hst.heldAcks ∧
                  ∃ pkt, t.hst.sent = s.hst.sent ++ [⟨cp.port, cp.peer, pkt⟩] ∧ leAt pkt 14 1 = 1) ∧
                (s.get HST_STATUS.MIRROR ≠ 1 → t.hst.sent = s.hst.sent ∧ t.hst.heldAcks = s.hst.heldAcks ++ [(ch, seq, cp)]) ∧
                (s.get HST_STATUS.MIRROR = 0 → (∀ x ∈ s.hst.recs, x.ch = ch → x.seq ≠ seq) → r.mirrored = false ∧
                  t.hst.mirrorAt = s.hst.mirrorAt ++ [(ch, seq, s.now)] ∧
                  ∃ o ∈ t.remote, o.issuer = 0x43FE ∧ o.write = true ∧ o.addr = off)))))) ∧
    (∀ (cp cq : Copy) (t u : State), exec (.commandCopy cp) s = .next t → s.hst.recs.length < t.hst.recs.length →
      leAt cq.payload 4 2 = leAt cp.payload 4 2 → leAt cq.payload 16 8 = leAt cp.payload 16 8 →
      exec (.commandCopy cq) t = .next u → u.hst.recs.length ≤ t.hst.recs.length)

/-- MIRROR_WRITE_DONE, MIRROR_TIMEOUT, BUDDY_WRITE, REMIRROR_DONE, EVENT_RESEND, CH0_OPEN, TAKEOVER_GO, TAKEOVER_FETCH_DONE and
TAKEOVER_RESTORE_DONE (R320, R372, R373, R387, R393 to R395, R398, R483): an answer waits for the mirror, or for its loss; after a takeover
no command is left STARTED, and every completion held is given out. -/
def Obligations.MirrorAndTakeover : Prop :=
  ∀ (s : State) (iss : Issuer), s.live →
    (∀ ch seq, (∀ x ∈ s.hst.mirrorAt, x.1 ≠ ch ∨ x.2.1 ≠ seq) → exec (.mirrorWriteDone ch seq) s = .next s) ∧
    (∀ ch seq m, s.hst.mirrorAt.find? (fun x => x.1 == ch && x.2.1 == seq) = some (ch, seq, m) →
      ((∃ o ∈ s.remote, o.issuer = 0x43FE ∧ o.chan = some (ch, seq) ∧ o.stamp = m) → exec (.mirrorWriteDone ch seq) s = .next s) ∧
      ((∀ o ∈ s.remote, ¬ (o.issuer = 0x43FE ∧ o.chan = some (ch, seq) ∧ o.stamp = m)) →
        ∃ t, exec (.mirrorWriteDone ch seq) s = .next t ∧ Same [.hst] s t ∧ t.hst.mirrorAt = s.hst.mirrorAt.erase (ch, seq, m) ∧
          ((∃ x ∈ s.hst.mirrorAt.erase (ch, seq, m), x.1 = ch ∧ x.2.1 = seq) → t.hst.recs = s.hst.recs ∧ t.hst.sent = s.hst.sent) ∧
          ((∀ x ∈ s.hst.mirrorAt.erase (ch, seq, m), x.1 = ch → x.2.1 ≠ seq) →
            (∀ x ∈ t.hst.recs, x.ch = ch → x.seq = seq → x.mirrored = true) ∧ (∀ x ∈ t.hst.heldAcks, x.1 = ch → x.2.1 ≠ seq) ∧
            (∀ cp, (ch, seq, cp) ∈ s.hst.heldAcks → s.ethUp cp.port = true → ∃ pkt, ⟨cp.port, cp.peer, pkt⟩ ∈ t.hst.sent ∧ leAt pkt 14 1 = 0) ∧
            (∀ r, s.hst.recs = [r] → r.ch = ch → r.seq = seq → r.st = 3 → r.seq < (s.chan ch).nextDone → s.bctOn = true →
              ∃ x, t.hst.recs = [x] ∧ x.sent = true)))) ∧
    (s.get HST_STATUS.MIRROR = 1 ∨ (∀ x ∈ s.hst.mirrorAt, s.now < x.2.2 + s.get HST_MIRROR_CTRL.TIMEOUT) ∧
        (∀ o ∈ s.remote, o.issuer = 0x43FE → o.write = true → s.now < o.stamp + s.get HST_MIRROR_CTRL.TIMEOUT) →
      exec .mirrorTimeout s = .next s) ∧
    (s.get HST_STATUS.MIRROR ≠ 1 → (∃ x ∈ s.hst.mirrorAt, x.2.2 + s.get HST_MIRROR_CTRL.TIMEOUT ≤ s.now) ∨
        (∃ o ∈ s.remote, o.issuer = 0x43FE ∧ o.write = true ∧ o.stamp + s.get HST_MIRROR_CTRL.TIMEOUT ≤ s.now) →
      ∃ t, exec .mirrorTimeout s = .next t ∧ Same [.regs, .ras, .hst, .remote] s t ∧ t.get HST_STATUS.MIRROR = 1 ∧
        t.get HST_EVENT.MIRROR_LOST = 1 ∧ t.hst.mirrorAt = [] ∧ t.hst.heldAcks = [] ∧ (∀ x ∈ t.hst.recs, x.mirrored = true) ∧
        (∀ o ∈ t.remote, o.issuer ≠ 0x43FE ∨ o.write = false) ∧ Raised (unitId 8 0xFFF) s t ∧
        ∀ ch seq cp, (ch, seq, cp) ∈ s.hst.heldAcks → s.ethUp cp.port = true → ∃ pkt, ⟨cp.port, cp.peer, pkt⟩ ∈ t.hst.sent ∧ leAt pkt 14 1 = 1) ∧
    (∀ v : Word, (fget v 63 63 = 1 → s.reaches (fget v 14 0) = true →
        ∃ t, exec (.buddyWrite iss v) s = .next t ∧ t.get HST_STATUS.MIRROR = 2 ∧ t.get HST_BUDDY.VALID = 1 ∧
          t.get HST_BUDDY.COORD = fget v 14 0 ∧ t.hst.mirrorAt = [] ∧ (∀ x ∈ t.hst.recs, x.mirrored = true) ∧
          (∃ o ∈ t.remote, o.issuer = 0x43FE ∧ o.write = true ∧ o.addr = 0) ∧ ∃ o ∈ t.remote, o.issuer = 0x43FE ∧ o.write = true ∧ o.addr = 0x1000) ∧
      (fget v 63 63 = 1 → s.reaches (fget v 14 0) = false →
        ∃ t, exec (.buddyWrite iss v) s = .next t ∧ t.get HST_STATUS.MIRROR = 1 ∧ t.get HST_BUDDY.VALID = 1 ∧ t.get WRD_EVENT.REMOTE_ERROR = 1 ∧
          t.hst.heldAcks = []) ∧
      (fget v 63 63 = 0 →
        ∃ t, exec (.buddyWrite iss v) s = .next t ∧ t.get HST_STATUS.MIRROR = 1 ∧ t.get HST_BUDDY.VALID = 0 ∧ t.hst.heldAcks = [] ∧
          (s.get HST_STATUS.MIRROR ≠ 1 → t.get HST_EVENT.MIRROR_LOST = 1 ∧ Raised (unitId 8 0xFFF) s t))) ∧
    (s.get HST_STATUS.MIRROR = 2 → (∀ o ∈ s.remote, o.issuer ≠ 0x43FE ∨ o.write = false) →
      ∃ t, exec .remirrorDone s = .next t ∧ Same [.regs, .hst] s t ∧ RegsBut (· = HST_STATUS.reg) s t ∧ t.get HST_STATUS.MIRROR = 0 ∧
        t.hst.heldAcks = [] ∧
        ∀ ch seq cp, (ch, seq, cp) ∈ s.hst.heldAcks → s.ethUp cp.port = true → ∃ pkt, ⟨cp.port, cp.peer, pkt⟩ ∈ t.hst.sent ∧ leAt pkt 14 1 = 0) ∧
    (s.get HST_STATUS.MIRROR ≠ 2 ∨ (∃ o ∈ s.remote, o.issuer = 0x43FE ∧ o.write = true) → exec .remirrorDone s = .next s) ∧
    (∀ ch, ((s.chan ch).isOpen = false ∨ s.bctOn = false → exec (.eventResend ch) s = .next s) ∧
      ((s.chan ch).isOpen = true → s.bctOn = true →
        ∃ t, exec (.eventResend ch) s = .next t ∧ Same [.hst] s t ∧
          t.chan ch = { s.chan ch with evs := (s.chan ch).evs.map (fun e =>
            if e.sent + s.get HST_EVENT_CTRL.RESEND ≤ s.now then { e with sent := s.now } else e) } ∧
          t.hst.sent.length = s.hst.sent.length +
            (s.chan ch).evs.countP (fun e => decide (e.sent + s.get HST_EVENT_CTRL.RESEND ≤ s.now)) * (b2n (s.lowUp 0).isSome + b2n (s.lowUp 1).isSome) ∧
          ∀ e ∈ (s.chan ch).evs, e.sent + s.get HST_EVENT_CTRL.RESEND ≤ s.now → ∀ net < 2, ∀ p, s.lowUp net = some p →
            ∃ o ∈ t.hst.sent, o.port = p ∧ o.dest = (s.chan ch).host net ∧ leAt o.payload 3 1 = 3 ∧ leAt o.payload 16 8 = e.num % 2 ^ 64)) ∧
    (s.get WRD_STATUS.IN_SERVICE = 1 → (s.chan 0).isOpen = false →
      ∃ t, exec (.ch0Open iss) s = .next t ∧ (t.chan 0).isOpen = true ∧ (t.chan 0).session = s.get HST_CH0_CFG.SESSION ∧
        (t.chan 0).nextSeq = 0 ∧ (t.chan 0).nextDone = 0 ∧ (t.chan 0).retire = 0 ∧ (t.chan 0).window = [] ∧ (t.chan 0).evs = [] ∧
        t.get HST_CH0_CFG.OPEN = 1) ∧
    (s.get WRD_STATUS.IN_SERVICE = 0 ∨ (s.chan 0).isOpen = true →
      ∃ t, exec (.ch0Open iss) s = .next t ∧ Same [.regs, .ras] s t ∧ RegsBut (regsOf 13) s t ∧ Raised (unitId 8 0xFFF) s t) ∧
    (s.bctOn = true →
      ∃ t, exec (.takeoverGo iss) s = .next t ∧ t.get HST_TAKEOVER.STATE = 1 ∧ t.get MGT_ROLE.ROLE = 1 ∧
        (s.reaches (s.get HST_BUDDY.COORD) = true → ∃ o, t.remote = s.remote ++ [o] ∧ o.issuer = 0x43FE ∧ o.write = false ∧ o.addr = 0 ∧ o.bytes = 4096) ∧
        (s.reaches (s.get HST_BUDDY.COORD) = false → t.remote = s.remote ∧ t.get WRD_EVENT.REMOTE_ERROR = 1)) ∧
    (s.bctOn = false → exec (.takeoverGo iss) s = .next s) ∧
    (∀ table log head tail,
      (s.get HST_TAKEOVER.STATE ≠ 1 ∨ (∃ o ∈ s.remote, o.issuer = 0x43FE ∧ o.write = false) →
        exec (.takeoverFetchDone table log head tail) s = .next s) ∧
      (s.get HST_TAKEOVER.STATE = 1 → (∀ o ∈ s.remote, o.issuer ≠ 0x43FE ∨ o.write = true) →
        ∃ t, exec (.takeoverFetchDone table log head tail) s = .next t ∧ t.get HST_TAKEOVER.STATE = 2 ∧
          t.get HST_STATUS.MIRROR = (if s.reaches (s.get HST_BUDDY.COORD) then 2 else 1) ∧
          (∀ x ∈ t.hst.recs, x.st ≠ 2 ∧ ¬ (x.st = 1 ∧ x.op = 0x10)) ∧
          (∀ c < 1024, (t.chan c).isOpen = (leAt ((table.drop (128 * c)).take 128) 0 1 == 1)) ∧
          (s.get HST_BUDDY.VALID = 1 → s.reaches (s.get HST_BUDDY.COORD) = true → t.ckp.restore = some none ∧ t.get CKP_STATUS.PHASE = 5))) ∧
    (s.get HST_TAKEOVER.STATE = 2 → s.ckp.restore = none →
      ∃ t, exec .takeoverRestoreDone s = .next t ∧ t.get HST_TAKEOVER.STATE = 3 ∧ t.get HST_EVENT.TAKEOVER_DONE = 1 ∧
        ∀ x ∈ t.hst.recs, x.st = 3 → x.sent = true) ∧
    (s.get HST_TAKEOVER.STATE ≠ 2 ∨ s.ckp.restore.isSome = true → exec .takeoverRestoreDone s = .next s)

/-- The commands of Table 13.4 but SNAPSHOT, RESTORE, QUOTE and AUTHORIZE, and CH_CLOSE_FINISH (R69, R74, R270, R349, R374, R378, R380 to R385,
R392, R394): each is performed when its predecessor has completed and its record stands, and completes with the status of Table 13.5; one
with a reserved opcode or bad arguments is performed as nothing; a closing channel closes once each of its commands has completed and
stands in the mirror. -/
def Obligations.ChannelCommands : Prop :=
  (∀ (s : State) (ch : Nat) (r : JRec), s.live →
     (∀ row ∈ [Instr.bctNop ch, .chOpen ch, .chClose ch, .run ch, .bctAbort ch, .bctLoad ch, .bctMemRead ch, .bctMemWrite ch, .queuePush ch,
         .bctSync ch, .bctReservedOpcode ch],
       (∀ x ∈ s.hst.recs, x.ch = ch → x.st = 2 → x.begun = true) → (∀ x, s.headRec ch = some x → s.mayStart ch x = false) →
         exec row s = .next s) ∧
     (∀ op row, (op, row) ∈ [(0x00, Instr.bctNop ch), (0x01, .chOpen ch), (0x02, .chClose ch), (0x11, .bctAbort ch), (0x12, .bctLoad ch),
         (0x20, .queuePush ch), (0x28, .bctSync ch)] →
       s.headRec ch = some r → r.op = op → s.mayStart ch r = true → (∀ x ∈ s.hst.recs, x.ch = ch → x.st = 2 → x.begun = true) →
       s.get HST_STATUS.MIRROR = 0 → s.get HST_BUDDY.VALID = 1 → s.reaches (s.get HST_BUDDY.COORD) = true → 0 < r.len →
       ∃ t x, exec row s = .next t ∧ t.rec? ch r.seq = some x ∧ x.st = 2 ∧ x.begun = r.begun ∧ x.mirrored = false ∧
         (ch, r.seq, s.now) ∈ t.hst.mirrorAt ∧ (t.chan ch).nextStart = r.seq + 1 ∧ ∃ o ∈ t.remote, o.issuer = 0x43FE ∧ o.write = true ∧ o.addr = r.off) ∧
     (s.hst.recs = [r] → r.ch = ch → r.st = 2 → r.begun = false → r.mirrored = true → s.bctOn = true → r.op = 0 → r.zeros [(0, 48)] = true →
       r.body = [] → ∃ t, exec (.bctNop ch) s = .next t ∧ Finished ch r.seq 0 t) ∧
     (Ready s ch r →
       (∀ op row, (op, row) ∈ [(0x00, Instr.bctNop ch), (0x01, .chOpen ch), (0x02, .chClose ch), (0x10, .run ch), (0x11, .bctAbort ch),
           (0x12, .bctLoad ch), (0x18, .bctMemRead ch), (0x19, .bctMemWrite ch), (0x20, .queuePush ch), (0x28, .bctSync ch)] →
         (r.op ≠ op → exec row s = .next s) ∧
         (r.op = op → r.arg 40 8 ≠ 0 → (op = 0x10 → s.runWaits (r.arg 0 1) = false ∧ s.runTurn ch = true) →
             (op = 0x18 ∨ op = 0x19 → s.mustWait (op == 0x19) (r.arg 0 8) (r.arg 8 2) = false) →
           ∃ t, exec row s = .next t ∧ Same [.hst, .freeCtr] s t ∧ Ended r 0x36 t)) ∧
       (r.op ∉ bctOps → ∃ t, exec (.bctReservedOpcode ch) s = .next t ∧ Same [.hst, .freeCtr] s t ∧ Ended r 0x35 t) ∧
       (r.op ∈ bctOps → exec (.bctReservedOpcode ch) s = .next s) ∧
       (r.op = 0 → r.zeros [(0, 48)] = true →
         (r.body = [] → ∃ t, exec (.bctNop ch) s = .next t ∧ Same [.hst, .freeCtr] s t ∧ Ended r 0 t) ∧
         (r.body ≠ [] → ∃ t, exec (.bctNop ch) s = .next t ∧ Same [.hst, .freeCtr] s t ∧ Ended r 0x37 t)) ∧
       (r.op = 1 →
         (r.zeros [(3, 1), (6, 2), (12, 4), (0x18, 24)] = false ∨ 4 ≤ r.arg 2 1 ∨ ch ≠ 0 ∨ r.arg 0 2 = 0 ∨ 1024 ≤ r.arg 0 2 ∨
             (s.chan (r.arg 0 2)).isOpen = true →
           ∃ t, exec (.chOpen ch) s = .next t ∧ Same [.hst, .freeCtr] s t ∧ Ended r 0x36 t) ∧
         (r.zeros [(3, 1), (6, 2), (12, 4), (0x18, 24)] = true → r.arg 2 1 < 4 → ch = 0 → 0 < r.arg 0 2 → r.arg 0 2 < 1024 →
             (s.chan (r.arg 0 2)).isOpen = false →
           (r.body.length ≠ 32 → ∃ t, exec (.chOpen ch) s = .next t ∧ Same [.hst, .freeCtr] s t ∧ Ended r 0x37 t) ∧
           (r.body.length = 32 →
             ∃ t c, exec (.chOpen ch) s = .next t ∧ Ended r 0 t ∧ t.chan (r.arg 0 2) = c ∧ c.isOpen = true ∧ c.session = r.arg 8 4 ∧
               c.hostUdp = r.arg 4 2 ∧ c.addrA = r.body.take 16 ∧ c.addrB = r.body.drop 16 ∧ c.ipv6 = bit (r.arg 2 1) 0 ∧
               c.events = bit (r.arg 2 1) 1 ∧ c.nextSeq = r.arg 0x10 8 ∧ c.nextStart = c.nextSeq ∧ c.nextDone = c.nextSeq ∧
               c.retire = c.nextSeq ∧ c.evNext = 0 ∧ c.window = []))) ∧
       (r.op = 2 →
         (r.zeros [(2, 46)] = false ∨ ch ≠ 0 ∨ r.arg 0 2 = 0 ∨ 1024 ≤ r.arg 0 2 ∨ (s.chan (r.arg 0 2)).isOpen = false →
           ∃ t, exec (.chClose ch) s = .next t ∧ Same [.hst, .freeCtr] s t ∧ Ended r 0x36 t) ∧
         (r.zeros [(2, 46)] = true → ch = 0 → 0 < r.arg 0 2 → r.arg 0 2 < 1024 → r.body = [] → (s.chan (r.arg 0 2)).isOpen = true →
           (s.hst.recs.map (fun x => (x.ch, x.seq))).Nodup →
           ∃ t, exec (.chClose ch) s = .next t ∧ (t.chan (r.arg 0 2)).closing = some (0, r.seq) ∧ (t.chan (r.arg 0 2)).isOpen = true ∧
             (∃ x ∈ t.hst.recs, x.ch = 0 ∧ x.seq = r.seq ∧ x.st = 2) ∧
             ∀ x ∈ s.hst.recs, x.ch = r.arg 0 2 → x.st = 1 → Finished x.ch x.seq 0x3D t)) ∧
       (r.op = 0x10 → s.runWaits (r.arg 0 1) = true ∨ s.runTurn ch = false → exec (.run ch) s = .next s) ∧
       (r.op = 0x10 → r.zeros [(3, 1), (0x18, 24)] = true → r.arg 0 1 < 4 → r.arg 1 1 < 4 → r.arg 0x14 4 % 64 = 0 → r.body = [] →
         s.runWaits (r.arg 0 1) = false → s.runTurn ch = true →
         (∀ code, s.runCheck (s.runOf r) = some code →
           ∃ t, exec (.run ch) s = .next t ∧ Same [.hst, .freeCtr] s t ∧ Ended r code t) ∧
         (s.runCheck (s.runOf r) = none →
           (r.arg 0 1 = s.active → s.shPending = false → s.mapPending = false → s.ckp.want = none → s.replay = false →
               s.fab.phase = .idle ∨ s.fab.phase = .running ∧ s.fab.aborting = false →
             ∃ t m, exec (.run ch) s = .next t ∧ t.fab.phase = .running ∧ t.fab.micros.length = s.fab.micros.length + 1 ∧
               t.fab.micros.getLast? = some m ∧ m.run.drawer = r.arg 0 1 ∧
               m.run.step = r.arg 4 4 ∧ m.run.mb = r.arg 8 4 ∧ m.run.tokens = r.arg 0xC 4 ∧ m.run.chan = ch ∧ m.run.seq = r.seq ∧
               t.get FAB_STATUS.IDLE = 0 ∧ t.hst.rrLast = some ch) ∧
           (r.arg 0 1 ≠ s.active → s.fab.phase = .idle → s.shPending = false → s.mapPending = false → s.ckp.want = none →
               s.fab.clears = [] → s.fab.reenc = [] →
             ∃ t, exec (.run ch) s = .next t ∧ t.fab.phase = .flipping ∧ t.fab.next = some (s.runOf r) ∧
               t.get FAB_STATUS.SWAP_PENDING = 1 ∧ t.get FAB_STATUS.NEXT_DRAWER = r.arg 0 1 ∧ t.get FAB_STATUS.IDLE = 0) ∧
           (s.fab.phase ≠ .idle ∨ s.shPending = true ∨ s.mapPending = true ∨ s.ckp.want.isSome = true →
               s.fab.phase ≠ .running ∨ s.fab.aborting = true ∨ r.arg 0 1 ≠ s.active ∨ s.shPending = true ∨ s.mapPending = true ∨
                 s.ckp.want.isSome = true →
             ∃ t, exec (.run ch) s = .next t ∧ t.fab.phase = s.fab.phase ∧ t.fab.next = some (s.runOf r) ∧ t.fab.micros = s.fab.micros ∧
               t.get FAB_STATUS.IDLE = 0 ∧ t.hst.recs = (s.begin r).hst.recs ∧
               (r.arg 0 1 ≠ s.active → t.get FAB_STATUS.SWAP_PENDING = 1 ∧ t.get FAB_STATUS.NEXT_DRAWER = r.arg 0 1)))) ∧
       (r.op = 0x11 → r.zeros [(0, 48)] = true → r.body = [] →
         (s.fab.aborting = false → s.idle = true → ∃ t, exec (.bctAbort ch) s = .next t ∧ Same [.hst, .freeCtr] s t ∧ Ended r 0 t) ∧
         (∀ x y, s.fab.aborting = false → s.fab.micros = [] → s.fab.next = some x → s.rec? x.chan x.seq = some y → y.st = 2 →
             x.chan ≠ ch ∨ x.seq ≠ r.seq →
           ∃ t, exec (.bctAbort ch) s = .next t ∧ t.fab.next = none ∧ t.get FAB_STATUS.SWAP_PENDING = 0 ∧ Ended r 0 t ∧
             Finished x.chan x.seq 0x30 t) ∧
         (s.fab.aborting = true ∨ s.fab.micros ≠ [] →
           ∃ t, exec (.bctAbort ch) s = .next t ∧ t.fab.aborting = true ∧ t.fab.abortChan = s.fab.abortChan ++ [(ch, r.seq)] ∧
             (s.fab.aborting = false → t.get FAB_CTRL.ABORT = 1))) ∧
       (r.op = 0x12 → r.zeros [(9, 39)] = true → r.arg 8 1 < 2 → r.body = [] →
         (s.load.isSome = true → ∃ t, exec (.bctLoad ch) s = .next t ∧ t.load = s.load ∧ t.get FAB_LOAD_STATUS.REASON = 0x16 ∧ Ended r 0x16 t) ∧
         (∀ l : Load, l = { staged := r.arg 8 1 == 1, addr := r.arg 0 8, chan := some (ch, r.seq) } → s.load = none →
           (∀ x, s.check23 l = some x →
             ∃ t, exec (.bctLoad ch) s = .next t ∧ t.load = none ∧ t.get FAB_LOAD_STATUS.STATE = 6 ∧ Ended r x.1 t) ∧
           (∀ x, s.check23 l = none → s.check45 l = some x →
             ∃ t, exec (.bctLoad ch) s = .next t ∧ t.load = none ∧ t.get FAB_LOAD_STATUS.STATE = 6 ∧ Ended r x.1 t) ∧
           (s.check23 l = none → s.check45 l = none →
             ∃ t, exec (.bctLoad ch) s = .next t ∧ t.load = some l ∧ t.get FAB_LOAD_STATUS.STATE = 1 ∧ t.get FAB_LOAD_CTRL.GO = 1 ∧
               t.get FAB_LOAD_CTRL.MODE = r.arg 8 1 ∧ t.hst.recs = (s.begin r).hst.recs))) ∧
       (∀ row w, row = .bctMemRead ch ∧ r.op = 0x18 ∧ w = false ∨ row = .bctMemWrite ch ∧ r.op = 0x19 ∧ w = true →
           (r.zeros [(10, 38)] = false ∨ 2 ^ 52 ≤ r.arg 0 8 → ∃ t, exec row s = .next t ∧ Same [.hst, .freeCtr] s t ∧ Ended r 0x36 t) ∧
           (r.zeros [(10, 38)] = true → r.arg 0 8 < 2 ^ 52 → ∀ a n die, a = r.arg 0 8 → n = r.arg 8 2 → die = s.boardPlace a →
             (n = 0 ∨ s.bodyMax < n ∨ w = false ∧ r.body ≠ [] ∨ w = true ∧ r.body.length ≠ n →
               ∃ t, exec row s = .next t ∧ Same [.hst, .freeCtr] s t ∧ Ended r 0x37 t) ∧
             (1 ≤ n → n ≤ s.bodyMax → (w = false → r.body = []) → (w = true → r.body.length = n) → s.mustWait w a n = true → exec row s = .next s) ∧
             (1 ≤ n → n ≤ s.bodyMax → (w = false → r.body = []) → (w = true → r.body.length = n) → s.mustWait w a n = false → r.prog = 0 → r.data = [] →
               (regMisfit a n = true → ∃ t, exec row s = .next t ∧ Same [.hst, .freeCtr] s t ∧ Ended r 0x32 t) ∧
               (regMisfit a n = false →
                 (die = none → ∃ t, exec row s = .next t ∧ Same [.hst, .freeCtr] s t ∧ Ended r 0x31 t) ∧
                 (∀ d c, die = some d → d ≠ 16 → s.dieCoord d = some c →
                   (s.reaches c = false → ∃ t, exec row s = .next t ∧ t.get WRD_EVENT.REMOTE_ERROR = 1 ∧ Ended r 0x31 t) ∧
                   (s.reaches c = true → ∃ t o, exec row s = .next t ∧ t.remote = s.remote ++ [o] ∧ o.write = w ∧ o.die = d ∧
                     o.addr = a % 2 ^ 48 ∧ o.bytes = min n (min 256 (512 - a % 512)) ∧ o.chan = some (ch, r.seq) ∧ o.stamp = s.now ∧
                     t.hst.recs = (s.begin r).hst.recs)) ∧
                 (die = some 16 → a % 512 + n ≤ 512 → n ≤ 256 → ∀ x u, x = a % 2 ^ 48 → u = s.begin r → x < regBase →
                   (w = false → u.fetch false none x n = none → ∃ t, exec row s = .next t ∧ Same [.hst, .freeCtr] s t ∧ Ended r 0x31 t) ∧
                   (∀ l v, w = false → u.fetch false none x n = some (l, v) →
                     ∃ t, exec row s = .next t ∧ Same [.hst, .freeCtr] v t ∧ EndedAs r (fun y => y.status = 0 ∧ y.cbody = l) t) ∧
                   (w = true → x < spBase → u.store false x r.body = none →
                     ∃ t, exec row s = .next t ∧ Same [.hst, .freeCtr] s t ∧ Ended r 0x31 t) ∧
                   (w = true → qstBase ≤ x → ∃ t, exec row s = .next t ∧ Same [.hst, .freeCtr] s t ∧ Ended r 0x32 t) ∧
                   (∀ v, w = true → x < spBase → u.store false x r.body = some v →
                     ∃ t, exec row s = .next t ∧ Same [.hst, .freeCtr] v t ∧ Ended r 0 t)) ∧
                 (die = some 16 → n = 8 → a % 8 = 0 → ∀ off, a % 2 ^ 48 = regBase + off →
                   (∀ code x, w = false → (s.begin r).regRead (.bct ch r.seq) off = (code, x) →
                     ∃ t, exec row s = .next t ∧ Same [.hst, .freeCtr] s t ∧
                       (code = accOk → EndedAs r (fun y => y.status = 0 ∧ y.cbody = leBytes 8 x) t) ∧ (code ≠ accOk → Ended r (bctStatus code) t)) ∧
                   (∀ code v, w = true → (s.begin r).regWrite (.bct ch r.seq) off (BitVec.ofNat 64 (leAt r.body 0 8)) = (code, v) →
                     code ≠ accOk → ∃ t, exec row s = .next t ∧ Ended r (bctStatus code) t)) ∧
                 (s.get WRD_BOARD.DIE = 0 → a + n ≤ s.get FAB_WRD_LIMIT.LIMIT → a + n ≤ shelfBase → s.bad = [] → s.ckp.snap = none →
                   (w = false → ∃ t, exec row s = .next t ∧ Same [.hst, .freeCtr, .wports] s t ∧
                     EndedAs r (fun y => y.status = 0 ∧ y.cbody = Mem.rdN s.wrd a n) t) ∧
                   (w = true → ∃ t, exec row s = .next t ∧ Same [.hst, .freeCtr, .wrd, .wports] s t ∧ Ended r 0 t ∧
                     Mem.rdN t.wrd a n = r.body ∧ ∀ b, b < a ∨ a + n ≤ b → Mem.rd t.wrd b = Mem.rd s.wrd b))))) ∧
       (∀ q, r.op = 0x20 → q = r.arg 0 1 →
         (r.zeros [(2, 2), (16, 32)] = false ∨ 64 ≤ q ∨ 2 ≤ r.arg 1 1 →
           ∃ t, exec (.queuePush ch) s = .next t ∧ Same [.hst, .freeCtr] s t ∧ Ended r 0x36 t) ∧
         (r.zeros [(2, 2), (16, 32)] = true → q < 64 → r.arg 1 1 < 2 →
           (r.body.length % 64 ≠ 0 ∨ s.bodyMax < r.body.length →
             ∃ t, exec (.queuePush ch) s = .next t ∧ Same [.hst, .freeCtr] s t ∧ Ended r 0x37 t) ∧
           (r.body.length % 64 = 0 → r.body.length ≤ s.bodyMax →
             (s.openAllowed q (.bct ch) = false → (∀ x ∈ s.hst.pushes, x.1 ≠ ch ∨ x.2.2 ≠ q) →
               ∃ t, exec (.queuePush ch) s = .next t ∧ Ended r 0x3A t ∧ t.get QUE_EVENT.REJECTED = 1 ∧ t.queues = s.queues ∧
                 t.hst.pushes = s.hst.pushes) ∧
             (s.openAllowed q (.bct ch) = true → ∀ w : Producer × OpenReq × List Byte, w = (.bct ch,
                 { words := r.body.length / 64, isEnd := r.arg 1 1 == 1, step := r.arg 4 4, mb := r.arg 8 4, tokens := r.arg 0xC 4 }, r.body) →
               ((s.queue q).wait.any (fun x => x.1 == w.1 && x.2.1 == w.2.1)) = false →
               ∃ t, exec (.queuePush ch) s = .next t ∧ t.hst.pushes = s.hst.pushes ++ [(ch, r.seq, q)] ∧ t.hst.recs = (s.begin r).hst.recs ∧
                 (w ∈ (t.queue q).wait ∨ ∃ p, t.openPk q = some p ∧ (p.prod, p.req, p.data) = w) ∧
                 (s.openPk q = none → bit (s.get QUE_FLUSH.REQ) q = false → (s.queue q).wait = [] → s.ringPks q = [] →
                   s.get (QUE_Q_CFG.UNITS q) ≤ 128 → s.qFits q w.2.1.words = true →
                   ∃ p, t.openPk q = some p ∧ (p.prod, p.req, p.data) = w ∧ p.ring = false))))) ∧
       (r.op = 0x28 →
         (4 ≤ r.arg 0 1 ∨ 4 ≤ r.arg 1 1 ∨ bits (r.arg 2 1) 4 3 ≠ 0 ∨ bits (r.arg 3 1) 4 3 ≠ 0 ∨ r.zeros [(6, 42)] = false →
           ∃ t, exec (.bctSync ch) s = .next t ∧ Same [.hst, .freeCtr] s t ∧ Ended r 0x36 t) ∧
         (r.arg 0 1 < 4 → r.arg 1 1 < 4 → bits (r.arg 2 1) 4 3 = 0 → bits (r.arg 3 1) 4 3 = 0 → r.zeros [(6, 42)] = true →
           (r.body ≠ [] → ∃ t, exec (.bctSync ch) s = .next t ∧ Same [.hst, .freeCtr] s t ∧ Ended r 0x37 t) ∧
           (r.body = [] → s.slot (chanSlot ch) = [] → (∀ x ∈ s.hst.recs, x.ch = ch → x.st ≠ 2) → ∀ ctx die,
               ctx = (if bit (r.arg 3 1) 7 = true ∧ bit (r.arg 2 1) 7 = false then s.physCtx 0 (r.arg 2 1 % 16) else r.arg 2 1 % 16) →
               die = r.arg 3 1 % 16 →
             (bit (r.arg 3 1) 7 = false ∨ s.ownDie die = true →
               (s.findCell ctx (r.arg 4 2) = none →
                 ∃ t, exec (.bctSync ch) s = .next t ∧ Ended r 0x39 t ∧ t.get SYN_EVENT.UNKNOWN = 1 ∧ t.slot (chanSlot ch) = [] ∧
                   Raised (unitId 6 0xFFF) s t) ∧
               (∀ cell, s.findCell ctx (r.arg 4 2) = some cell →
                 ∃ t o, exec (.bctSync ch) s = .next t ∧ Same [.hst, .slots, .mesh, .waits] s t ∧ t.slot (chanSlot ch) = [o] ∧ o.op = r.arg 0 1 ∧
                   o.tag = r.arg 1 1 ∧ o.req = 2 ^ 15 + s.get WRD_BOARD.DIE * 1024 + ch ∧ t.hst.recs = (s.begin r).hst.recs ∧
                   (∃ f ∈ t.mesh.flits, ∃ l, f.msg = .sync o.op cell ctx o.vid o.tag l ∧ (o.req, chanSlot ch) ∈ l) ∧
                   (o.op = 0 ∨ o.op = 3 → t.waits = s.waits))) ∧
             (bit (r.arg 3 1) 7 = true → s.ownDie die = false →
               (s.dieCoord die = none → ∃ t, exec (.bctSync ch) s = .next t ∧ Ended r 0x39 t ∧ t.get SYN_EVENT.UNKNOWN = 1) ∧
               (∀ c, s.dieCoord die = some c →
                 (r.arg 0 1 = 0 ∨ r.arg 0 1 = 3 → ∃ t, exec (.bctSync ch) s = .next t ∧ Ended r 0 t) ∧
                 (r.arg 0 1 = 1 ∨ r.arg 0 1 = 2 → ∃ t w, exec (.bctSync ch) s = .next t ∧ t.waits = s.waits ++ [w] ∧
                   w.on = .far die (bit (r.arg 2 1) 7) (r.arg 2 1 % 16) (r.arg 4 2) ∧ t.hst.recs = (s.begin r).hst.recs))))))))) ∧
  (∀ (s : State) (c : Nat), s.live →
     ((s.chan c).closing = none → exec (.chCloseFinish c) s = .next s) ∧
     (∀ cmd, (s.chan c).closing = some cmd → (∀ x ∈ s.hst.recs, x.ch = c → x.st ≠ 1) →
       ((∃ x ∈ s.hst.recs, x.ch = c ∧ (x.st ≠ 3 ∨ x.mirrored = false)) → exec (.chCloseFinish c) s = .next s) ∧
       (∀ r, (∀ x ∈ s.hst.recs, x.ch = c → x.st = 3 ∧ x.mirrored = true) → s.rec? cmd.1 cmd.2 = some r → r.st = 2 → cmd.1 ≠ c →
         ∃ t, exec (.chCloseFinish c) s = .next t ∧ (t.chan c).isOpen = false ∧ (t.chan c).closing = none ∧ (t.chan c).evs = [] ∧
           (∀ x ∈ t.hst.recs, x.ch ≠ c) ∧ Finished cmd.1 cmd.2 0 t ∧
           (∀ x ∈ s.hst.recs, x.ch = c → x.sent = false → ∀ e, s.complPort x = some e → ∃ o ∈ t.hst.sent, o.port = e ∧
             leAt o.payload 16 8 = x.seq % 2 ^ 64 ∧ leAt o.payload 3 1 = 2))))

/-- ERROR_EVENT, LATCH_FORWARD, ERROR_RECORD_REMOVE and RAS_LOG_SEL_WRITE (R400, R401, R403 to R406, R408, R409, R419): an event
forms a record in an empty latch, joins the record of a full one, or is counted apart, and it does what its class says; latches forward in ascending unit ID; a record
taken from the queue is written into the log; a storm begins where none can forward, and ends with its record. -/
def Obligations.ErrorRecords : Prop :=
  ∀ (s : State) (iss : Issuer), s.live →
    (∀ ev : ErrEvent, ev.cls = 0 ∨ 6 < ev.cls ∨ 0xC000 ≤ ev.unit → exec (.errorEvent ev) s = .next s) ∧
    (∀ ev : ErrEvent, ev.unit < 0xC000 → 1 ≤ ev.cls → ev.cls ≤ 6 →
      ∃ t, exec (.errorEvent ev) s = .next t ∧ Same [.regs, .red, .ras, .sec] s t ∧
        RegsBut (fun o => regsOf 13 o ∨ o = MGT_ALERT.reg) s t ∧
        t.get (RAS_EVENT_TOTAL.COUNT (ev.unit / 4096)) = min (2 ^ 48 - 1) (s.get (RAS_EVENT_TOTAL.COUNT (ev.unit / 4096)) + 1) ∧
        (∀ u, u ≠ ev.unit → SMap.find? t.ras.latches u = SMap.find? s.ras.latches u) ∧
        t.ras.queue = s.ras.queue ∧ t.ras.log = s.ras.log ∧
        (SMap.find? s.ras.latches ev.unit = none →
          t.ras.nextSeq = s.ras.nextSeq + 1 ∧ ∃ r, SMap.find? t.ras.latches ev.unit = some r ∧ r.unit = ev.unit ∧ r.cls = ev.cls ∧
            r.mixed = false ∧ r.ctx = ev.ctx ∧ r.reason = ev.reason ∧ r.count = 1 ∧ r.stamp = s.now ∧ r.domain = s.domain ∧
            r.tj = s.get PWR_SENSE.TJ_MAX ∧ r.vcore = s.get PWR_SENSE.VDD_CORE_MV ∧ r.vshelf = s.get PWR_SENSE.VDD_SHELF_MV ∧
            r.seq = s.ras.nextSeq % 2 ^ 32 ∧ r.delta = 0 ∧ r.detail = ev.detail) ∧
        (∀ h, SMap.find? s.ras.latches ev.unit = some h → t.ras.nextSeq = s.ras.nextSeq ∧
          (h.count < 0xFFFF → ∃ r, SMap.find? t.ras.latches ev.unit = some r ∧ r = { h with
            count := h.count + 1, delta := min (2 ^ 32 - 1) (s.now - h.stamp), mixed := h.mixed || h.reason != ev.reason, cls := max h.cls ev.cls }) ∧
          (0xFFFF ≤ h.count → t.ras.latches = s.ras.latches ∧
            t.get (RAS_STORM_COUNT.COUNT (ev.unit / 4096)) = min (2 ^ 48 - 1) (s.get (RAS_STORM_COUNT.COUNT (ev.unit / 4096)) + 1))) ∧
        (255 ≤ s.ras.queue.length → t.get RAS_STATUS.STORM = 1 ∧
          (s.get RAS_STATUS.STORM = 0 → t.get RAS_EVENT.STORM = 1 ∧ t.ras.stormAt = s.now ∧ t.ras.stormEv = 0)) ∧
        (s.replay = false → t.red.flags = (if ev.cls = 2 then s.red.flags ||| 4 else if ev.cls = 3 then s.red.flags ||| 2
          else if ev.cls = 4 then s.red.flags ||| 1 else s.red.flags)) ∧
        (ev.cls = 3 → s.replay = false →
          (s.get RAS_STATUS.SUSPECT_COUNT < 64 →
            t.get RAS_STATUS.SUSPECT_COUNT = s.get RAS_STATUS.SUSPECT_COUNT + 1 ∧
            t.get (RAS_SUSPECT.UNIT (s.get RAS_STATUS.SUSPECT_COUNT)) = ev.unit) ∧
          (64 ≤ s.get RAS_STATUS.SUSPECT_COUNT → t.get RAS_EVENT.SUSPECT_OVERFLOW = 1 ∧ t.ras.overflow = true)) ∧
        (ev.cls = 6 → t.get RAS_STATUS.REPLACE = 1 ∧ t.get RAS_EVENT.REPLACE = 1)) ∧
    (∀ u r rest, s.ras.latches = (u, r) :: rest → s.ras.queue.length < 255 → s.get RAS_STATUS.STORM = 0 →
      ∃ t, exec .latchForward s = .next t ∧ Same [.regs, .ras, .sec] s t ∧ t.ras.queue = s.ras.queue ++ [r] ∧ t.ras.log = s.ras.log ∧
        SMap.find? t.ras.latches u = none ∧ (∀ v, v ≠ u → SMap.find? t.ras.latches v = SMap.find? s.ras.latches v) ∧
        t.get RAS_STATUS.ERRQ_DEPTH = s.ras.queue.length + 1 + b2n s.ras.storm.isSome ∧
        (s.get MGT_ALERT_EN.MIN_CLASS ≤ r.cls → t.get MGT_ALERT.RECORD = 1) ∧
        (s.ras.queue.length < 254 ∨ (∀ x ∈ rest, x.1 = u) → t.get RAS_STATUS.STORM = 0) ∧
        (s.ras.queue.length = 254 → (∃ x ∈ rest, x.1 ≠ u) → t.get RAS_STATUS.STORM = 1 ∧ t.get RAS_EVENT.STORM = 1 ∧ t.ras.stormAt = s.now)) ∧
    (s.ras.latches = [] ∨ 255 ≤ s.ras.queue.length ∨ s.get RAS_STATUS.STORM = 1 → exec .latchForward s = .next s) ∧
    (∀ r q, s.ras.queue = r :: q → s.get RAS_LOG_PTR.NEXT + 1 < 2 ^ 64 →
      ∃ t, exec .errorRecordRemove s = .next t ∧ t.ras.queue = q ∧ t.ras.latches = s.ras.latches ∧
        SMap.find? t.ras.log (s.get RAS_LOG_PTR.NEXT) = some r ∧ t.get RAS_LOG_PTR.NEXT = s.get RAS_LOG_PTR.NEXT + 1 ∧
        (∀ k, k ≠ s.get RAS_LOG_PTR.NEXT → k + 6291456 ≠ s.get RAS_LOG_PTR.NEXT → SMap.find? t.ras.log k = SMap.find? s.ras.log k) ∧
        (∀ k, k + 6291456 = s.get RAS_LOG_PTR.NEXT → SMap.find? t.ras.log k = none) ∧
        (s.get RAS_STATUS.STORM = 0 ∨ 255 ≤ q.length → t.ras.storm = s.ras.storm ∧ t.get RAS_STATUS.STORM = s.get RAS_STATUS.STORM) ∧
        (s.get RAS_STATUS.STORM = 1 → q.length < 255 → t.get RAS_STATUS.STORM = 0 ∧
          ∃ x, t.ras.storm = some x ∧
            (s.ras.storm = none → x.unit = 0x8FFE ∧ x.cls = 7 ∧ x.count = 1 ∧
              x.detail % 2 ^ 64 = min (2 ^ 64 - 1) s.ras.stormEv ∧ (s.ras.stormCls < 2 ^ 16 → bits x.detail 64 16 = s.ras.stormCls) ∧
              (s.ras.stormCls < 2 ^ 16 → bits x.detail 80 16 = min 65535 s.ras.stormLatches.length) ∧
              (s.ras.stormCls < 2 ^ 16 → bits x.detail 96 32 = min (2 ^ 32 - 1) (s.now - s.ras.stormAt))) ∧
            (∀ y, s.ras.storm = some y → x.unit = y.unit ∧ x.cls = y.cls ∧ x.count = min 0xFFFF (y.count + 1) ∧
              x.detail % 2 ^ 64 = min (2 ^ 64 - 1) (y.detail % 2 ^ 64 + s.ras.stormEv)))) ∧
    (∀ r, s.ras.queue = [] → s.ras.storm = some r → s.get RAS_STATUS.STORM = 0 →
      ∃ t, exec .errorRecordRemove s = .next t ∧ t.ras.storm = none ∧ SMap.find? t.ras.log (s.get RAS_LOG_PTR.NEXT) = some r ∧
        t.get RAS_STATUS.ERRQ_DEPTH = 0) ∧
    (∀ r, s.ras.queue = [] → s.ras.storm = some r → s.get RAS_STATUS.STORM = 1 →
      ∃ t x, exec .errorRecordRemove s = .next t ∧ t.ras.storm = some x ∧ x.unit = 0x8FFE ∧ x.count = 1 ∧ t.get RAS_STATUS.STORM = 0 ∧
        SMap.find? t.ras.log (s.get RAS_LOG_PTR.NEXT) = some r) ∧
    (s.ras.queue = [] → s.ras.storm = none → exec .errorRecordRemove s = .next s) ∧
    (∀ k, k < 2 ^ 48 →
      ∃ t, exec (.rasLogSelWrite iss k) s = .next t ∧ Same [.regs] s t ∧
        RegsBut (fun o => o = RAS_LOG_SEL.reg ∨ ∃ j < 8, o = RAS_LOG_REC.reg j) s t ∧ t.get RAS_LOG_SEL.RECORD = k ∧
        (∀ r, SMap.find? s.ras.log k = some r → t.get RAS_LOG_SEL.MISS = 0 ∧
          ∀ j < 8, (t.word (RAS_LOG_REC.reg j)).toNat = leNat ((r.bytes.drop (8 * j)).take 8)) ∧
        (SMap.find? s.ras.log k = none → t.get RAS_LOG_SEL.MISS = 1 ∧ ∀ j < 8, t.word (RAS_LOG_REC.reg j) = 0))

/-- REPLAY_VERDICT, SELFTEST_GO, SELFTEST_PERIOD_EXPIRE, SELFTEST_RUN and SELFTEST_DONE (R298, R415, R417 to R419, R483): one verdict of a
round is applied, after a mismatch with the fences it calls for, and a second one is refused; a self-test runs at an idle moment, and a
Bench that fails it is fenced. -/
def Obligations.VerdictsAndSelftests : Prop :=
  ∀ (s : State) (iss : Issuer), s.live →
    (∀ v first, v = 0 ∨ 3 < v ∨ s.red.waitRevote = false ∧ s.ras.judged = false → exec (.replayVerdict iss v first) s = .next s) ∧
    (∀ v first, 1 ≤ v → v ≤ 3 → s.ras.judged = true →
      ∃ t, exec (.replayVerdict iss v first) s = .next t ∧ Same [.regs, .ras] s t ∧ RegsBut (regsOf 13) s t ∧ Raised (unitId 8 0xFFF) s t) ∧
    (∀ v first, s.red.waitRevote = true → s.ras.judged = false → 1 ≤ v → v ≤ 3 →
        s.parent.isSome = true ∨ (∃ c ∈ s.children, ∀ u ∈ s.red.ups, u.1 ≠ c) → s.red.flags < 32 →
      ∃ t, exec (.replayVerdict iss v first) s = .next t ∧ t.ras.judged = true ∧ t.red.waitRevote = false ∧
        t.red.contributed = some ((s.red.flags &&& 4) ||| (if v = 1 then 0 else 1)) ∧
        t.get RED_VOTE_FLAGS.LOCAL = (s.red.flags &&& 4) ||| (if v = 1 then 0 else 1) ∧ t.get RED_VOTE_STATUS.ROUND = s.red.round % 256 ∧
        (s.parent.isSome = true → s.children = [] → t.red.sentUp = true) ∧
        (v ≠ 2 → (∀ ty < 32, t.get (TMAP_FENCE_REQ.REQ ty) = s.get (TMAP_FENCE_REQ.REQ ty))) ∧
        (v = 2 → t.get RAS_EVENT.REPLAY_MISMATCH = 1 ∧
          (∀ k < s.get RAS_STATUS.SUSPECT_COUNT, s.get (RAS_SUSPECT.RUN k) ≤ first → ∀ unit b, unit = s.get (RAS_SUSPECT.UNIT k) → b = unit % 4096 →
            (unit < 0x2000 → b < 1056 → bit (t.get (TMAP_FENCE_REQ.REQ (b / 33))) (b % 33) = true) ∧
            (unit / 4096 = 3 → b < 48 → (t.link b).out = true)) ∧
          ((∀ k < s.get RAS_STATUS.SUSPECT_COUNT, s.get (RAS_SUSPECT.RUN k) ≤ first → fenceable (s.get (RAS_SUSPECT.UNIT k)) = false) →
            t.get RAS_STATUS.REPLACE = 1 ∧ t.get RAS_EVENT.REPLACE = 1 ∧ Raised (unitId 8 0xFFF) s t))) ∧
    (∃ t, exec (.selftestGo iss) s = .next t ∧ Same [.ras] s t ∧ t.ras = { s.ras with testWanted := true }) ∧
    (0 < s.get RAS_CTRL.SELFTEST_PERIOD → ∃ t, exec .selftestPeriodExpire s = .next t ∧ Same [.ras] s t ∧ t.ras = { s.ras with testWanted := true }) ∧
    (s.get RAS_CTRL.SELFTEST_PERIOD = 0 → exec .selftestPeriodExpire s = .next s) ∧
    (s.ras.testWanted = true → s.on FAB_STATUS.IDLE = true → s.ras.testRunning = false →
      ∃ t, exec .selftestRun s = .next t ∧ Same [.regs, .ras] s t ∧ RegsBut (· = RAS_STATUS.reg) s t ∧ t.get RAS_STATUS.SELFTEST_BUSY = 1 ∧
        t.ras = { s.ras with testWanted := false, testRunning := true }) ∧
    (s.ras.testWanted = false ∨ s.on FAB_STATUS.IDLE = false ∨ s.ras.testRunning = true → exec .selftestRun s = .next s) ∧
    (∀ l, (∀ p ∈ l, s.inServ p = false ∨ s.ras.testRunning = false ∧ s.tileAt p ≠ none) →
      ∃ t, exec (.selftestDone l) s = .next t ∧ Same [.regs, .ras] s t ∧ RegsBut (· = RAS_STATUS.reg) s t ∧
        t.get RAS_STATUS.SELFTEST_BUSY = 0 ∧ t.ras = { s.ras with testRunning := false }) ∧
    (∀ l, ∃ t, exec (.selftestDone l) s = .next t ∧ t.get RAS_STATUS.SELFTEST_BUSY = 0 ∧ t.ras.testRunning = false ∧
      ∀ p ∈ l, p < 1056 → s.inServ p = true → s.ras.testRunning = true ∨ s.tileAt p = none →
        t.get RAS_EVENT.SELFTEST_FAIL = 1 ∧ bit (t.get (TMAP_FENCE_REQ.REQ (p / 33))) (p % 33) = true ∧
        (SMap.find? t.ras.latches (unitId 0 p)).isSome = true) ∧
    (∀ p < 1056, s.inServ p = true → s.ras.testRunning = true ∨ s.tileAt p = none →
      ∃ t, exec (.selftestDone [p]) s = .next t ∧ Same [.regs, .ras, .red] s t ∧
        t.ras.testRunning = false ∧ t.get RAS_SELFTEST.LAST_FAIL = p ∧ Raised (unitId 0 p) s t ∧
        (s.red.runNext ≠ 0 → s.red.voted = false → s.replay = false → s.get RAS_STATUS.SUSPECT_COUNT < 64 →
          t.get RAS_STATUS.SUSPECT_COUNT = s.get RAS_STATUS.SUSPECT_COUNT + 1 ∧
          t.get (RAS_SUSPECT.UNIT (s.get RAS_STATUS.SUSPECT_COUNT)) = unitId 0 p ∧ bit t.red.flags 1 = true) ∧
        (s.red.runNext = 0 ∨ s.red.voted = true → t.red = s.red))

/-- SNAPSHOT, IDLE_APPLY's cut, COW_WRITE, GRANULE_COPY and CHEST_DRAIN with its answers (R425 to R428, R431, R432, Tables 14.8 and 14.9): a
snapshot is requested or refused; a write copies a PENDING granule before it changes it; the copier copies the rest and seals; what is COPIED
is drained to the buddy, whose seal ends the snapshot; a drain that is turned away ends without it. -/
def Obligations.Snapshots : Prop :=
  ∀ s : State, s.live →
    (∀ ch r, Ready s ch r →
      (r.op ≠ 0x30 → exec (.snapshot ch) s = .next s) ∧
      (r.op = 0x30 → 2 < r.arg 0 1 ∨ r.zeros [(1, 47)] = false →
        ∃ t, exec (.snapshot ch) s = .next t ∧ Same [.hst, .freeCtr] s t ∧ Ended r 0x36 t) ∧
      (r.op = 0x30 → r.arg 0 1 ≤ 2 → r.zeros [(1, 47)] = true →
        (r.body ≠ [] → ∃ t, exec (.snapshot ch) s = .next t ∧ Same [.hst, .freeCtr] s t ∧ Ended r 0x37 t) ∧
        (r.body = [] →
          (∀ code, s.man.chestBytes = 0 ∧ code = 2 ∨ s.man.chestBytes ≠ 0 ∧ (s.ckp.snap.isSome = true ∨ s.ckp.want.isSome = true) ∧ code = 1 →
            ∃ t, exec (.snapshot ch) s = .next t ∧ Same [.regs, .hst] s t ∧ EndedAs r (fun x => x.status = 0 ∧ x.result = code) t ∧
              t.get CKP_EVENT.REFUSED = 1) ∧
          (s.man.chestBytes ≠ 0 → s.ckp.snap = none → s.ckp.want = none →
            ∃ t, exec (.snapshot ch) s = .next t ∧ Same [.regs, .hst, .ckp] s t ∧
              t.ckp = { s.ckp with want := some (some (ch, r.seq, r.arg 0 1)) } ∧ t.get CKP_STATUS.PHASE = 1 ∧ t.hst.recs = (s.begin r).hst.recs)))) ∧
    (∀ cmd dir, s.fab.phase = .idle → s.fab.micros = [] → s.fab.next = none → s.shPending = false → s.mapPending = false → s.ckp.want = some cmd →
      s.ckp.snap = none → dir = s.directory →
      (∀ code, s.man.chestBytes = 0 ∧ code = 2 ∨ s.man.chestBytes ≠ 0 ∧ s.regionsOk = false ∧ code = 10 ∨ s.man.chestBytes ≠ 0 ∧ s.regionsOk = true ∧
          (chestSlot s.man < dir.foldl (fun a e => a + e.bytes) 0 + 0x11000 ∨ 2040 < dir.length) ∧ code = 3 →
        ∃ t, exec .idleApply s = .next t ∧ t.get CKP_EVENT.REFUSED = 1 ∧ t.ckp = { s.ckp with want := none } ∧ t.wrd = s.wrd ∧ t.get CKP_STATUS.PHASE = 0 ∧
          ∀ c q w y, cmd = some (c, q, w) → s.rec? c q = some y → y.st ≠ 3 →
            ∃ x ∈ t.hst.recs, x.ch = c ∧ x.seq = q ∧ x.st = 3 ∧ x.status = 0 ∧ x.result = code) ∧
      (s.man.chestBytes ≠ 0 → s.regionsOk = true → dir.foldl (fun a e => a + e.bytes) 0 + 0x11000 ≤ chestSlot s.man → dir.length ≤ 2040 →
        ∃ t sn, exec .idleApply s = .next t ∧ t.ckp = { s.ckp with want := none, snap := some sn } ∧
          (s.newest [0, 1] = none → sn.slot = 0 ∧ sn.id = 1) ∧
          (∀ g, s.newest [0, 1] = some g → sn.slot = 1 - g ∧ sn.id = (s.get (CKP_GEN.SNAP_ID g) + 1) % 2 ^ 32) ∧
          (∀ x ∈ sn.granules, x.1 ≠ 0 → x.2.2.2.2 = 0) ∧ sn.granules = (dir.map DirEnt.granules).flatten ∧
          t.get CKP_STATUS.PHASE = 2 ∧ t.get CKP_STATUS.SLOT = sn.slot ∧
          ∀ c q w y, cmd = some (c, q, w) → s.rec? c q = some y → y.st ≠ 3 →
            (w = 0 → ∃ x ∈ t.hst.recs, x.ch = c ∧ x.seq = q ∧ x.st = 3 ∧ x.status = 0 ∧ x.result = sn.id * 2 ^ 32) ∧ (w ≠ 0 → sn.cmd = some (c, q, w)))) ∧
    (s.ckp.snap = none → ∀ i a l, exec (.cowWrite i a l) s = .next s) ∧
    (∀ sn i addr data, s.ckp.snap = some sn → sn.granules[i]? = none → exec (.cowWrite i addr data) s = .next s) ∧
    (∀ sn i g addr data, s.ckp.snap = some sn → sn.granules[i]? = some g →
      (g.2.2.2.2 ≠ 0 ∨ addr < g.2.1 ∨ g.2.1 + g.2.2.1 < addr + data.length ∨ data = [] → exec (.cowWrite i addr data) s = .next s) ∧
      (g.2.2.2.2 = 0 → s.get WRD_STATUS.IN_SERVICE = 1 → s.bad = [] → Mem.wf s.wrd = true → data ≠ [] → g.2.1 ≤ addr → addr + data.length ≤ g.2.1 + g.2.2.1 →
        g.2.1 + g.2.2.1 ≤ s.wrdEnd → s.wrdEnd ≤ shelfBase → s.slotAt sn.slot + g.2.2.2.1 + g.2.2.1 ≤ s.wrdEnd →
        (g.2.1 + g.2.2.1 ≤ s.slotAt sn.slot + g.2.2.2.1 ∨ s.slotAt sn.slot + g.2.2.2.1 + g.2.2.1 ≤ g.2.1) →
        (∀ x ∈ sn.granules, x ≠ g → addr + data.length ≤ x.2.1 ∨ x.2.1 + x.2.2.1 ≤ addr) →
        ∃ t, exec (.cowWrite i addr data) s = .next t ∧ t.get CKP_COW.STALLS = min (2 ^ 32 - 1) (s.get CKP_COW.STALLS + 1) ∧
          ((∀ x ∈ sn.granules, x ≠ g → x.2.2.2.2 ≠ 0) → sn.sealedOwn = false → t.get CKP_EVENT.SEALED = 1) ∧
          ((∃ x ∈ sn.granules, x ≠ g ∧ x.2.2.2.2 = 0) → Same [.regs, .wrd, .wports, .ckp] s t ∧ RegsBut (· = CKP_COW.reg) s t ∧
            Mem.rdN t.wrd addr data.length = data ∧
            Mem.rdN t.wrd (s.slotAt sn.slot + g.2.2.2.1) g.2.2.1 = Mem.rdN s.wrd g.2.1 g.2.2.1 ∧
            (∀ a, a < addr ∨ addr + data.length ≤ a → a < s.slotAt sn.slot + g.2.2.2.1 ∨ s.slotAt sn.slot + g.2.2.2.1 + g.2.2.1 ≤ a →
              Mem.rd t.wrd a = Mem.rd s.wrd a) ∧
            ∃ sn1, t.ckp.snap = some sn1 ∧ sn1.granules[i]? = some (g.1, g.2.1, g.2.2.1, g.2.2.2.1, 1)))) ∧
    (s.ckp.snap = none → ∀ ue, exec (.granuleCopy ue) s = .next s) ∧
    (∀ ue sn, s.ckp.snap = some sn → sn.sealedOwn = true → (∀ x ∈ sn.granules, x.2.2.2.2 ≠ 0) → exec (.granuleCopy ue) s = .next s) ∧
    (∀ ue sn g, s.ckp.snap = some sn → sn.granules.find? (fun x => x.2.2.2.2 == 0) = some g →
      (∃ t, exec (.granuleCopy ue) s = .next t ∧
        (ue = true ∨ s.granuleBad g ≠ [] → t.get CKP_EVENT.DEGRADED = 1 ∧ (SMap.find? t.ras.latches (unitId 8 0xFFF)).isSome = true)) ∧
      (s.get WRD_STATUS.IN_SERVICE = 1 → s.bad = [] → Mem.wf s.wrd = true →
        g.2.1 + g.2.2.1 ≤ s.wrdEnd → s.wrdEnd ≤ shelfBase → s.slotAt sn.slot + g.2.2.2.1 + g.2.2.1 ≤ s.wrdEnd →
        (g.2.1 + g.2.2.1 ≤ s.slotAt sn.slot + g.2.2.2.1 ∨ s.slotAt sn.slot + g.2.2.2.1 + g.2.2.1 ≤ g.2.1) →
        (∃ x ∈ sn.granules, x ≠ g ∧ x.2.2.2.2 = 0) →
        ∃ t sn1, exec (.granuleCopy ue) s = .next t ∧ Same [.regs, .wrd, .ckp, .ras] s t ∧ RegsBut (fun o => regsOf 14 o ∨ regsOf 13 o) s t ∧
          Mem.rdN t.wrd (s.slotAt sn.slot + g.2.2.2.1) g.2.2.1 = Mem.rdN s.wrd g.2.1 g.2.2.1 ∧
          (∀ a, a < s.slotAt sn.slot + g.2.2.2.1 ∨ s.slotAt sn.slot + g.2.2.2.1 + g.2.2.1 ≤ a → Mem.rd t.wrd a = Mem.rd s.wrd a) ∧
          t.ckp = { s.ckp with snap := some sn1 } ∧ (∀ x ∈ sn1.granules, x ≠ g) ∧ sn1.degraded = (sn.degraded || ue) ∧
          (ue = true → Raised (unitId 8 0xFFF) s t))) ∧
    (∀ ue sn, s.ckp.snap = some sn → sn.sealedOwn = false → (∀ x ∈ sn.granules, x.2.2.2.2 ≠ 0) → s.get WRD_STATUS.IN_SERVICE = 1 → s.bad = [] →
      s.wrdEnd ≤ shelfBase → s.sealAt sn.slot + 4096 ≤ s.wrdEnd → sn.id < 2 ^ 64 →
      ∃ t, exec (.granuleCopy ue) s = .next t ∧ Mem.le t.wrd (s.sealAt sn.slot) 8 = sn.id ∧
        Mem.le t.wrd (s.sealAt sn.slot + 8) 8 = b2n sn.degraded ∧ t.get CKP_EVENT.SEALED = 1 ∧
        (∀ a, a < s.sealAt sn.slot ∨ s.sealAt sn.slot + 32 ≤ a → Mem.rd t.wrd a = Mem.rd s.wrd a) ∧
        (s.get HST_BUDDY.VALID = 0 ∨ sn.drain = false → t.ckp = { s.ckp with snap := none } ∧ t.get CKP_STATUS.PHASE = 0) ∧
        (s.get HST_BUDDY.VALID = 1 → sn.drain = true → t.get CKP_STATUS.PHASE = 3 ∧ ∃ sn1, t.ckp = { s.ckp with snap := some sn1 } ∧
          sn1.sealedOwn = true ∧ sn1.granules = sn.granules) ∧
        (∀ c q w y, sn.cmd = some (c, q, w) → s.rec? c q = some y → y.st ≠ 3 → w = 1 ∨ s.get HST_BUDDY.VALID = 0 ∨ sn.drain = false →
          ∃ x ∈ t.hst.recs, x.ch = c ∧ x.seq = q ∧ x.st = 3 ∧ x.status = 0 ∧ x.result = sn.id * 2 ^ 32 + (if w = 1 then 0 else 7))) ∧
    (s.get HST_BUDDY.VALID = 0 ∨ s.ckp.again = false ∧ (∀ sn, s.ckp.snap = some sn → sn.drain = false) → exec .chestDrain s = .next s) ∧
    (s.ckp.again = true → s.get HST_BUDDY.VALID = 1 → s.ckp.snap = none →
      (s.newest [0, 1] = none → ∃ t, exec .chestDrain s = .next t ∧ Same [.ckp] s t ∧ t.ckp = { s.ckp with again := false }) ∧
      (∀ g, s.newest [0, 1] = some g → s.reaches (s.get HST_BUDDY.COORD) = true →
        ∃ t sn1, exec .chestDrain s = .next t ∧ t.ckp = { s.ckp with again := false, snap := some sn1 } ∧ sn1.slot = g ∧ sn1.headSent = true ∧
          sn1.sealedOwn = true ∧ sn1.id = s.get (CKP_GEN.SNAP_ID g) ∧ t.get CKP_STATUS.PHASE = 3 ∧ t.remote.length = s.remote.length + 17)) ∧
    (∀ sn, s.ckp.again = true → s.get HST_BUDDY.VALID = 1 → s.ckp.snap = some sn → s.reaches (s.get HST_BUDDY.COORD) = true →
      ∃ t sn1, exec .chestDrain s = .next t ∧ t.ckp = { s.ckp with again := false, snap := some sn1 } ∧ sn1.headSent = true ∧ sn1.drain = true ∧
        (∀ x ∈ sn1.granules, x.2.2.2.2 ≤ 1) ∧ t.remote.length = s.remote.length + 17) ∧
    (∀ sn, s.ckp.snap = some sn → s.ckp.again = false → s.get HST_BUDDY.VALID = 1 → sn.drain = true →
      (s.reaches (s.get HST_BUDDY.COORD) = false →
        ∃ t, exec .chestDrain s = .next t ∧ t.get WRD_EVENT.REMOTE_ERROR = 1 ∧ (∀ o ∈ t.remote, o.issuer ≠ 0x43FD ∨ o.write = false) ∧
          (sn.sealedOwn = true → t.ckp = { s.ckp with snap := none } ∧ t.get CKP_STATUS.PHASE = 0) ∧
          (sn.sealedOwn = false → t.ckp = { s.ckp with snap := some { sn with drain := false } })) ∧
      (s.reaches (s.get HST_BUDDY.COORD) = true →
        (sn.headSent = false →
          ∃ t ops, exec .chestDrain s = .next t ∧ t.remote = s.remote ++ ops ∧ ops.length = 17 ∧
            (∀ o ∈ ops, o.issuer = 0x43FD ∧ o.write = true ∧ o.bytes = 4096) ∧
            ops.map RemoteOp.addr = buddyAddr sn.slot (chestSlot s.man - 4096) :: (List.range 16).map (fun k => buddyAddr sn.slot 0 + 4096 * k) ∧
            t.ckp = { s.ckp with snap := some { sn with headSent := true } }) ∧
        (∀ g, sn.headSent = true → sn.granules.find? (fun x => x.2.2.2.2 == 1) = some g → g.2.2.1 ≤ 65536 →
          ∃ t ops sn1, exec .chestDrain s = .next t ∧ t.remote = s.remote ++ ops ∧ ops.length = (g.2.2.1 + 4095) / 4096 ∧
            (∀ o ∈ ops, o.issuer = 0x43FD ∧ o.write = true ∧ o.bytes ≤ 4096 ∧ o.tile = 0) ∧ t.ckp = { s.ckp with snap := some sn1 } ∧
            ∀ x ∈ sn1.granules, x ≠ g) ∧
        (sn.headSent = true → sn.granules.find? (fun x => x.2.2.2.2 == 1) = none →
          (sn.sealedOwn = false ∨ (∃ o ∈ s.remote, o.issuer = 0x43FD ∧ o.tile = 1) → exec .chestDrain s = .next s) ∧
          (sn.sealedOwn = true → (∀ o ∈ s.remote, o.issuer ≠ 0x43FD ∨ o.tile ≠ 1) →
            ∃ t o, exec .chestDrain s = .next t ∧ t.remote = s.remote ++ [o] ∧ o.issuer = 0x43FD ∧ o.write = true ∧ o.tile = 1 ∧ o.bytes = 4096 ∧
              o.addr = buddyAddr sn.slot (chestSlot s.man - 4096) ∧ t.ckp = s.ckp)))) ∧
    (∀ tag op sn data quiet, s.remote.find? (fun o => o.tag == tag % 65536) = some op → op.issuer = 0x43FD → op.write = true → s.ckp.snap = some sn →
      (op.tile ≠ 1 → ∃ t, exec (.memResp tag ⟨0, quiet⟩ data) s = .next t ∧ Same [.remote] s t ∧ t.remote = s.remote.erase op) ∧
      (op.tile = 1 →
        ∃ t, exec (.memResp tag ⟨0, quiet⟩ data) s = .next t ∧ (∀ o ∈ t.remote, o ∈ s.remote.erase op ∨ o.issuer = 0x43FE) ∧
          t.ckp = { s.ckp with snap := none } ∧
          t.get CKP_STATUS.PHASE = 4 ∧ t.get CKP_EVENT.BUDDY_SEALED = 1 ∧
          ∀ c q w y, sn.cmd = some (c, q, w) → s.rec? c q = some y → y.st ≠ 3 →
            ∃ x ∈ t.hst.recs, x.ch = c ∧ x.seq = q ∧ x.st = 3 ∧ x.status = 0 ∧ x.result = sn.id * 2 ^ 32) ∧
      (∀ row, (∃ status, status ≠ 0 ∧ row = Instr.memResp tag ⟨status, quiet⟩ data) ∨
          row = .remoteOpTimeout tag ∧ op.stamp + s.get WRD_REMOTE_TIMEOUT.TICKS ≤ s.now →
        ∃ t, exec row s = .next t ∧ (∀ o ∈ t.remote, o.issuer ≠ 0x43FD ∨ o.write = false) ∧
          (SMap.find? t.ras.latches (unitId 8 0xFFF)).isSome = true ∧
          (sn.sealedOwn = true → t.ckp = { s.ckp with snap := none } ∧ t.get CKP_STATUS.PHASE = 0) ∧
          (sn.sealedOwn = false → t.ckp = { s.ckp with snap := some { sn with drain := false } })))

/-- RESTORE with MODE FULL, SPARE and REJOIN, and SPARE_FETCH_DONE with the reads of its fetch (R320, R433 to R435, Tables 14.8 and 14.9): a
restore that may be performed takes back the state of a cut, and one that may not completes with its code. -/
def Obligations.Restores : Prop :=
  ∀ (s : State) (ch : Nat) (r : JRec), s.live →
    (Ready s ch r →
      (∀ row, r.op ≠ 0x31 ∧ row ∈ [Instr.restoreFull ch, .restoreSpare ch, .restoreRejoin ch] ∨ r.arg 0 1 ≠ 1 ∧ row = .restoreSpare ch ∨
          r.arg 0 1 ≠ 2 ∧ row = .restoreRejoin ch ∨ (r.arg 0 1 = 1 ∨ r.arg 0 1 = 2) ∧ row = .restoreFull ch → exec row s = .next s) ∧
      (r.op = 0x31 → ∀ row, r.arg 0 1 ≠ 1 ∧ r.arg 0 1 ≠ 2 ∧ row = Instr.restoreFull ch ∨ r.arg 0 1 = 1 ∧ row = .restoreSpare ch ∨
          r.arg 0 1 = 2 ∧ row = .restoreRejoin ch →
        (∀ st, r.restoreBad = some st → ∃ t, exec row s = .next t ∧ Same [.hst, .freeCtr] s t ∧ Ended r st t) ∧
        (r.restoreBad = none → s.get FAB_STATUS.IDLE = 0 ∨ s.get SBD_STATUS.STATE = 5 →
          ∃ t, exec row s = .next t ∧ Same [.hst] s t ∧ EndedAs r (fun x => x.status = 0 ∧ x.result % 256 = 4) t)) ∧
      (r.op = 0x31 → r.restoreBad = none → s.get FAB_STATUS.IDLE = 1 → s.get SBD_STATUS.STATE ≠ 5 → r.arg 0 1 < 2 →
        (s.ckp.snap.isSome = true ∨ s.ckp.want.isSome = true ∨ s.ckp.restore.isSome = true → ∀ row,
          r.arg 0 1 = 0 ∧ row = Instr.restoreFull ch ∨ r.arg 0 1 = 1 ∧ row = .restoreSpare ch →
          ∃ t, exec row s = .next t ∧ Same [.hst] s t ∧ EndedAs r (fun x => x.status = 0 ∧ x.result % 256 = 1) t) ∧
        (s.ckp.snap = none → s.ckp.want = none → s.ckp.restore = none →
          (r.arg 0 1 = 0 →
            (∀ code, s.man.chestBytes = 0 ∧ code = 2 ∨ s.man.chestBytes ≠ 0 ∧ r.arg 1 1 < 2 ∧ s.get (CKP_GEN.SEALED (r.arg 1 1)) = 0 ∧ code = 5 ∨
                s.man.chestBytes ≠ 0 ∧ r.arg 1 1 = 0xFF ∧ s.newest [0, 1] = none ∧ code = 5 ∨
                s.man.chestBytes ≠ 0 ∧ r.arg 1 1 < 2 ∧ s.get (CKP_GEN.SEALED (r.arg 1 1)) = 1 ∧
                  s.shapeOk (s.header (s.slotAt (r.arg 1 1))) (manifestOf ((s.slotNums (s.slotAt (r.arg 1 1))).drop 3)).1 = false ∧ code = 6 →
              ∃ t, exec (.restoreFull ch) s = .next t ∧ Same [.hst] s t ∧ EndedAs r (fun x => x.status = 0 ∧ x.result % 256 = code) t) ∧
            (∀ g, s.man.chestBytes ≠ 0 → (r.arg 1 1 = g ∧ g < 2 ∨ r.arg 1 1 = 0xFF ∧ s.newest [0, 1] = some g) → s.get (CKP_GEN.SEALED g) = 1 →
              s.shapeOk (s.header (s.slotAt g)) (manifestOf ((s.slotNums (s.slotAt g)).drop 3)).1 = true →
              ∃ t, exec (.restoreFull ch) s = .next t ∧ Ended r 0 t ∧
                t.get RED_STATUS.STEP = r.arg 4 4 ∧ t.get RED_STATUS.ATTEMPT = r.arg 8 2 ∧
                t.get FAB_STATUS.ACTIVE_DRAWER = (s.header (s.slotAt g)).getD 10 0 % 4 ∧ t.get CKP_EVENT.RESTORED = 1 ∧ t.fab = {} ∧
                t.staged = none ∧ t.upd = none ∧ t.get SBD_STATUS.STATE = 0 ∧
                t.resident = some { addr := (s.slotNums (s.slotAt g)).getD 0 0, id := (s.slotNums (s.slotAt g)).getD 1 0,
                                    length := (s.slotNums (s.slotAt g)).getD 2 0, man := (manifestOf ((s.slotNums (s.slotAt g)).drop 3)).1 })) ∧
          (r.arg 0 1 = 1 →
            (s.get HST_BUDDY.VALID = 0 →
              ∃ t, exec (.restoreSpare ch) s = .next t ∧ Same [.hst] s t ∧ EndedAs r (fun x => x.status = 0 ∧ x.result % 256 = 7) t) ∧
            (s.get HST_BUDDY.VALID = 1 → s.reaches (s.get HST_BUDDY.COORD) = false →
              ∃ t, exec (.restoreSpare ch) s = .next t ∧ t.get WRD_EVENT.REMOTE_ERROR = 1 ∧ Raised (unitId 8 0xFFF) s t ∧
                EndedAs r (fun x => x.status = 0 ∧ x.result % 256 = 5) t) ∧
            (s.get HST_BUDDY.VALID = 1 → s.reaches (s.get HST_BUDDY.COORD) = true →
              ∃ t ops, exec (.restoreSpare ch) s = .next t ∧ t.ckp = { s.ckp with restore := some (some (ch, r.seq, r.arg 4 4, r.arg 8 2)) } ∧
                t.get CKP_STATUS.PHASE = 5 ∧ t.remote = s.remote ++ ops ∧ ops.map RemoteOp.addr = [2 * 2 ^ 46, 3 * 2 ^ 46] ∧
                (∀ o ∈ ops, o.issuer = 0x43FD ∧ o.write = false) ∧ t.hst.recs = (s.begin r).hst.recs)))) ∧
      (r.op = 0x31 → r.restoreBad = none → r.arg 0 1 = 2 → s.get FAB_STATUS.IDLE = 1 → s.get SBD_STATUS.STATE ≠ 5 →
        (s.get (SBD_BANK_T.T (s.get SBD_BANK.ACTIVE)) = r.arg 12 4 → s.hst.pushes = [] → s.slots = [] →
          ∃ t, exec (.restoreRejoin ch) s = .next t ∧ EndedAs r (fun x => x.status = 0 ∧ x.result = r.arg 12 4 * 2 ^ 32) t ∧
            t.get RED_STATUS.STEP = r.arg 4 4 ∧ t.get RED_STATUS.ATTEMPT = r.arg 8 2 ∧ t.get SBD_BANK.ACTIVE = s.get SBD_BANK.ACTIVE ∧
            t.upd = none ∧ t.get SBD_STATUS.STATE = 0) ∧
        (s.get (SBD_BANK_T.T (s.get SBD_BANK.ACTIVE)) ≠ r.arg 12 4 → s.get (SBD_BANK_T.T (1 - s.get SBD_BANK.ACTIVE)) = r.arg 12 4 →
          s.get SBD_BANK.ROLLED = 0 →
          ∃ t, exec (.restoreRejoin ch) s = .next t ∧ t.get SBD_BANK.ACTIVE = 1 - s.get SBD_BANK.ACTIVE ∧ t.get SBD_BANK.ROLLED = 1 ∧
            t.get SBD_STATUS.STATE = 5 ∧ t.ckp.rejoin = some (ch, r.seq) ∧ t.get RED_STATUS.STEP = r.arg 4 4 ∧
            t.get RED_STATUS.ATTEMPT = r.arg 8 2 ∧ t.upd = none) ∧
        (s.get (SBD_BANK_T.T (s.get SBD_BANK.ACTIVE)) ≠ r.arg 12 4 →
          s.get (SBD_BANK_T.T (1 - s.get SBD_BANK.ACTIVE)) ≠ r.arg 12 4 ∨ s.get SBD_BANK.ROLLED = 1 →
          ∃ t, exec (.restoreRejoin ch) s = .next t ∧ Same [.hst] s t ∧ EndedAs r (fun x => x.status = 0 ∧ x.result % 256 = 8) t))) ∧
    (∀ slot, s.ckp.restore = none → exec (.spareFetchDone slot) s = .next s) ∧
    (∀ slot cmd, s.ckp.restore = some cmd →
      (slot.length < slotData + 4096 ∨ leAt slot (slot.length - 4096) 8 = 0 ∨ leAt slot (slot.length - 4096) 8 ≠ (bytesNum 12 slot).getD 0 0 →
        ∃ t, exec (.spareFetchDone slot) s = .next t ∧ t.ckp = { s.ckp with restore := none } ∧ t.get CKP_STATUS.PHASE = 0 ∧ t.wrd = s.wrd ∧
          (∀ o ∈ t.remote, o.issuer ≠ 0x43FD ∨ o.write = true) ∧
          ∀ c q a b y, cmd = some (c, q, a, b) → s.rec? c q = some y → y.st ≠ 3 →
            ∃ x ∈ t.hst.recs, x.ch = c ∧ x.seq = q ∧ x.st = 3 ∧ x.status = 0 ∧ x.result % 256 = 5) ∧
      (∀ im m, s.resident = some im → slotData + 4096 ≤ slot.length →
        leAt slot (slot.length - 4096) 8 = (bytesNum 12 slot).getD 0 0 → leAt slot (slot.length - 4096) 8 ≠ 0 →
        m = (manifestOf ((bytesNum (leAt slot slotData 8) (slot.drop (slotData + 8))).drop 3)).1 →
        (chestSlot im.man ≠ slot.length ∨ s.shapeOk (bytesNum 12 slot) m = false →
          ∃ t, exec (.spareFetchDone slot) s = .next t ∧ t.ckp = { s.ckp with restore := none } ∧ t.get CKP_STATUS.PHASE = 0 ∧ t.wrd = s.wrd ∧
            ∀ c q a b y, cmd = some (c, q, a, b) → s.rec? c q = some y → y.st ≠ 3 →
              ∃ x ∈ t.hst.recs, x.ch = c ∧ x.seq = q ∧ x.st = 3 ∧ x.status = 0 ∧ x.result % 256 = 6) ∧
        (∀ t1 u, chestSlot im.man = slot.length → s.shapeOk (bytesNum 12 slot) m = true → s.fetchOver.wrA true (s.slotAt 0) slot = some t1 →
          u = t1.genSync 0 → u.get (CKP_GEN.SEALED 0) = 1 →
          u.shapeOk (u.header (u.slotAt 0)) (manifestOf ((u.slotNums (u.slotAt 0)).drop 3)).1 = true →
          ∃ t, exec (.spareFetchDone slot) s = .next t ∧ t.ckp.restore = none ∧ t.get CKP_EVENT.RESTORED = 1 ∧ t.fab = {} ∧
            t.get RED_STATUS.STEP = (match cmd with
              | some c => c.2.2.1 % 2 ^ 32
              | none => (bytesNum 12 slot).getD 2 0 % 2 ^ 32) ∧
            ∀ c q a b y, cmd = some (c, q, a, b) → s.rec? c q = some y → y.st ≠ 3 → Finished c q 0 t))) ∧
    (∀ tag op data quiet, s.remote.find? (fun o => o.tag == tag % 65536) = some op → op.issuer = 0x43FD → op.write = false →
      (∃ t, exec (.memResp tag ⟨0, quiet⟩ data) s = .next t ∧ Same [.remote] s t ∧ t.remote = s.remote.erase op ++ [{ op with tile := 1 }]) ∧
      (∀ status, status ≠ 0 →
        ((∃ o ∈ s.remote.erase op, o.issuer = 0x43FD ∧ o.write = false) →
          ∃ t, exec (.memResp tag ⟨status, quiet⟩ data) s = .next t ∧ Same [.remote] s t ∧ t.remote = s.remote.erase op) ∧
        (∀ cmd, (∀ o ∈ s.remote.erase op, o.issuer ≠ 0x43FD ∨ o.write = true) → s.ckp.restore = some cmd →
          ∃ t, exec (.memResp tag ⟨status, quiet⟩ data) s = .next t ∧ t.ckp = { s.ckp with restore := none } ∧ t.get CKP_STATUS.PHASE = 0 ∧
            ∀ c q a b y, cmd = some (c, q, a, b) → s.rec? c q = some y → y.st ≠ 3 →
              ∃ x ∈ t.hst.recs, x.ch = c ∧ x.seq = q ∧ x.st = 3 ∧ x.status = 0 ∧ x.result % 256 = 5)) ∧
      (∀ cmd, op.stamp + s.get WRD_REMOTE_TIMEOUT.TICKS ≤ s.now → s.ckp.restore = some cmd →
        ∃ t, exec (.remoteOpTimeout tag) s = .next t ∧ t.ckp = { s.ckp with restore := none } ∧ t.get CKP_STATUS.PHASE = 0 ∧
          ∀ c q a b y, cmd = some (c, q, a, b) → s.rec? c q = some y → y.st ≠ 3 →
            ∃ x ∈ t.hst.recs, x.ch = c ∧ x.seq = q ∧ x.st = 3 ∧ x.status = 0 ∧ x.result % 256 = 7))

/-- REGISTER_WRITE (R8, R12, R15, R16, R46, R51, R55, R121, R122, R190, R303, R443, R445, R480 to R483): a write that may not be made changes
nothing; of the others each field takes the write as its access type says, a Bench's registers by the tile map; what is refused leaves an
error record; and a register with a row of its own takes the write as that row does. -/
def Obligations.RegisterWrites : Prop :=
  ∀ (s : State) (iss : Issuer) (off : Nat) (v : Word), s.live →
    (off % 8 ≠ 0 ∨ (∃ n, iss = .die n) ∨ iss = .i3c ∧ (s.quiescing = true ∨ s.get GLB_BOOT.STAGE < 2 ∧ earlyBlock off = false) ∨
        0x110000 ≤ off ∧ off < 0x1000000 ∨ 0x1400000 ≤ off ∨ 0x1000000 ≤ off ∧ s.phys ((off - 0x1000000) / 0x1000) = none →
      exec (.registerWrite iss off v) s = .next s) ∧
    (off % 8 = 0 → (∀ n, iss ≠ .die n) → (iss = .i3c → s.quiescing = false ∧ (2 ≤ s.get GLB_BOOT.STAGE ∨ earlyBlock off = true)) →
      (∀ o r, off < 0x110000 ∧ o = off ∨
          (∃ p, 0x1000000 ≤ off ∧ off < 0x1400000 ∧ s.phys ((off - 0x1000000) / 0x1000) = some p ∧ o = 0x1000000 + p * 0x1000 + off % 0x1000) →
        regSpec o = some r → r.fields.Pairwise (fun f g => f.hi < g.lo ∨ g.hi < f.lo) →
        (∀ f ∈ r.fields, f.lo ≤ f.hi ∧ f.hi < 64) → s.regWhole iss o v = none →
        o ∉ [GLB_RESET.reg, PWR_RT_CTRL.reg, WRD_CTRL.reg, PWR_BUDGET.reg, PWR_LEND_CTRL.reg, NUM_STATUS_GEN.reg] →
        (∀ d < 6, o = LNK_BUNDLE_CFG.reg d → s.get LNK_PKG.QUAD = 0 ∨ d ≠ s.get LNK_PKG.PX ∧ d ≠ 2 + s.get LNK_PKG.PY) →
        (∀ u : State, u.regActs iss o v = u) → (∀ f ∈ r.fields, f.acc = .da → regBlock o ≠ 13) →
        ∃ t, exec (.registerWrite iss off v) s = .next t ∧ Same [.regs, .shadow, .boardPending, .ras] s t ∧
          RegsBut (fun x => x = o ∨ x = FAB_STATUS.reg ∨ regsOf 13 x) s t ∧
          ∀ f ∈ r.fields,
            (f.acc = .rw → reservedVal o f (fget v f.hi f.lo) = false → fget (t.word o) f.hi f.lo = fget v f.hi f.lo) ∧
            (f.acc = .w1c → fget (t.word o) f.hi f.lo =
              fget (s.word o) f.hi f.lo - (fget (s.word o) f.hi f.lo &&& fget v f.hi f.lo)) ∧
            (f.acc = .ro ∨ f.acc = .wo ∨ f.acc = .w1s ∨ f.acc = .da ∨ f.acc = .sh →
              fget (t.word o) f.hi f.lo = fget (s.word o) f.hi f.lo) ∧
            (f.acc = .sh → reservedVal o f (fget v f.hi f.lo) = false →
              fget (SMap.get t.shadow (t.word o) o) f.hi f.lo = fget v f.hi f.lo) ∧
            (f.acc = .rw → reservedVal o f (fget v f.hi f.lo) = true →
              fget (t.word o) f.hi f.lo = fget (s.word o) f.hi f.lo ∧ Raised (unitId 8 0xFFF) s t) ∧
            (f.acc = .da → fget v f.hi f.lo ≠ fget (s.word o) f.hi f.lo → Raised (unitId 8 0xFFF) s t)) ∧
      (off = PWR_BUDGET.reg → ∃ t, exec (.registerWrite iss off v) s = .next t ∧ Same [.regs] s t ∧
        RegsBut (fun o => o = PWR_BUDGET.reg ∨ o = PWR_POWER.reg) s t ∧ t.get PWR_BUDGET.BUDGET = max 0x320 (min 0x12C0 (fget v 15 0))) ∧
      (off = PWR_LEND_CTRL.reg → ∃ t, exec (.registerWrite iss off v) s = .next t ∧ Same [.regs] s t ∧ RegsBut (· = PWR_LEND_CTRL.reg) s t ∧
        t.get PWR_LEND_CTRL.WAKE_GAP = max 20 (fget v 47 32) ∧ t.get PWR_LEND_CTRL.THRESHOLD = fget v 31 16 ∧ t.get PWR_LEND_CTRL.LEND_EN = fget v 0 0) ∧
      (off = NUM_STATUS_GEN.reg → ∃ t, exec (.registerWrite iss off v) s = .next t ∧ Same [.regs] s t ∧
        RegsBut (fun o => o = NUM_STATUS_GEN.reg ∨ o = NUM_STATUS.reg) s t ∧
        fget (t.word off) 6 0 = fget (s.word off) 6 0 - (fget (s.word off) 6 0 &&& fget v 6 0) ∧
        t.get NUM_STATUS_GEN.ANOMALY = b2n ((fget (t.word off) 6 0 &&& s.get NUM_ANOMALY_MASK.MASK) != 0)) ∧
      (off = PWR_RT_CTRL.reg →
        (s.get PWR_RT_STATUS.VALID = 0 ∨ fget v 31 16 = s.get PWR_RT_CTRL.DOMAIN →
          ∃ t, exec (.registerWrite iss off v) s = .next t ∧ Same [.regs] s t ∧ RegsBut (· = PWR_RT_CTRL.reg) s t ∧
            t.get PWR_RT_CTRL.DOMAIN = fget v 31 16 ∧ t.get PWR_RT_CTRL.CHECK_LOG2 = fget v 13 8 ∧
            t.get PWR_RT_CTRL.ARM = (if bit v.toNat 0 then 1 else s.get PWR_RT_CTRL.ARM)) ∧
        (s.get PWR_RT_STATUS.VALID = 1 → fget v 31 16 ≠ s.get PWR_RT_CTRL.DOMAIN →
          ∃ t, exec (.registerWrite iss off v) s = .next t ∧ Same [.regs, .ras] s t ∧ RegsBut (fun o => o = PWR_RT_CTRL.reg ∨ regsOf 13 o) s t ∧
            t.get PWR_RT_CTRL.DOMAIN = s.get PWR_RT_CTRL.DOMAIN ∧ Raised (unitId 11 0) s t)) ∧
      (off = WRD_CTRL.reg → ∃ t, exec (.registerWrite iss off v) s = .next t ∧ Same [.regs, .ras] s t ∧
        RegsBut (fun o => o = WRD_CTRL.reg ∨ regsOf 13 o) s t ∧ t.get WRD_CTRL.SCRUB_PERIOD = fget v 63 32 ∧ t.get WRD_CTRL.SCRUB_EN = fget v 8 8 ∧
        (fget v 2 0 < 5 → s.get WRD_STATUS.IN_SERVICE = 0 ∨ fget v 2 0 = s.get WRD_CTRL.RATE → t.get WRD_CTRL.RATE = fget v 2 0 ∧ t.ras = s.ras) ∧
        (fget v 2 0 < 5 → s.get WRD_STATUS.IN_SERVICE = 1 → fget v 2 0 ≠ s.get WRD_CTRL.RATE →
          t.get WRD_CTRL.RATE = s.get WRD_CTRL.RATE ∧ Raised (unitId 2 0xFFF) s t) ∧
        (5 ≤ fget v 2 0 → t.get WRD_CTRL.RATE = s.get WRD_CTRL.RATE ∧ Raised (unitId 8 0xFFF) s t)) ∧
      (∀ d < 6, off = LNK_BUNDLE_CFG.reg d → s.get LNK_PKG.QUAD = 1 → d = s.get LNK_PKG.PX ∨ d = 2 + s.get LNK_PKG.PY →
        exec (.registerWrite iss off v) s = .next s) ∧
      (off = GLB_RESET.reg →
        (bit v.toNat 0 = true ∨ iss ≠ .i3c → exec (.registerWrite iss off v) s = exec (.glbResetWarm iss) s) ∧
        (bit v.toNat 0 = false → iss = .i3c → exec (.registerWrite iss off v) s = .next s)) ∧
      (∀ row, (off, row) ∈ [(HST_BUDDY.reg, Instr.buddyWrite iss v), (MGT_ROLE.reg, .mgtRoleWrite iss (fget v 1 0)),
          (RAS_LOG_SEL.reg, .rasLogSelWrite iss (fget v 47 0)), (QUE_FLUSH.reg, .queueFlushRequest iss v),
          (LNK_COORD.reg, .lnkCoordWrite iss false v), (LNK_TORUS.reg, .lnkCoordWrite iss true v),
          (SBD_LOSS_EMA.reg, .lossEmaWrite iss (bit v.toNat 32))] ∨
          (∃ a < 3, off = LNK_ROUTE.reg a ∧ row = .lnkRouteWrite iss a v) ∨ (∃ q < 64, off = QUE_Q_CFG.reg q ∧ row = .queueConfigWrite iss q v) ∨
          (∃ q < 64, off = QUE_Q_RING.reg q ∧ row = .queueRingWrite iss q v) ∨
          (∃ b < 2, off = SBD_BANK_T.reg b ∧ row = .sbdBankTWrite iss b (fget v 31 0)) ∨ (∃ n < 9, off = SYN_OP.reg n ∧ row = .synOpWrite iss n v) ∨
          (∃ n < 256, off = PWR_FN_CTRL.reg n ∧ row = if bit v.toNat 0 then .pwrFnEnable iss n else .pwrFnDisable iss n) →
        exec (.registerWrite iss off v) s = exec row s))

/-- COLD_RESET_ASSERT, COLD_RESET_RELEASE, FW_PUSH, FW_START, their broadcast CCCs and FW_VERIFY_DONE (R441, R442, R444, R447, R455,
R456, R467): a cold reset leaves the state of reset, the Wardrobe's devices and the fuses apart; the die then draws a nonce and waits for
firmware, verifies what is pushed, and runs it or says which check failed. -/
def Obligations.StartUp : Prop :=
  ∀ s : State,
    (∃ t, exec .coldResetAssert s = .next t ∧ t.coldLow = true ∧ t.wrd = s.wrd ∧ t.pending = s.pending ∧ t.railsOk = s.railsOk ∧
      t.tripped = s.tripped ∧ Same [.pending, .regs, .wrd, .bad, .coldLow, .railsOk, .dip, .tripped, .freeCtr] State.reset t ∧
      ∀ o, t.word o = if coldKeeps o then s.word o else resetWord o) ∧
    (s.coldLow = true → ∀ slot, ∃ t, exec (.coldResetRelease slot) s = .next t ∧ t.coldLow = false ∧ t.railsOk = true ∧ t.wrd = s.wrd ∧
      t.pending = s.pending ∧ t.get GLB_BOOT.STAGE = 0 ∧ t.get PWR_RT_STATUS.LOCK = 1 ∧ t.now = 0 ∧ t.pwr.running = true ∧
      t.get MGT_I3C.PID = (0x2E35 * 2 ^ 33 + s.get GLB_ID.PART * 2 ^ 16 + slot % 256 * 2 ^ 8 + s.get GLB_ID.PKG_DIE * 2 ^ 6) % 2 ^ 48 ∧
      t.sec = { hotJoin := 1 } ∧ t.get SEC_STATE.OWNER_ENTRY = s.keyEntry 0 ∧ t.get SEC_STATE.OPERATOR_ENTRY = s.keyEntry 1 ∧
      (∀ k < 4, t.word (SEC_BOOT_NONCE.reg (3 - k)) = BitVec.ofNat 64 (Config.freeNat (s.freeCtr + k))) ∧
      (∀ m < 6, ∀ h < 4, t.word (SEC_MEAS.reg m h) = 0)) ∧
    (s.live →
      (∀ slot, exec (.coldResetRelease slot) s = .next s) ∧
      (∀ (off : Nat) (data : List Byte) (row : Instr), row = .fwPush off data ∨ row = .fwpushCcc off data →
        (s.quiescing = true → exec row s = .next s) ∧
        (s.quiescing = false →
          (s.sec.op.isSome = true → ∃ t, exec row s = .next t ∧ Same [.sec] s t ∧ t.sec = { s.sec with status := 1 }) ∧
          (s.sec.op = none →
            (data.length = 0 ∨ 4096 < data.length →
              ∃ t, exec row s = .next t ∧ Same [.sec] s t ∧ t.sec = { s.sec with status := 5, data := [] }) ∧
            (1 ≤ data.length → data.length ≤ 4096 →
              (s.get GLB_BOOT.STAGE ≠ 0 ∨ 0x200000 < off + data.length → exec row s = .next s) ∧
              (s.get GLB_BOOT.STAGE = 0 → off + data.length ≤ 0x200000 →
                ∃ t, exec row s = .next t ∧ Same [.sec, .sram] s t ∧ t.sec = { s.sec with pushed := s.sec.pushed ++ [(off, data.length)] } ∧
                  Mem.rdN t.sram off data.length = data ∧ ∀ a, a < off ∨ off + data.length ≤ a → Mem.rd t.sram a = Mem.rd s.sram a))))) ∧
      (∀ row, row = Instr.fwStart ∨ row = .fwstartCcc →
        (s.quiescing = true → exec row s = .next s) ∧
        (s.quiescing = false → s.sec.op.isSome = true → ∃ t, exec row s = .next t ∧ Same [.sec] s t ∧ t.sec = { s.sec with status := 1 }) ∧
        (s.quiescing = false → s.sec.op = none →
          (s.get GLB_BOOT.STAGE = 0 →
            ∃ t, exec row s = .next t ∧ Same [.regs] s t ∧ RegsBut (· = GLB_BOOT.reg) s t ∧ t.get GLB_BOOT.STAGE = 1 ∧
              t.get GLB_BOOT.CODE = s.get GLB_BOOT.CODE) ∧
          (s.get GLB_BOOT.STAGE ≠ 0 → exec row s = .next s))) ∧
      (s.get GLB_BOOT.STAGE ≠ 1 → exec .fwVerifyDone s = .next s) ∧
      (s.get GLB_BOOT.STAGE = 1 →
        ∃ t, exec .fwVerifyDone s = .next t ∧ t.sram = s.sram ∧ t.wrd = s.wrd ∧ t.get GLB_BOOT.CODE = s.fwCheck ∧
          t.get GLB_BOOT.STAGE = (if s.fwCheck = 0 then 2 else 0) ∧
          t.get GLB_BOOT.FW_VERSION = (if s.fwCheck = 0 then s.fw 0xC 4 else s.get GLB_BOOT.FW_VERSION) ∧
          t.window (fun h => SEC_MEAS.reg 0 h) 4 =
            (if s.fwCheck = 0 then sm3 (s.window (fun h => SEC_MEAS.reg 0 h) 4 ++ s.fwDigest) else s.window (fun h => SEC_MEAS.reg 0 h) 4) ∧
          (s.fwCheck ≠ 0 → t.get MGT_ALERT.BOOT = 1 ∧ t.sp = s.sp ∧ t.ras = s.ras) ∧
          (s.fw 0 4 ≠ 0x49574644 ∨ s.fw 4 2 ≠ 1 ∨ s.fw 6 2 ≠ 64 ∨ 1572864 < s.fw 8 4 ∨ 64 < s.fw 0xC 4 ∨ s.sec.pushed = [] →
            t.get GLB_BOOT.CODE = 1) ∧
          (s.fwCheck = 0 → s.sec.warming = false → t.sp = [] ∧ t.shelf = [] ∧ t.ras = { s.ras with testWanted := true } ∧
            ∀ p ∈ s.wrdPorts, t.get (PWR_FN_CTRL.EN (64 + p)) = 1) ∧
          (s.fwCheck = 0 → s.sec.warming = true → t.sp = s.sp ∧ t.shelf = s.shelf ∧ t.ras = s.ras)))

/-- WARM_RESET_PIN, GLB_RESET_WARM, WARM_RESET_QUIESCED and WARM_RECOVERY_DONE (R165, R189, R191, R396, R432, R445, R446, R483): a warm
reset ends what is in progress, keeps every memory and register, and ends with each command that had started completed RESET; a write of
GLB_RESET by another role is refused, and a Wardrobe port whose retraining fails is brought up again before the recovery ends. -/
def Obligations.WarmResets : Prop :=
  ∀ s : State, s.live →
    (∀ ns, ns < 1000 → exec (.warmResetPin ns) s = .next s) ∧
    (∀ iss, iss ≠ .i3c → ∃ t, exec (.glbResetWarm iss) s = .next t ∧ Same [.regs, .ras] s t ∧ RegsBut (regsOf 13) s t ∧
      Raised (unitId 8 0xFFF) s t) ∧
    (s.sec.warming = true → (∀ ns, exec (.warmResetPin ns) s = .next s) ∧ exec (.glbResetWarm .i3c) s = .next s) ∧
    (∀ row cause ns, 1000 ≤ ns → row = Instr.warmResetPin ns ∧ cause = GLB_CAUSE.WARM_PIN ∨ row = .glbResetWarm .i3c ∧ cause = GLB_CAUSE.WARM_REG →
      s.sec.warming = false →
      ∃ t, exec row s = .next t ∧ Same [.regs, .fab, .ckp, .load, .sec, .links, .bundles, .wports] s t ∧
        RegsBut (fun o => regsOf 0 o ∨ regsOf 2 o ∨ regsOf 4 o ∨ regsOf 6 o ∨ regsOf 10 o ∨ regsOf 14 o ∨ o = SEC_AUTH_STATUS.reg) s t ∧
        t.get cause = 1 ∧ t.get GLB_CAUSE.WARM_COUNT = min 65535 (s.get GLB_CAUSE.WARM_COUNT + 1) ∧ t.sec.warming = true ∧ t.sec.quiesced = false ∧
        t.sec.warmSeen = true ∧ t.sec.pendMsg = none ∧ t.sec.quote = none ∧ t.get SEC_AUTH_STATUS.PENDING = 0 ∧ t.fab = {} ∧ t.load = none ∧
        t.get FAB_STATUS.IDLE = 1 ∧ t.get FAB_CTRL.ABORT = 0 ∧ t.ckp.want = none ∧ t.ckp.restore = none ∧ (∀ sn, t.ckp.snap = some sn → sn.sealedOwn = true) ∧
        (∀ l < 48, t.get (LNK_PORT_STATUS.STATE l) =
          (if s.get (LNK_PORT_STATUS.STATE l) = 1 ∨ s.get (LNK_PORT_STATUS.STATE l) = 2 then 3 else s.get (LNK_PORT_STATUS.STATE l))) ∧
        (∀ p ∈ s.wrdPorts, s.get (WRD_PORT_STATUS.STATE p) = 4 → t.get (WRD_PORT_STATUS.STATE p) = 6 ∧ (t.wport p).selfRef = true)) ∧
    (s.quiescing = false → exec .warmResetQuiesced s = .next s) ∧
    (s.quiescing = true →
      ∃ t, exec .warmResetQuiesced s = .next t ∧ t.sec.quiesced = true ∧ t.sec.warming = true ∧ t.wrd = s.wrd ∧ t.shelf = s.shelf ∧ t.sp = s.sp ∧
        t.qst = s.qst ∧ t.drw = s.drw ∧ t.sram = s.sram ∧ t.shadow = s.shadow ∧ t.resident = s.resident ∧ t.mesh = {} ∧ t.waits = [] ∧
        (s.sec.fwDigest ≠ [] → s.fwDigest = s.sec.fwDigest → t.get GLB_BOOT.STAGE = 2 ∧ t.get GLB_BOOT.CODE = s.get GLB_BOOT.CODE) ∧
        (s.fwDigest ≠ s.sec.fwDigest → t.get GLB_BOOT.STAGE = 0 ∧ t.get GLB_BOOT.CODE = 5)) ∧
    (∀ l, s.sec.warming = false ∨ s.sec.quiesced = false ∨ s.get GLB_BOOT.STAGE ≠ 2 → exec (.warmRecoveryDone l) s = .next s) ∧
    (s.sec.warming = true → s.sec.quiesced = true → s.get GLB_BOOT.STAGE = 2 →
      (∀ l p, p ∈ s.wrdPorts → p ∈ l → s.get (WRD_PORT_STATUS.STATE p) = 6 → (s.wport p).fails < 2 →
        ∃ t, exec (.warmRecoveryDone l) s = .next t ∧ t.sec.warming = true ∧ t.sec.quiesced = true ∧ t.hst = s.hst ∧
          (s.get WRD_STATUS.IN_SERVICE = 1 → t.get GLB_BOOT.STAGE = 2) ∧
          t.get (WRD_PORT_STATUS.STATE p) = 2 ∧ (t.wport p).step = 3 ∧ (t.wport p).fails = (s.wport p).fails + 1 ∧
          (t.get (WRD_PORT_STATUS.FAIL_STEP p) = 6 ∨ t.get (WRD_PORT_STATUS.FAIL_STEP p) = 7)) ∧
      (s.sec.updLost ≠ 1 → (∀ p ∈ s.wrdPorts, s.get (WRD_PORT_STATUS.STATE p) ≠ 2) →
        ∃ t, exec (.warmRecoveryDone []) s = .next t ∧ t.get GLB_BOOT.STAGE = 3 ∧
          t.sec = { s.sec with warming := false, quiesced := false, updLost := 0 } ∧
          (∀ p ∈ s.wrdPorts, s.get (WRD_PORT_STATUS.STATE p) = 6 → t.get (WRD_PORT_STATUS.STATE p) = 4 ∧ (t.wport p).selfRef = false) ∧
          (∀ l < 48, s.get (LNK_PORT_STATUS.STATE l) = 3 → s.get (PWR_FN_CTRL.STATUS (96 + l)) = 2 → (s.link l).out = false →
            t.get (LNK_PORT_STATUS.STATE l) = 1) ∧
          (s.sec.updLost = 2 → t.get SBD_STATUS.STATE = 5 ∧ t.ckp.due = true) ∧
          ((∀ x ∈ s.hst.recs, ∀ y ∈ s.hst.recs, x.ch = y.ch → x.seq = y.seq → x = y) →
            ∀ r ∈ s.hst.recs, r.st = 2 → Finished r.ch r.seq 0x3C t)))

/-- AUTH_GO, AUTHORIZE, AUTH_PENDING_EXPIRE, QUOTE_GO, QUOTE, QUOTE_DONE, MGT_ROLE_WRITE and TELEM_CAPTURE (R447, R448, R450 to R452,
R458): a message is judged, held as a first half, or applied with its pair; a quote captures the state before it is signed. -/
def Obligations.AuthorizationAndQuotes : Prop :=
  ∀ (s : State) (iss : Issuer), s.live →
    (∀ (m : List Byte) (c : Nat), m = s.window SEC_AUTH_MSG.reg 32 → c = s.authCheck m (iss == .i3c) →
      ∃ t, exec (.authGo iss) s = .next t ∧ t.get MGT_ALERT.AUTH = 1 ∧
        (leAt m 0 4 ≠ 0x54554153 ∨ leAt m 4 2 ≠ 1 → t.get SEC_AUTH_STATUS.RESULT = 2) ∧
        (c ≠ 0 → Same [.regs, .sec] s t ∧ RegsBut (fun o => o = SEC_AUTH_STATUS.reg ∨ o = MGT_ALERT.reg) s t ∧
          t.get SEC_AUTH_STATUS.RESULT = c ∧ t.get SEC_AUTH_STATUS.PENDING = s.get SEC_AUTH_STATUS.PENDING ∧ t.sec.pendMsg = s.sec.pendMsg) ∧
        (c = 0 → leAt m 0x50 1 ≠ 5 →
          (s.pendNow = none ∨ (∃ p, s.pendNow = some p ∧ leAt p 6 1 = leAt m 6 1) →
            t.get SEC_AUTH_STATUS.RESULT = 1 ∧ t.get SEC_AUTH_STATUS.PENDING = leAt m 6 1 ∧ t.sec.pendMsg = some m ∧
            t.get SEC_AUTH_SEQ.SEQ = s.get SEC_AUTH_SEQ.SEQ) ∧
          (∀ p, s.pendNow = some p → leAt p 6 1 ≠ leAt m 6 1 → t.sec.pendMsg = none ∧ t.get SEC_AUTH_STATUS.PENDING = 0 ∧
            (mBytes p 8 16 ≠ mBytes m 8 16 ∨ mBytes p 0x28 0x58 ≠ mBytes m 0x28 0x58 → t.get SEC_AUTH_STATUS.RESULT = 9) ∧
            (mBytes p 8 16 = mBytes m 8 16 → mBytes p 0x28 0x58 = mBytes m 0x28 0x58 →
              (leAt m 0x50 1 = 4 → s.get SEC_STATE.MIN_VERSION < leAt m 0x60 1 → leAt m 0x60 1 ≤ s.get GLB_BOOT.FW_VERSION →
                t.get SEC_AUTH_STATUS.RESULT = 0 ∧ t.get SEC_STATE.MIN_VERSION = leAt m 0x60 1 ∧ t.get SEC_AUTH_SEQ.SEQ = leAt m 0x10 8 ∧
                t.window (fun h => SEC_MEAS.reg 1 h) 4 = sm3 (s.window (fun h => SEC_MEAS.reg 1 h) 4 ++
                  (if leAt m 6 1 = 1 then m.take 0x80 ++ p.take 0x80 else p.take 0x80 ++ m.take 0x80))) ∧
              (leAt m 0x50 1 = 4 → leAt m 0x60 1 ≤ s.get SEC_STATE.MIN_VERSION ∨ s.get GLB_BOOT.FW_VERSION < leAt m 0x60 1 →
                t.get SEC_AUTH_STATUS.RESULT = 12 ∧ t.get SEC_AUTH_SEQ.SEQ = s.get SEC_AUTH_SEQ.SEQ) ∧
              (leAt m 0x50 1 = 1 → s.get FAB_WRD_LIMIT.LIMIT < s.get SEC_AUTH_CTRL.SETUP_ADDR + 1296 →
                t.get SEC_AUTH_STATUS.RESULT = 10 ∧ t.get SEC_AUTH_SEQ.SEQ = s.get SEC_AUTH_SEQ.SEQ))))) ∧
    (∀ ch r, Ready s ch r → r.op = 0x39 →
      (r.zeros [(8, 40)] = false → ∃ t, exec (.authorize ch) s = .next t ∧ Same [.hst, .freeCtr] s t ∧ Ended r 0x36 t) ∧
      (r.zeros [(8, 40)] = true → r.body.length ≠ 256 → ∃ t, exec (.authorize ch) s = .next t ∧ Same [.hst, .freeCtr] s t ∧ Ended r 0x37 t) ∧
      (r.zeros [(8, 40)] = true → r.body.length = 256 →
        ∃ t k, exec (.authorize ch) s = .next t ∧ EndedAs r (fun x => x.status = 0 ∧ x.result = k) t ∧ t.get SEC_AUTH_STATUS.RESULT = k ∧
          t.get MGT_ALERT.AUTH = 1 ∧ (s.authCheck r.body false ≠ 0 → k = s.authCheck r.body false) ∧
          (s.authCheck r.body false = 0 → s.pendNow = none → leAt r.body 0x50 1 ≠ 5 → k = 1 ∧ t.sec.pendMsg = some r.body))) ∧
    (∀ ch r, Ready s ch r → r.op ≠ 0x39 → exec (.authorize ch) s = .next s) ∧
    (∀ m, s.sec.pendMsg = some m →
      (s.now ≤ leAt m 0x20 8 → exec .authPendingExpire s = .next s) ∧
      (leAt m 0x20 8 < s.now → ∃ t, exec .authPendingExpire s = .next t ∧ Same [.regs, .sec] s t ∧ RegsBut (· = SEC_AUTH_STATUS.reg) s t ∧
        t.get SEC_AUTH_STATUS.PENDING = 0 ∧ t.sec = { s.sec with pendMsg := none })) ∧
    (s.sec.pendMsg = none → exec .authPendingExpire s = .next s) ∧
    (s.sec.quote = none →
      ∃ t l, exec (.quoteGo iss) s = .next t ∧ Same [.regs, .sec] s t ∧ RegsBut (· = SEC_QUOTE_CTRL.reg) s t ∧ t.get SEC_QUOTE_CTRL.DONE = 0 ∧
        t.sec = { s.sec with quote := some (l, none) } ∧ l.length = 0x140 ∧ leAt l 0 4 = 0x45545144 ∧ leAt l 4 2 = 1 ∧
        leAt l 8 8 = s.get GLB_SERIAL.SERIAL ∧ leAt l 0x10 8 = s.now ∧ leAt l 0x18 2 = s.domain ∧
        mBytes l 0x20 32 = s.window SEC_QUOTE_NONCE.reg 4 ∧ mBytes l 0x40 32 = s.window SEC_BOOT_NONCE.reg 4 ∧
        leAt l 0x60 8 = s.get SEC_AUTH_SEQ.SEQ ∧ leAt l 0x68 1 = s.get SEC_STATE.MIN_VERSION ∧ leAt l 0x69 1 = s.get SEC_STATE.OWNER_ENTRY ∧
        ∀ n < 6, mBytes l (0x80 + 32 * n) 32 = s.window (fun h => SEC_MEAS.reg n h) 4) ∧
    (s.sec.quote.isSome = true →
      (∃ t, exec (.quoteGo iss) s = .next t ∧ Same [.regs, .sec] s t ∧ t.get SEC_QUOTE_CTRL.DONE = 0 ∧ t.sec = { s.sec with goWait := true }) ∧
      ∀ ch, exec (.quote ch) s = .next s) ∧
    (∀ ch r, s.sec.quote = none → Ready s ch r → r.op = 0x38 →
      (r.zeros [(32, 16)] = false → ∃ t, exec (.quote ch) s = .next t ∧ Same [.hst, .freeCtr] s t ∧ Ended r 0x36 t) ∧
      (r.zeros [(32, 16)] = true → r.body ≠ [] → ∃ t, exec (.quote ch) s = .next t ∧ Same [.hst, .freeCtr] s t ∧ Ended r 0x37 t) ∧
      (r.zeros [(32, 16)] = true → r.body = [] →
        ∃ t l, exec (.quote ch) s = .next t ∧ Same [.hst, .sec] s t ∧ t.sec = { s.sec with quote := some (l, some (ch, r.seq)) } ∧
          l = s.quoteBytes (mBytes r.hdr 0x30 32) ∧ t.hst.recs = (s.begin r).hst.recs)) ∧
    (s.sec.quote = none → exec .quoteDone s = .next s) ∧
    (∀ l, s.sec.quote = some (l, none) → s.sec.goWait = false → l.length = 0x140 →
      ∃ t, exec .quoteDone s = .next t ∧ Same [.regs, .sec, .freeCtr] s t ∧ t.sec = { s.sec with quote := none } ∧
        t.get SEC_QUOTE_CTRL.DONE = 1 ∧ ∀ k < 40, (t.word (SEC_QUOTE_OUT.reg k)).toNat = leNat ((l.drop (8 * k)).take 8)) ∧
    (∀ l c q y, s.sec.quote = some (l, some (c, q)) → s.sec.goWait = false → l.length = 0x140 → s.rec? c q = some y → y.st ≠ 3 →
      ∃ t, exec .quoteDone s = .next t ∧ t.sec = { s.sec with quote := none } ∧
        ∃ x ∈ t.hst.recs, x.ch = c ∧ x.seq = q ∧ x.st = 3 ∧ x.status = 0 ∧ x.cbody.length = 384 ∧ x.cbody.take 0x140 = l) ∧
    (∀ l, s.sec.quote = some (l, none) → s.sec.goWait = true → l.length = 0x140 →
      ∃ t, exec .quoteDone s = .next t ∧ Same [.regs, .sec, .freeCtr] s t ∧ t.get SEC_QUOTE_CTRL.DONE = 0 ∧
        t.sec = { s.sec with quote := some (s.quoteBytes (s.window SEC_QUOTE_NONCE.reg 4), none), goWait := false }) ∧
    (∀ role, 3 ≤ role → ∃ t, exec (.mgtRoleWrite iss role) s = .next t ∧ Same [.regs, .ras] s t ∧ RegsBut (regsOf 13) s t ∧
      Raised (unitId 8 0xFFF) s t) ∧
    (∀ role, role < 3 → ∃ t, exec (.mgtRoleWrite iss role) s = .next t ∧ Same [.regs, .ras] s t ∧
      RegsBut (fun o => o = MGT_ROLE.reg ∨ regsOf 13 o ∨ ∃ e < 8, o = PWR_FN_CTRL.reg (144 + e)) s t ∧ t.get MGT_ROLE.ROLE = role ∧
      ∀ e < 8, (role = 1 → t.get (PWR_FN_CTRL.EN (144 + e)) = 1) ∧
        (role ≠ 1 → s.get (PWR_FN_CTRL.CLAIMED (144 + e)) = 0 → t.get (PWR_FN_CTRL.EN (144 + e)) = 0) ∧
        (role ≠ 1 → s.get (PWR_FN_CTRL.CLAIMED (144 + e)) = 1 → s.get (PWR_FN_CTRL.EN (144 + e)) = 1 →
          t.get (PWR_FN_CTRL.EN (144 + e)) = 1 ∧ (SMap.find? t.ras.latches (unitId 4 e)).isSome = true)) ∧
    (∃ t, exec (.telemCapture iss) s = .next t ∧ Same [.regs] s t ∧ RegsBut (fun o => ∃ k < 8, o = MGT_TELEM.reg k) s t ∧
      (List.range 8).map (fun k => t.word (MGT_TELEM.reg k)) =
        [s.word PWR_RT_COUNT.reg, s.word PWR_SENSE.reg, s.word PWR_POWER.reg, s.word PWR_BEAT_RATE.reg, s.word RAS_STATUS.reg,
          s.word FAB_STATUS.reg, s.word RED_VOTE_STATUS.reg, s.word HST_STATUS.reg])

/-- I3C_READ, I3C_WRITE, I3C_PRIVATE_READ and the CCCs (R443, R455, R456): a frame is carried out, turned away with its STATUS, or
discarded; a private read reports it. The layouts of GETMWL, GETMRL and the enable bit of ENEC are those of the I3C standard (log 6). -/
def Obligations.ManagementFrames : Prop :=
  ∀ s : State, s.live →
    (∀ (addr len : Nat) (data : List Byte) (row : Instr) (w : Bool),
      (row = .i3cRead addr len ∧ w = false ∨ row = .i3cWrite addr data ∧ data.length = len ∧ s.quiescing = false ∧ w = true) →
      (s.sec.op.isSome = true → ∃ t, exec row s = .next t ∧ Same [.sec] s t ∧ t.sec = { s.sec with status := 1 }) ∧
      (s.sec.op = none →
        (len = 0 ∨ 4096 < len → ∃ t, exec row s = .next t ∧ Same [.sec] s t ∧ t.sec = { s.sec with status := 5, data := [] }) ∧
        (1 ≤ len → len ≤ 4096 → addr < regBase → 2 ≤ s.get GLB_BOOT.STAGE → s.mustWait w addr len = true → exec row s = .next s) ∧
        (1 ≤ len → len ≤ 4096 → addr + len ≤ shelfBase →
          (s.get GLB_BOOT.STAGE < 2 →
            ∃ t, exec row s = .next t ∧ Same [.sec] s t ∧ t.sec.op = none ∧ t.sec.status = 3) ∧
          (2 ≤ s.get GLB_BOOT.STAGE → s.get WRD_BOARD.DIE = 0 → s.get WRD_STATUS.IN_SERVICE = 1 → addr + len ≤ s.get FAB_WRD_LIMIT.LIMIT →
            s.bad = [] →
            (w = false →
              ∃ t, exec row s = .next t ∧ Same [.sec, .wports] s t ∧ t.sec = { s.sec with status := 0, data := Mem.rdN s.wrd addr len }) ∧
            (w = true → s.ckp.snap = none →
              ∃ t, exec row s = .next t ∧ Same [.sec, .wrd, .wports] s t ∧ t.sec = { s.sec with status := 0, data := [] } ∧
                Mem.rdN t.wrd addr len = data ∧ ∀ a, a < addr ∨ addr + len ≤ a → Mem.rd t.wrd a = Mem.rd s.wrd a))) ∧
        (∀ tile p off, addr = spAddr tile off → s.phys tile = some p → off + len ≤ 0xC0000 → 1 ≤ len → len ≤ 4096 → 2 ≤ s.get GLB_BOOT.STAGE →
          s.get WRD_BOARD.DIE = 0 → s.bad = [] → w = false → s.mustWait false addr len = false →
          ∃ t, exec row s = .next t ∧ Same [.sec] s t ∧ t.sec = { s.sec with status := 0, data := Mem.rdN s.sp (p * 0xC0000 + off) len }))) ∧
    (∀ off, off < 0x110000 → off % 8 = 0 → s.sec.op = none → s.get WRD_BOARD.DIE = 0 → 2 ≤ s.get GLB_BOOT.STAGE ∨ earlyBlock off = true →
      ∃ t, exec (.i3cRead (regBase + off) 8) s = .next t ∧ Same [.sec] s t ∧
        t.sec = { s.sec with status := 0, data := leBytes 8 (s.regValue off) }) ∧
    (∀ off, off < 0x110000 → off % 8 ≠ 0 → s.sec.op = none →
      ∃ t, exec (.i3cRead (regBase + off) 8) s = .next t ∧ Same [.sec] s t ∧ t.sec.status = 3) ∧
    (s.quiescing = true → ∀ addr data, exec (.i3cWrite addr data) s = .next s) ∧
    (∃ t, exec .i3cPrivateRead s = .next t ∧ Same [.sec] s t ∧
      (s.sec.op.isSome = true → t.sec = { s.sec with ccc := [1, 0, 0] }) ∧
      (s.sec.op = none → t.sec = { s.sec with ccc := leBytes 1 s.sec.status ++ leBytes 2 s.sec.data.length ++ s.sec.data })) ∧
    (∀ ev, (bit ev 0 = true →
        (∃ t, exec (.enec ev) s = .next t ∧ Same [.sec] s t ∧ t.sec = { s.sec with ibiOn := true }) ∧
        (∃ t, exec (.disec ev) s = .next t ∧ Same [.sec] s t ∧ t.sec = { s.sec with ibiOn := false })) ∧
      (bit ev 0 = false → exec (.enec ev) s = .next s ∧ exec (.disec ev) s = .next s)) ∧
    (∀ a, a < 128 → ∀ row on, row = Instr.entdaa a ∧ on = 0 ∨ row = .setnewda a ∧ on = 1 →
      (s.get MGT_I3C.ASSIGNED = on →
        ∃ t, exec row s = .next t ∧ Same [.regs] s t ∧ RegsBut (· = MGT_I3C.reg) s t ∧ t.get MGT_I3C.DYN_ADDR = a ∧ t.get MGT_I3C.ASSIGNED = 1 ∧
          t.get MGT_I3C.PID = s.get MGT_I3C.PID) ∧
      (s.get MGT_I3C.ASSIGNED = 1 - on → exec row s = .next s)) ∧
    (∃ t, exec .rstdaa s = .next t ∧ Same [.regs] s t ∧ RegsBut (· = MGT_I3C.reg) s t ∧ t.get MGT_I3C.DYN_ADDR = 0 ∧ t.get MGT_I3C.ASSIGNED = 0) ∧
    (∀ n, n < 65536 →
      (∃ t, exec (.setmwl n) s = .next t ∧ Same [.sec] s t ∧ t.sec = { s.sec with mwl := n }) ∧
      (∃ t, exec (.setmrl n) s = .next t ∧ Same [.sec] s t ∧ t.sec = { s.sec with mrl := n })) ∧
    (∀ row l, (row, l) ∈ [(Instr.getmwl, (leBytes 2 s.sec.mwl).reverse), (.getmrl, (leBytes 2 s.sec.mrl).reverse ++ [3]),
        (.getpid, (leBytes 6 (s.get MGT_I3C.PID)).reverse), (.getbcr, [6]), (.getdcr, [0])] →
      (s.get MGT_I3C.ASSIGNED = 1 → ∃ t, exec row s = .next t ∧ Same [.sec] s t ∧ t.sec = { s.sec with ccc := l }) ∧
      (s.get MGT_I3C.ASSIGNED = 0 → exec row s = .next s)) ∧
    (s.get MGT_I3C.ASSIGNED = 1 →
      ∃ t, exec .getstatus s = .next t ∧ Same [.sec, .freeCtr] s t ∧ t.sec = { s.sec with ccc := leBytes 2 (Config.freeNat s.freeCtr) }) ∧
    (∀ a, a < 256 → ∃ t, exec (.rstact a) s = .next t ∧ Same [.sec] s t ∧ t.sec = { s.sec with rstAct := a })
end

