-- ==== Sys2Proof/Laws/Map.lean ====
section
/-! SUPPORT. Reading after writing in a sparse map and in a memory, and that every operation on them keeps the
canonical form. -/

namespace Sys2Proof.Machine

variable {α : Type}

theorem SMap.find?_insert (m : SMap α) (x y : Nat) (v : α) :
    SMap.find? (SMap.insert m x v) y = if y = x then some v else SMap.find? m y := by
  induction m with
  | nil => simp [SMap.insert, SMap.find?]
  | cons e t ih =>
    obtain ⟨k, w⟩ := e
    simp only [SMap.insert]
    split
    · simp only [SMap.find?]
    · split
      · subst_vars; by_cases h : y = k <;> simp [SMap.find?, h]
      · simp only [SMap.find?, ih]
        by_cases h : y = k
        · subst h; simp_all [eq_comm]
        · simp [h]

theorem SMap.find?_erase (m : SMap α) (x y : Nat) :
    SMap.find? (SMap.erase m x) y = if y = x then none else SMap.find? m y := by
  induction m with
  | nil => simp [SMap.erase, SMap.find?]
  | cons e t ih =>
    obtain ⟨k, w⟩ := e
    simp only [SMap.erase]
    split
    · subst_vars
      by_cases h : y = k
      · simpa [h] using ih
      · simp [SMap.find?, ih, h]
    · simp only [SMap.find?, ih]
      by_cases h : y = k
      · subst h; simp_all [eq_comm]
      · simp [h]

/-- A key that has been written reads as written, every other key as before. -/
theorem SMap.get_set [DecidableEq α] (m : SMap α) (d : α) (x y : Nat) (v : α) (d' : α) (h : y = x → d' = d) :
    SMap.get (SMap.set m d x v) d' y = if y = x then v else SMap.get m d' y := by
  unfold SMap.get SMap.set
  split <;> rename_i hv
  · rw [SMap.find?_erase]
    split
    · subst hv; simp [h ‹_›]
    · rfl
  · rw [SMap.find?_insert]; split <;> rfl

@[simp] theorem SMap.get_set_same [DecidableEq α] (m : SMap α) (d : α) (x : Nat) (v : α) :
    SMap.get (SMap.set m d x v) d x = v := by simp [SMap.get_set]

theorem SMap.get_set_other [DecidableEq α] (m : SMap α) (d d' : α) (x y : Nat) (v : α) (h : y ≠ x) :
    SMap.get (SMap.set m d x v) d' y = SMap.get m d' y := by
  rw [SMap.get_set _ _ _ _ _ _ (fun e => absurd e h), if_neg h]

/-- The keys of a map with one key written. -/
theorem SMap.mem_insert (m : SMap α) (x : Nat) (v : α) (e : Nat × α) (h : e ∈ SMap.insert m x v) :
    e = (x, v) ∨ e ∈ m := by
  induction m with
  | nil => simp_all [SMap.insert]
  | cons a t ih =>
    obtain ⟨k, w⟩ := a
    simp only [SMap.insert] at h
    split at h
    · simpa using h
    · split at h
      · rcases List.mem_cons.1 h with h | h
        · exact .inl h
        · exact .inr (List.mem_cons_of_mem _ h)
      · rcases List.mem_cons.1 h with h | h
        · exact .inr (by simp [h])
        · rcases ih h with h | h
          · exact .inl h
          · exact .inr (List.mem_cons_of_mem _ h)

theorem SMap.erase_sublist (m : SMap α) (x : Nat) : (SMap.erase m x).Sublist m := by
  induction m with
  | nil => exact List.Sublist.slnil
  | cons a t ih =>
    obtain ⟨k, w⟩ := a
    simp only [SMap.erase]
    split
    · exact ih.cons _
    · exact ih.cons_cons _

/-- The canonical form, part by part. -/
theorem SMap.wf_cons [DecidableEq α] (d : Nat → α) (k : Nat) (v : α) (t : SMap α) :
    SMap.wf d ((k, v) :: t) = true ↔ v ≠ d k ∧ (∀ e ∈ t, k < e.1) ∧ SMap.wf d t = true := by
  simp [SMap.wf, and_assoc]

/-- A part of a canonical map is canonical. -/
theorem SMap.wf_sublist [DecidableEq α] (d : Nat → α) {m n : SMap α} (h : n.Sublist m) (hm : SMap.wf d m = true) :
    SMap.wf d n = true := by
  induction h with
  | slnil => rfl
  | @cons l₁ l₂ a _ ih =>
    obtain ⟨k, v⟩ := a
    exact ih ((SMap.wf_cons d k v _).1 hm).2.2
  | @cons_cons l₁ l₂ a hs ih =>
    obtain ⟨k, v⟩ := a
    obtain ⟨h1, h2, h3⟩ := (SMap.wf_cons d k v _).1 hm
    exact (SMap.wf_cons d k v _).2 ⟨h1, fun e he => h2 e (hs.subset he), ih h3⟩

theorem SMap.wf_insert [DecidableEq α] (d : Nat → α) (m : SMap α) (x : Nat) (v : α) (hv : v ≠ d x)
    (hm : SMap.wf d m = true) : SMap.wf d (SMap.insert m x v) = true := by
  induction m with
  | nil => simp [SMap.insert, SMap.wf, hv]
  | cons a t ih =>
    obtain ⟨k, w⟩ := a
    obtain ⟨h1, h2, h3⟩ := (SMap.wf_cons d k w t).1 hm
    simp only [SMap.insert]
    split
    · rename_i hx
      refine (SMap.wf_cons d x v _).2 ⟨hv, ?_, hm⟩
      intro e he
      rcases List.mem_cons.1 he with rfl | he
      · exact hx
      · exact hx.trans (h2 e he)
    · split
      · subst_vars; exact (SMap.wf_cons d _ v _).2 ⟨hv, h2, h3⟩
      · rename_i hlt hne
        refine (SMap.wf_cons d k w _).2 ⟨h1, ?_, ih h3⟩
        intro e he
        rcases SMap.mem_insert t x v e he with rfl | he
        · simp only; omega
        · exact h2 e he

/-- Writing a key keeps the canonical form. -/
theorem SMap.wf_set [DecidableEq α] (d : Nat → α) (m : SMap α) (x : Nat) (v : α) (hm : SMap.wf d m = true) :
    SMap.wf d (SMap.set m (d x) x v) = true := by
  unfold SMap.set
  split
  · exact SMap.wf_sublist d (SMap.erase_sublist m x) hm
  · exact SMap.wf_insert d m x v ‹_› hm

/-! ## Memories -/

/-- A byte that has been written reads as written, every other byte as before. -/
theorem Mem.rd_wr (m : Mem) (a b : Nat) (v : Byte) : Mem.rd (Mem.wr m a v) b = if b = a then v else Mem.rd m b :=
  SMap.get_set m 0 a b v 0 (fun _ => rfl)

theorem Mem.wf_wr (m : Mem) (a : Nat) (v : Byte) (h : Mem.wf m = true) : Mem.wf (Mem.wr m a v) = true :=
  SMap.wf_set (fun _ => (0 : Byte)) m a v h

theorem Mem.wf_wrN (l : List Byte) : ∀ (m : Mem) (a : Nat), Mem.wf m = true → Mem.wf (Mem.wrN m a l) = true := by
  induction l with
  | nil => intro m a h; exact h
  | cons b t ih => intro m a h; exact ih _ _ (Mem.wf_wr m a b h)

/-- Bytes below and above a written range read as before. -/
theorem Mem.rd_wrN_other (l : List Byte) : ∀ (m : Mem) (a b : Nat), (b < a ∨ a + l.length ≤ b) →
    Mem.rd (Mem.wrN m a l) b = Mem.rd m b := by
  induction l with
  | nil => intro m a b _; rfl
  | cons v t ih =>
    intro m a b h
    simp only [List.length_cons] at h
    rw [Mem.wrN, ih _ _ _ (by omega), Mem.rd_wr, if_neg (by omega)]

/-- A written range reads as it was written. -/
theorem Mem.rdN_wrN (l : List Byte) : ∀ (m : Mem) (a : Nat), Mem.rdN (Mem.wrN m a l) a l.length = l := by
  induction l with
  | nil => intro m a; rfl
  | cons v t ih =>
    intro m a
    simp only [List.length_cons, Mem.rdN, Mem.wrN, ih]
    rw [Mem.rd_wrN_other _ _ _ _ (by omega), Mem.rd_wr, if_pos rfl]

theorem Mem.wf_clr (m : Mem) (a n : Nat) (h : Mem.wf m = true) : Mem.wf (Mem.clr m a n) = true :=
  SMap.wf_sublist _ List.filter_sublist h

theorem Mem.wf_slice (m : Mem) (a n : Nat) (h : Mem.wf m = true) : Mem.wf (Mem.slice m a n) = true :=
  SMap.wf_sublist _ List.filter_sublist h

theorem Mem.wf_copy (src dst : Mem) (a b n : Nat) (h : Mem.wf dst = true) : Mem.wf (Mem.copy src a dst b n) = true := by
  unfold Mem.copy
  have key : ∀ (l : Mem) (m : Mem), Mem.wf m = true →
      Mem.wf (l.foldl (fun m e => Mem.wr m (e.1 - a + b) e.2) m) = true := by
    intro l
    induction l with
    | nil => intro m hm; exact hm
    | cons e t ih => intro m hm; exact ih _ (Mem.wf_wr m _ _ hm)
  exact key _ _ (Mem.wf_clr dst b n h)

end Sys2Proof.Machine
end

