-- ==== Sys2Proof/Laws/State.lean ====
section
/-! SUPPORT. What each named update of the state does to each field: the field it writes aside, none changes. -/

namespace Sys2Proof.Machine

@[simp] theorem State.withPending_regs (s : State) (l : List Instr) : (s.withPending l).regs = s.regs := (rfl)
@[simp] theorem State.withPending_shadow (s : State) (l : List Instr) : (s.withPending l).shadow = s.shadow := (rfl)
@[simp] theorem State.withPending_boardPending (s : State) (l : List Instr) : (s.withPending l).boardPending = s.boardPending := (rfl)
@[simp] theorem State.withPending_wrd (s : State) (l : List Instr) : (s.withPending l).wrd = s.wrd := (rfl)
@[simp] theorem State.withPending_shelf (s : State) (l : List Instr) : (s.withPending l).shelf = s.shelf := (rfl)
@[simp] theorem State.withPending_sp (s : State) (l : List Instr) : (s.withPending l).sp = s.sp := (rfl)
@[simp] theorem State.withPending_qst (s : State) (l : List Instr) : (s.withPending l).qst = s.qst := (rfl)
@[simp] theorem State.withPending_drw (s : State) (l : List Instr) : (s.withPending l).drw = s.drw := (rfl)
@[simp] theorem State.withPending_sram (s : State) (l : List Instr) : (s.withPending l).sram = s.sram := (rfl)
@[simp] theorem State.withPending_bad (s : State) (l : List Instr) : (s.withPending l).bad = s.bad := (rfl)
@[simp] theorem State.withPending_coldLow (s : State) (l : List Instr) : (s.withPending l).coldLow = s.coldLow := (rfl)
@[simp] theorem State.withPending_railsOk (s : State) (l : List Instr) : (s.withPending l).railsOk = s.railsOk := (rfl)
@[simp] theorem State.withPending_dip (s : State) (l : List Instr) : (s.withPending l).dip = s.dip := (rfl)
@[simp] theorem State.withPending_tripped (s : State) (l : List Instr) : (s.withPending l).tripped = s.tripped := (rfl)
@[simp] theorem State.withPending_pwr (s : State) (l : List Instr) : (s.withPending l).pwr = s.pwr := (rfl)
@[simp] theorem State.withPending_mesh (s : State) (l : List Instr) : (s.withPending l).mesh = s.mesh := (rfl)
@[simp] theorem State.withPending_load (s : State) (l : List Instr) : (s.withPending l).load = s.load := (rfl)
@[simp] theorem State.withPending_resident (s : State) (l : List Instr) : (s.withPending l).resident = s.resident := (rfl)
@[simp] theorem State.withPending_staged (s : State) (l : List Instr) : (s.withPending l).staged = s.staged := (rfl)
@[simp] theorem State.withPending_fab (s : State) (l : List Instr) : (s.withPending l).fab = s.fab := (rfl)
@[simp] theorem State.withPending_benches (s : State) (l : List Instr) : (s.withPending l).benches = s.benches := (rfl)
@[simp] theorem State.withPending_wports (s : State) (l : List Instr) : (s.withPending l).wports = s.wports := (rfl)
@[simp] theorem State.withPending_remote (s : State) (l : List Instr) : (s.withPending l).remote = s.remote := (rfl)
@[simp] theorem State.withPending_nextTag (s : State) (l : List Instr) : (s.withPending l).nextTag = s.nextTag := (rfl)
@[simp] theorem State.withPending_queues (s : State) (l : List Instr) : (s.withPending l).queues = s.queues := (rfl)
@[simp] theorem State.withPending_upd (s : State) (l : List Instr) : (s.withPending l).upd = s.upd := (rfl)
@[simp] theorem State.withPending_red (s : State) (l : List Instr) : (s.withPending l).red = s.red := (rfl)
@[simp] theorem State.withPending_links (s : State) (l : List Instr) : (s.withPending l).links = s.links := (rfl)
@[simp] theorem State.withPending_bundles (s : State) (l : List Instr) : (s.withPending l).bundles = s.bundles := (rfl)
@[simp] theorem State.withPending_lnkIn (s : State) (l : List Instr) : (s.withPending l).lnkIn = s.lnkIn := (rfl)
@[simp] theorem State.withPending_opens (s : State) (l : List Instr) : (s.withPending l).opens = s.opens := (rfl)
@[simp] theorem State.withPending_cells (s : State) (l : List Instr) : (s.withPending l).cells = s.cells := (rfl)
@[simp] theorem State.withPending_waits (s : State) (l : List Instr) : (s.withPending l).waits = s.waits := (rfl)
@[simp] theorem State.withPending_slots (s : State) (l : List Instr) : (s.withPending l).slots = s.slots := (rfl)
@[simp] theorem State.withPending_hst (s : State) (l : List Instr) : (s.withPending l).hst = s.hst := (rfl)
@[simp] theorem State.withPending_ras (s : State) (l : List Instr) : (s.withPending l).ras = s.ras := (rfl)
@[simp] theorem State.withPending_ckp (s : State) (l : List Instr) : (s.withPending l).ckp = s.ckp := (rfl)
@[simp] theorem State.withPending_sec (s : State) (l : List Instr) : (s.withPending l).sec = s.sec := (rfl)
@[simp] theorem State.withPending_freeCtr (s : State) (l : List Instr) : (s.withPending l).freeCtr = s.freeCtr := (rfl)

@[simp] theorem State.setWord_pending (s : State) (o : Nat) (w : Word) : (s.setWord o w).pending = s.pending := (rfl)
@[simp] theorem State.setWord_shadow (s : State) (o : Nat) (w : Word) : (s.setWord o w).shadow = s.shadow := (rfl)
@[simp] theorem State.setWord_boardPending (s : State) (o : Nat) (w : Word) : (s.setWord o w).boardPending = s.boardPending := (rfl)
@[simp] theorem State.setWord_wrd (s : State) (o : Nat) (w : Word) : (s.setWord o w).wrd = s.wrd := (rfl)
@[simp] theorem State.setWord_shelf (s : State) (o : Nat) (w : Word) : (s.setWord o w).shelf = s.shelf := (rfl)
@[simp] theorem State.setWord_sp (s : State) (o : Nat) (w : Word) : (s.setWord o w).sp = s.sp := (rfl)
@[simp] theorem State.setWord_qst (s : State) (o : Nat) (w : Word) : (s.setWord o w).qst = s.qst := (rfl)
@[simp] theorem State.setWord_drw (s : State) (o : Nat) (w : Word) : (s.setWord o w).drw = s.drw := (rfl)
@[simp] theorem State.setWord_sram (s : State) (o : Nat) (w : Word) : (s.setWord o w).sram = s.sram := (rfl)
@[simp] theorem State.setWord_bad (s : State) (o : Nat) (w : Word) : (s.setWord o w).bad = s.bad := (rfl)
@[simp] theorem State.setWord_coldLow (s : State) (o : Nat) (w : Word) : (s.setWord o w).coldLow = s.coldLow := (rfl)
@[simp] theorem State.setWord_railsOk (s : State) (o : Nat) (w : Word) : (s.setWord o w).railsOk = s.railsOk := (rfl)
@[simp] theorem State.setWord_dip (s : State) (o : Nat) (w : Word) : (s.setWord o w).dip = s.dip := (rfl)
@[simp] theorem State.setWord_tripped (s : State) (o : Nat) (w : Word) : (s.setWord o w).tripped = s.tripped := (rfl)
@[simp] theorem State.setWord_pwr (s : State) (o : Nat) (w : Word) : (s.setWord o w).pwr = s.pwr := (rfl)
@[simp] theorem State.setWord_mesh (s : State) (o : Nat) (w : Word) : (s.setWord o w).mesh = s.mesh := (rfl)
@[simp] theorem State.setWord_load (s : State) (o : Nat) (w : Word) : (s.setWord o w).load = s.load := (rfl)
@[simp] theorem State.setWord_resident (s : State) (o : Nat) (w : Word) : (s.setWord o w).resident = s.resident := (rfl)
@[simp] theorem State.setWord_staged (s : State) (o : Nat) (w : Word) : (s.setWord o w).staged = s.staged := (rfl)
@[simp] theorem State.setWord_fab (s : State) (o : Nat) (w : Word) : (s.setWord o w).fab = s.fab := (rfl)
@[simp] theorem State.setWord_benches (s : State) (o : Nat) (w : Word) : (s.setWord o w).benches = s.benches := (rfl)
@[simp] theorem State.setWord_wports (s : State) (o : Nat) (w : Word) : (s.setWord o w).wports = s.wports := (rfl)
@[simp] theorem State.setWord_remote (s : State) (o : Nat) (w : Word) : (s.setWord o w).remote = s.remote := (rfl)
@[simp] theorem State.setWord_nextTag (s : State) (o : Nat) (w : Word) : (s.setWord o w).nextTag = s.nextTag := (rfl)
@[simp] theorem State.setWord_queues (s : State) (o : Nat) (w : Word) : (s.setWord o w).queues = s.queues := (rfl)
@[simp] theorem State.setWord_upd (s : State) (o : Nat) (w : Word) : (s.setWord o w).upd = s.upd := (rfl)
@[simp] theorem State.setWord_red (s : State) (o : Nat) (w : Word) : (s.setWord o w).red = s.red := (rfl)
@[simp] theorem State.setWord_links (s : State) (o : Nat) (w : Word) : (s.setWord o w).links = s.links := (rfl)
@[simp] theorem State.setWord_bundles (s : State) (o : Nat) (w : Word) : (s.setWord o w).bundles = s.bundles := (rfl)
@[simp] theorem State.setWord_lnkIn (s : State) (o : Nat) (w : Word) : (s.setWord o w).lnkIn = s.lnkIn := (rfl)
@[simp] theorem State.setWord_opens (s : State) (o : Nat) (w : Word) : (s.setWord o w).opens = s.opens := (rfl)
@[simp] theorem State.setWord_cells (s : State) (o : Nat) (w : Word) : (s.setWord o w).cells = s.cells := (rfl)
@[simp] theorem State.setWord_waits (s : State) (o : Nat) (w : Word) : (s.setWord o w).waits = s.waits := (rfl)
@[simp] theorem State.setWord_slots (s : State) (o : Nat) (w : Word) : (s.setWord o w).slots = s.slots := (rfl)
@[simp] theorem State.setWord_hst (s : State) (o : Nat) (w : Word) : (s.setWord o w).hst = s.hst := (rfl)
@[simp] theorem State.setWord_ras (s : State) (o : Nat) (w : Word) : (s.setWord o w).ras = s.ras := (rfl)
@[simp] theorem State.setWord_ckp (s : State) (o : Nat) (w : Word) : (s.setWord o w).ckp = s.ckp := (rfl)
@[simp] theorem State.setWord_sec (s : State) (o : Nat) (w : Word) : (s.setWord o w).sec = s.sec := (rfl)
@[simp] theorem State.setWord_freeCtr (s : State) (o : Nat) (w : Word) : (s.setWord o w).freeCtr = s.freeCtr := (rfl)

@[simp] theorem State.put_pending (s : State) (f : Fld) (v : Nat) : (s.put f v).pending = s.pending := (rfl)
@[simp] theorem State.put_shadow (s : State) (f : Fld) (v : Nat) : (s.put f v).shadow = s.shadow := (rfl)
@[simp] theorem State.put_boardPending (s : State) (f : Fld) (v : Nat) : (s.put f v).boardPending = s.boardPending := (rfl)
@[simp] theorem State.put_wrd (s : State) (f : Fld) (v : Nat) : (s.put f v).wrd = s.wrd := (rfl)
@[simp] theorem State.put_shelf (s : State) (f : Fld) (v : Nat) : (s.put f v).shelf = s.shelf := (rfl)
@[simp] theorem State.put_sp (s : State) (f : Fld) (v : Nat) : (s.put f v).sp = s.sp := (rfl)
@[simp] theorem State.put_qst (s : State) (f : Fld) (v : Nat) : (s.put f v).qst = s.qst := (rfl)
@[simp] theorem State.put_drw (s : State) (f : Fld) (v : Nat) : (s.put f v).drw = s.drw := (rfl)
@[simp] theorem State.put_sram (s : State) (f : Fld) (v : Nat) : (s.put f v).sram = s.sram := (rfl)
@[simp] theorem State.put_bad (s : State) (f : Fld) (v : Nat) : (s.put f v).bad = s.bad := (rfl)
@[simp] theorem State.put_coldLow (s : State) (f : Fld) (v : Nat) : (s.put f v).coldLow = s.coldLow := (rfl)
@[simp] theorem State.put_railsOk (s : State) (f : Fld) (v : Nat) : (s.put f v).railsOk = s.railsOk := (rfl)
@[simp] theorem State.put_dip (s : State) (f : Fld) (v : Nat) : (s.put f v).dip = s.dip := (rfl)
@[simp] theorem State.put_tripped (s : State) (f : Fld) (v : Nat) : (s.put f v).tripped = s.tripped := (rfl)
@[simp] theorem State.put_pwr (s : State) (f : Fld) (v : Nat) : (s.put f v).pwr = s.pwr := (rfl)
@[simp] theorem State.put_mesh (s : State) (f : Fld) (v : Nat) : (s.put f v).mesh = s.mesh := (rfl)
@[simp] theorem State.put_load (s : State) (f : Fld) (v : Nat) : (s.put f v).load = s.load := (rfl)
@[simp] theorem State.put_resident (s : State) (f : Fld) (v : Nat) : (s.put f v).resident = s.resident := (rfl)
@[simp] theorem State.put_staged (s : State) (f : Fld) (v : Nat) : (s.put f v).staged = s.staged := (rfl)
@[simp] theorem State.put_fab (s : State) (f : Fld) (v : Nat) : (s.put f v).fab = s.fab := (rfl)
@[simp] theorem State.put_benches (s : State) (f : Fld) (v : Nat) : (s.put f v).benches = s.benches := (rfl)
@[simp] theorem State.put_wports (s : State) (f : Fld) (v : Nat) : (s.put f v).wports = s.wports := (rfl)
@[simp] theorem State.put_remote (s : State) (f : Fld) (v : Nat) : (s.put f v).remote = s.remote := (rfl)
@[simp] theorem State.put_nextTag (s : State) (f : Fld) (v : Nat) : (s.put f v).nextTag = s.nextTag := (rfl)
@[simp] theorem State.put_queues (s : State) (f : Fld) (v : Nat) : (s.put f v).queues = s.queues := (rfl)
@[simp] theorem State.put_upd (s : State) (f : Fld) (v : Nat) : (s.put f v).upd = s.upd := (rfl)
@[simp] theorem State.put_red (s : State) (f : Fld) (v : Nat) : (s.put f v).red = s.red := (rfl)
@[simp] theorem State.put_links (s : State) (f : Fld) (v : Nat) : (s.put f v).links = s.links := (rfl)
@[simp] theorem State.put_bundles (s : State) (f : Fld) (v : Nat) : (s.put f v).bundles = s.bundles := (rfl)
@[simp] theorem State.put_lnkIn (s : State) (f : Fld) (v : Nat) : (s.put f v).lnkIn = s.lnkIn := (rfl)
@[simp] theorem State.put_opens (s : State) (f : Fld) (v : Nat) : (s.put f v).opens = s.opens := (rfl)
@[simp] theorem State.put_cells (s : State) (f : Fld) (v : Nat) : (s.put f v).cells = s.cells := (rfl)
@[simp] theorem State.put_waits (s : State) (f : Fld) (v : Nat) : (s.put f v).waits = s.waits := (rfl)
@[simp] theorem State.put_slots (s : State) (f : Fld) (v : Nat) : (s.put f v).slots = s.slots := (rfl)
@[simp] theorem State.put_hst (s : State) (f : Fld) (v : Nat) : (s.put f v).hst = s.hst := (rfl)
@[simp] theorem State.put_ras (s : State) (f : Fld) (v : Nat) : (s.put f v).ras = s.ras := (rfl)
@[simp] theorem State.put_ckp (s : State) (f : Fld) (v : Nat) : (s.put f v).ckp = s.ckp := (rfl)
@[simp] theorem State.put_sec (s : State) (f : Fld) (v : Nat) : (s.put f v).sec = s.sec := (rfl)
@[simp] theorem State.put_freeCtr (s : State) (f : Fld) (v : Nat) : (s.put f v).freeCtr = s.freeCtr := (rfl)

@[simp] theorem State.setBench_pending (s : State) (p : Nat) (b : Bench) : (s.setBench p b).pending = s.pending := (rfl)
@[simp] theorem State.setBench_regs (s : State) (p : Nat) (b : Bench) : (s.setBench p b).regs = s.regs := (rfl)
@[simp] theorem State.setBench_shadow (s : State) (p : Nat) (b : Bench) : (s.setBench p b).shadow = s.shadow := (rfl)
@[simp] theorem State.setBench_boardPending (s : State) (p : Nat) (b : Bench) : (s.setBench p b).boardPending = s.boardPending := (rfl)
@[simp] theorem State.setBench_wrd (s : State) (p : Nat) (b : Bench) : (s.setBench p b).wrd = s.wrd := (rfl)
@[simp] theorem State.setBench_shelf (s : State) (p : Nat) (b : Bench) : (s.setBench p b).shelf = s.shelf := (rfl)
@[simp] theorem State.setBench_sp (s : State) (p : Nat) (b : Bench) : (s.setBench p b).sp = s.sp := (rfl)
@[simp] theorem State.setBench_qst (s : State) (p : Nat) (b : Bench) : (s.setBench p b).qst = s.qst := (rfl)
@[simp] theorem State.setBench_drw (s : State) (p : Nat) (b : Bench) : (s.setBench p b).drw = s.drw := (rfl)
@[simp] theorem State.setBench_sram (s : State) (p : Nat) (b : Bench) : (s.setBench p b).sram = s.sram := (rfl)
@[simp] theorem State.setBench_bad (s : State) (p : Nat) (b : Bench) : (s.setBench p b).bad = s.bad := (rfl)
@[simp] theorem State.setBench_coldLow (s : State) (p : Nat) (b : Bench) : (s.setBench p b).coldLow = s.coldLow := (rfl)
@[simp] theorem State.setBench_railsOk (s : State) (p : Nat) (b : Bench) : (s.setBench p b).railsOk = s.railsOk := (rfl)
@[simp] theorem State.setBench_dip (s : State) (p : Nat) (b : Bench) : (s.setBench p b).dip = s.dip := (rfl)
@[simp] theorem State.setBench_tripped (s : State) (p : Nat) (b : Bench) : (s.setBench p b).tripped = s.tripped := (rfl)
@[simp] theorem State.setBench_pwr (s : State) (p : Nat) (b : Bench) : (s.setBench p b).pwr = s.pwr := (rfl)
@[simp] theorem State.setBench_mesh (s : State) (p : Nat) (b : Bench) : (s.setBench p b).mesh = s.mesh := (rfl)
@[simp] theorem State.setBench_load (s : State) (p : Nat) (b : Bench) : (s.setBench p b).load = s.load := (rfl)
@[simp] theorem State.setBench_resident (s : State) (p : Nat) (b : Bench) : (s.setBench p b).resident = s.resident := (rfl)
@[simp] theorem State.setBench_staged (s : State) (p : Nat) (b : Bench) : (s.setBench p b).staged = s.staged := (rfl)
@[simp] theorem State.setBench_fab (s : State) (p : Nat) (b : Bench) : (s.setBench p b).fab = s.fab := (rfl)
@[simp] theorem State.setBench_wports (s : State) (p : Nat) (b : Bench) : (s.setBench p b).wports = s.wports := (rfl)
@[simp] theorem State.setBench_remote (s : State) (p : Nat) (b : Bench) : (s.setBench p b).remote = s.remote := (rfl)
@[simp] theorem State.setBench_nextTag (s : State) (p : Nat) (b : Bench) : (s.setBench p b).nextTag = s.nextTag := (rfl)
@[simp] theorem State.setBench_queues (s : State) (p : Nat) (b : Bench) : (s.setBench p b).queues = s.queues := (rfl)
@[simp] theorem State.setBench_upd (s : State) (p : Nat) (b : Bench) : (s.setBench p b).upd = s.upd := (rfl)
@[simp] theorem State.setBench_red (s : State) (p : Nat) (b : Bench) : (s.setBench p b).red = s.red := (rfl)
@[simp] theorem State.setBench_links (s : State) (p : Nat) (b : Bench) : (s.setBench p b).links = s.links := (rfl)
@[simp] theorem State.setBench_bundles (s : State) (p : Nat) (b : Bench) : (s.setBench p b).bundles = s.bundles := (rfl)
@[simp] theorem State.setBench_lnkIn (s : State) (p : Nat) (b : Bench) : (s.setBench p b).lnkIn = s.lnkIn := (rfl)
@[simp] theorem State.setBench_opens (s : State) (p : Nat) (b : Bench) : (s.setBench p b).opens = s.opens := (rfl)
@[simp] theorem State.setBench_cells (s : State) (p : Nat) (b : Bench) : (s.setBench p b).cells = s.cells := (rfl)
@[simp] theorem State.setBench_waits (s : State) (p : Nat) (b : Bench) : (s.setBench p b).waits = s.waits := (rfl)
@[simp] theorem State.setBench_slots (s : State) (p : Nat) (b : Bench) : (s.setBench p b).slots = s.slots := (rfl)
@[simp] theorem State.setBench_hst (s : State) (p : Nat) (b : Bench) : (s.setBench p b).hst = s.hst := (rfl)
@[simp] theorem State.setBench_ras (s : State) (p : Nat) (b : Bench) : (s.setBench p b).ras = s.ras := (rfl)
@[simp] theorem State.setBench_ckp (s : State) (p : Nat) (b : Bench) : (s.setBench p b).ckp = s.ckp := (rfl)
@[simp] theorem State.setBench_sec (s : State) (p : Nat) (b : Bench) : (s.setBench p b).sec = s.sec := (rfl)
@[simp] theorem State.setBench_freeCtr (s : State) (p : Nat) (b : Bench) : (s.setBench p b).freeCtr = s.freeCtr := (rfl)

@[simp] theorem State.setQueue_pending (s : State) (q : Nat) (x : Queue) : (s.setQueue q x).pending = s.pending := (rfl)
@[simp] theorem State.setQueue_regs (s : State) (q : Nat) (x : Queue) : (s.setQueue q x).regs = s.regs := (rfl)
@[simp] theorem State.setQueue_shadow (s : State) (q : Nat) (x : Queue) : (s.setQueue q x).shadow = s.shadow := (rfl)
@[simp] theorem State.setQueue_boardPending (s : State) (q : Nat) (x : Queue) : (s.setQueue q x).boardPending = s.boardPending := (rfl)
@[simp] theorem State.setQueue_wrd (s : State) (q : Nat) (x : Queue) : (s.setQueue q x).wrd = s.wrd := (rfl)
@[simp] theorem State.setQueue_shelf (s : State) (q : Nat) (x : Queue) : (s.setQueue q x).shelf = s.shelf := (rfl)
@[simp] theorem State.setQueue_sp (s : State) (q : Nat) (x : Queue) : (s.setQueue q x).sp = s.sp := (rfl)
@[simp] theorem State.setQueue_qst (s : State) (q : Nat) (x : Queue) : (s.setQueue q x).qst = s.qst := (rfl)
@[simp] theorem State.setQueue_drw (s : State) (q : Nat) (x : Queue) : (s.setQueue q x).drw = s.drw := (rfl)
@[simp] theorem State.setQueue_sram (s : State) (q : Nat) (x : Queue) : (s.setQueue q x).sram = s.sram := (rfl)
@[simp] theorem State.setQueue_bad (s : State) (q : Nat) (x : Queue) : (s.setQueue q x).bad = s.bad := (rfl)
@[simp] theorem State.setQueue_coldLow (s : State) (q : Nat) (x : Queue) : (s.setQueue q x).coldLow = s.coldLow := (rfl)
@[simp] theorem State.setQueue_railsOk (s : State) (q : Nat) (x : Queue) : (s.setQueue q x).railsOk = s.railsOk := (rfl)
@[simp] theorem State.setQueue_dip (s : State) (q : Nat) (x : Queue) : (s.setQueue q x).dip = s.dip := (rfl)
@[simp] theorem State.setQueue_tripped (s : State) (q : Nat) (x : Queue) : (s.setQueue q x).tripped = s.tripped := (rfl)
@[simp] theorem State.setQueue_pwr (s : State) (q : Nat) (x : Queue) : (s.setQueue q x).pwr = s.pwr := (rfl)
@[simp] theorem State.setQueue_mesh (s : State) (q : Nat) (x : Queue) : (s.setQueue q x).mesh = s.mesh := (rfl)
@[simp] theorem State.setQueue_load (s : State) (q : Nat) (x : Queue) : (s.setQueue q x).load = s.load := (rfl)
@[simp] theorem State.setQueue_resident (s : State) (q : Nat) (x : Queue) : (s.setQueue q x).resident = s.resident := (rfl)
@[simp] theorem State.setQueue_staged (s : State) (q : Nat) (x : Queue) : (s.setQueue q x).staged = s.staged := (rfl)
@[simp] theorem State.setQueue_fab (s : State) (q : Nat) (x : Queue) : (s.setQueue q x).fab = s.fab := (rfl)
@[simp] theorem State.setQueue_benches (s : State) (q : Nat) (x : Queue) : (s.setQueue q x).benches = s.benches := (rfl)
@[simp] theorem State.setQueue_wports (s : State) (q : Nat) (x : Queue) : (s.setQueue q x).wports = s.wports := (rfl)
@[simp] theorem State.setQueue_remote (s : State) (q : Nat) (x : Queue) : (s.setQueue q x).remote = s.remote := (rfl)
@[simp] theorem State.setQueue_nextTag (s : State) (q : Nat) (x : Queue) : (s.setQueue q x).nextTag = s.nextTag := (rfl)
@[simp] theorem State.setQueue_upd (s : State) (q : Nat) (x : Queue) : (s.setQueue q x).upd = s.upd := (rfl)
@[simp] theorem State.setQueue_red (s : State) (q : Nat) (x : Queue) : (s.setQueue q x).red = s.red := (rfl)
@[simp] theorem State.setQueue_links (s : State) (q : Nat) (x : Queue) : (s.setQueue q x).links = s.links := (rfl)
@[simp] theorem State.setQueue_bundles (s : State) (q : Nat) (x : Queue) : (s.setQueue q x).bundles = s.bundles := (rfl)
@[simp] theorem State.setQueue_lnkIn (s : State) (q : Nat) (x : Queue) : (s.setQueue q x).lnkIn = s.lnkIn := (rfl)
@[simp] theorem State.setQueue_opens (s : State) (q : Nat) (x : Queue) : (s.setQueue q x).opens = s.opens := (rfl)
@[simp] theorem State.setQueue_cells (s : State) (q : Nat) (x : Queue) : (s.setQueue q x).cells = s.cells := (rfl)
@[simp] theorem State.setQueue_waits (s : State) (q : Nat) (x : Queue) : (s.setQueue q x).waits = s.waits := (rfl)
@[simp] theorem State.setQueue_slots (s : State) (q : Nat) (x : Queue) : (s.setQueue q x).slots = s.slots := (rfl)
@[simp] theorem State.setQueue_hst (s : State) (q : Nat) (x : Queue) : (s.setQueue q x).hst = s.hst := (rfl)
@[simp] theorem State.setQueue_ras (s : State) (q : Nat) (x : Queue) : (s.setQueue q x).ras = s.ras := (rfl)
@[simp] theorem State.setQueue_ckp (s : State) (q : Nat) (x : Queue) : (s.setQueue q x).ckp = s.ckp := (rfl)
@[simp] theorem State.setQueue_sec (s : State) (q : Nat) (x : Queue) : (s.setQueue q x).sec = s.sec := (rfl)
@[simp] theorem State.setQueue_freeCtr (s : State) (q : Nat) (x : Queue) : (s.setQueue q x).freeCtr = s.freeCtr := (rfl)

@[simp] theorem State.setLink_pending (s : State) (l : Nat) (x : Link) : (s.setLink l x).pending = s.pending := (rfl)
@[simp] theorem State.setLink_regs (s : State) (l : Nat) (x : Link) : (s.setLink l x).regs = s.regs := (rfl)
@[simp] theorem State.setLink_shadow (s : State) (l : Nat) (x : Link) : (s.setLink l x).shadow = s.shadow := (rfl)
@[simp] theorem State.setLink_boardPending (s : State) (l : Nat) (x : Link) : (s.setLink l x).boardPending = s.boardPending := (rfl)
@[simp] theorem State.setLink_wrd (s : State) (l : Nat) (x : Link) : (s.setLink l x).wrd = s.wrd := (rfl)
@[simp] theorem State.setLink_shelf (s : State) (l : Nat) (x : Link) : (s.setLink l x).shelf = s.shelf := (rfl)
@[simp] theorem State.setLink_sp (s : State) (l : Nat) (x : Link) : (s.setLink l x).sp = s.sp := (rfl)
@[simp] theorem State.setLink_qst (s : State) (l : Nat) (x : Link) : (s.setLink l x).qst = s.qst := (rfl)
@[simp] theorem State.setLink_drw (s : State) (l : Nat) (x : Link) : (s.setLink l x).drw = s.drw := (rfl)
@[simp] theorem State.setLink_sram (s : State) (l : Nat) (x : Link) : (s.setLink l x).sram = s.sram := (rfl)
@[simp] theorem State.setLink_bad (s : State) (l : Nat) (x : Link) : (s.setLink l x).bad = s.bad := (rfl)
@[simp] theorem State.setLink_coldLow (s : State) (l : Nat) (x : Link) : (s.setLink l x).coldLow = s.coldLow := (rfl)
@[simp] theorem State.setLink_railsOk (s : State) (l : Nat) (x : Link) : (s.setLink l x).railsOk = s.railsOk := (rfl)
@[simp] theorem State.setLink_dip (s : State) (l : Nat) (x : Link) : (s.setLink l x).dip = s.dip := (rfl)
@[simp] theorem State.setLink_tripped (s : State) (l : Nat) (x : Link) : (s.setLink l x).tripped = s.tripped := (rfl)
@[simp] theorem State.setLink_pwr (s : State) (l : Nat) (x : Link) : (s.setLink l x).pwr = s.pwr := (rfl)
@[simp] theorem State.setLink_mesh (s : State) (l : Nat) (x : Link) : (s.setLink l x).mesh = s.mesh := (rfl)
@[simp] theorem State.setLink_load (s : State) (l : Nat) (x : Link) : (s.setLink l x).load = s.load := (rfl)
@[simp] theorem State.setLink_resident (s : State) (l : Nat) (x : Link) : (s.setLink l x).resident = s.resident := (rfl)
@[simp] theorem State.setLink_staged (s : State) (l : Nat) (x : Link) : (s.setLink l x).staged = s.staged := (rfl)
@[simp] theorem State.setLink_fab (s : State) (l : Nat) (x : Link) : (s.setLink l x).fab = s.fab := (rfl)
@[simp] theorem State.setLink_benches (s : State) (l : Nat) (x : Link) : (s.setLink l x).benches = s.benches := (rfl)
@[simp] theorem State.setLink_wports (s : State) (l : Nat) (x : Link) : (s.setLink l x).wports = s.wports := (rfl)
@[simp] theorem State.setLink_remote (s : State) (l : Nat) (x : Link) : (s.setLink l x).remote = s.remote := (rfl)
@[simp] theorem State.setLink_nextTag (s : State) (l : Nat) (x : Link) : (s.setLink l x).nextTag = s.nextTag := (rfl)
@[simp] theorem State.setLink_queues (s : State) (l : Nat) (x : Link) : (s.setLink l x).queues = s.queues := (rfl)
@[simp] theorem State.setLink_upd (s : State) (l : Nat) (x : Link) : (s.setLink l x).upd = s.upd := (rfl)
@[simp] theorem State.setLink_red (s : State) (l : Nat) (x : Link) : (s.setLink l x).red = s.red := (rfl)
@[simp] theorem State.setLink_bundles (s : State) (l : Nat) (x : Link) : (s.setLink l x).bundles = s.bundles := (rfl)
@[simp] theorem State.setLink_lnkIn (s : State) (l : Nat) (x : Link) : (s.setLink l x).lnkIn = s.lnkIn := (rfl)
@[simp] theorem State.setLink_opens (s : State) (l : Nat) (x : Link) : (s.setLink l x).opens = s.opens := (rfl)
@[simp] theorem State.setLink_cells (s : State) (l : Nat) (x : Link) : (s.setLink l x).cells = s.cells := (rfl)
@[simp] theorem State.setLink_waits (s : State) (l : Nat) (x : Link) : (s.setLink l x).waits = s.waits := (rfl)
@[simp] theorem State.setLink_slots (s : State) (l : Nat) (x : Link) : (s.setLink l x).slots = s.slots := (rfl)
@[simp] theorem State.setLink_hst (s : State) (l : Nat) (x : Link) : (s.setLink l x).hst = s.hst := (rfl)
@[simp] theorem State.setLink_ras (s : State) (l : Nat) (x : Link) : (s.setLink l x).ras = s.ras := (rfl)
@[simp] theorem State.setLink_ckp (s : State) (l : Nat) (x : Link) : (s.setLink l x).ckp = s.ckp := (rfl)
@[simp] theorem State.setLink_sec (s : State) (l : Nat) (x : Link) : (s.setLink l x).sec = s.sec := (rfl)
@[simp] theorem State.setLink_freeCtr (s : State) (l : Nat) (x : Link) : (s.setLink l x).freeCtr = s.freeCtr := (rfl)

@[simp] theorem State.setBundle_pending (s : State) (d : Nat) (x : Bundle) : (s.setBundle d x).pending = s.pending := (rfl)
@[simp] theorem State.setBundle_regs (s : State) (d : Nat) (x : Bundle) : (s.setBundle d x).regs = s.regs := (rfl)
@[simp] theorem State.setBundle_shadow (s : State) (d : Nat) (x : Bundle) : (s.setBundle d x).shadow = s.shadow := (rfl)
@[simp] theorem State.setBundle_boardPending (s : State) (d : Nat) (x : Bundle) : (s.setBundle d x).boardPending = s.boardPending := (rfl)
@[simp] theorem State.setBundle_wrd (s : State) (d : Nat) (x : Bundle) : (s.setBundle d x).wrd = s.wrd := (rfl)
@[simp] theorem State.setBundle_shelf (s : State) (d : Nat) (x : Bundle) : (s.setBundle d x).shelf = s.shelf := (rfl)
@[simp] theorem State.setBundle_sp (s : State) (d : Nat) (x : Bundle) : (s.setBundle d x).sp = s.sp := (rfl)
@[simp] theorem State.setBundle_qst (s : State) (d : Nat) (x : Bundle) : (s.setBundle d x).qst = s.qst := (rfl)
@[simp] theorem State.setBundle_drw (s : State) (d : Nat) (x : Bundle) : (s.setBundle d x).drw = s.drw := (rfl)
@[simp] theorem State.setBundle_sram (s : State) (d : Nat) (x : Bundle) : (s.setBundle d x).sram = s.sram := (rfl)
@[simp] theorem State.setBundle_bad (s : State) (d : Nat) (x : Bundle) : (s.setBundle d x).bad = s.bad := (rfl)
@[simp] theorem State.setBundle_coldLow (s : State) (d : Nat) (x : Bundle) : (s.setBundle d x).coldLow = s.coldLow := (rfl)
@[simp] theorem State.setBundle_railsOk (s : State) (d : Nat) (x : Bundle) : (s.setBundle d x).railsOk = s.railsOk := (rfl)
@[simp] theorem State.setBundle_dip (s : State) (d : Nat) (x : Bundle) : (s.setBundle d x).dip = s.dip := (rfl)
@[simp] theorem State.setBundle_tripped (s : State) (d : Nat) (x : Bundle) : (s.setBundle d x).tripped = s.tripped := (rfl)
@[simp] theorem State.setBundle_pwr (s : State) (d : Nat) (x : Bundle) : (s.setBundle d x).pwr = s.pwr := (rfl)
@[simp] theorem State.setBundle_mesh (s : State) (d : Nat) (x : Bundle) : (s.setBundle d x).mesh = s.mesh := (rfl)
@[simp] theorem State.setBundle_load (s : State) (d : Nat) (x : Bundle) : (s.setBundle d x).load = s.load := (rfl)
@[simp] theorem State.setBundle_resident (s : State) (d : Nat) (x : Bundle) : (s.setBundle d x).resident = s.resident := (rfl)
@[simp] theorem State.setBundle_staged (s : State) (d : Nat) (x : Bundle) : (s.setBundle d x).staged = s.staged := (rfl)
@[simp] theorem State.setBundle_fab (s : State) (d : Nat) (x : Bundle) : (s.setBundle d x).fab = s.fab := (rfl)
@[simp] theorem State.setBundle_benches (s : State) (d : Nat) (x : Bundle) : (s.setBundle d x).benches = s.benches := (rfl)
@[simp] theorem State.setBundle_wports (s : State) (d : Nat) (x : Bundle) : (s.setBundle d x).wports = s.wports := (rfl)
@[simp] theorem State.setBundle_remote (s : State) (d : Nat) (x : Bundle) : (s.setBundle d x).remote = s.remote := (rfl)
@[simp] theorem State.setBundle_nextTag (s : State) (d : Nat) (x : Bundle) : (s.setBundle d x).nextTag = s.nextTag := (rfl)
@[simp] theorem State.setBundle_queues (s : State) (d : Nat) (x : Bundle) : (s.setBundle d x).queues = s.queues := (rfl)
@[simp] theorem State.setBundle_upd (s : State) (d : Nat) (x : Bundle) : (s.setBundle d x).upd = s.upd := (rfl)
@[simp] theorem State.setBundle_red (s : State) (d : Nat) (x : Bundle) : (s.setBundle d x).red = s.red := (rfl)
@[simp] theorem State.setBundle_links (s : State) (d : Nat) (x : Bundle) : (s.setBundle d x).links = s.links := (rfl)
@[simp] theorem State.setBundle_lnkIn (s : State) (d : Nat) (x : Bundle) : (s.setBundle d x).lnkIn = s.lnkIn := (rfl)
@[simp] theorem State.setBundle_opens (s : State) (d : Nat) (x : Bundle) : (s.setBundle d x).opens = s.opens := (rfl)
@[simp] theorem State.setBundle_cells (s : State) (d : Nat) (x : Bundle) : (s.setBundle d x).cells = s.cells := (rfl)
@[simp] theorem State.setBundle_waits (s : State) (d : Nat) (x : Bundle) : (s.setBundle d x).waits = s.waits := (rfl)
@[simp] theorem State.setBundle_slots (s : State) (d : Nat) (x : Bundle) : (s.setBundle d x).slots = s.slots := (rfl)
@[simp] theorem State.setBundle_hst (s : State) (d : Nat) (x : Bundle) : (s.setBundle d x).hst = s.hst := (rfl)
@[simp] theorem State.setBundle_ras (s : State) (d : Nat) (x : Bundle) : (s.setBundle d x).ras = s.ras := (rfl)
@[simp] theorem State.setBundle_ckp (s : State) (d : Nat) (x : Bundle) : (s.setBundle d x).ckp = s.ckp := (rfl)
@[simp] theorem State.setBundle_sec (s : State) (d : Nat) (x : Bundle) : (s.setBundle d x).sec = s.sec := (rfl)
@[simp] theorem State.setBundle_freeCtr (s : State) (d : Nat) (x : Bundle) : (s.setBundle d x).freeCtr = s.freeCtr := (rfl)

@[simp] theorem State.setCell_pending (s : State) (c : Nat) (x : Cell) : (s.setCell c x).pending = s.pending := (rfl)
@[simp] theorem State.setCell_regs (s : State) (c : Nat) (x : Cell) : (s.setCell c x).regs = s.regs := (rfl)
@[simp] theorem State.setCell_shadow (s : State) (c : Nat) (x : Cell) : (s.setCell c x).shadow = s.shadow := (rfl)
@[simp] theorem State.setCell_boardPending (s : State) (c : Nat) (x : Cell) : (s.setCell c x).boardPending = s.boardPending := (rfl)
@[simp] theorem State.setCell_wrd (s : State) (c : Nat) (x : Cell) : (s.setCell c x).wrd = s.wrd := (rfl)
@[simp] theorem State.setCell_shelf (s : State) (c : Nat) (x : Cell) : (s.setCell c x).shelf = s.shelf := (rfl)
@[simp] theorem State.setCell_sp (s : State) (c : Nat) (x : Cell) : (s.setCell c x).sp = s.sp := (rfl)
@[simp] theorem State.setCell_qst (s : State) (c : Nat) (x : Cell) : (s.setCell c x).qst = s.qst := (rfl)
@[simp] theorem State.setCell_drw (s : State) (c : Nat) (x : Cell) : (s.setCell c x).drw = s.drw := (rfl)
@[simp] theorem State.setCell_sram (s : State) (c : Nat) (x : Cell) : (s.setCell c x).sram = s.sram := (rfl)
@[simp] theorem State.setCell_bad (s : State) (c : Nat) (x : Cell) : (s.setCell c x).bad = s.bad := (rfl)
@[simp] theorem State.setCell_coldLow (s : State) (c : Nat) (x : Cell) : (s.setCell c x).coldLow = s.coldLow := (rfl)
@[simp] theorem State.setCell_railsOk (s : State) (c : Nat) (x : Cell) : (s.setCell c x).railsOk = s.railsOk := (rfl)
@[simp] theorem State.setCell_dip (s : State) (c : Nat) (x : Cell) : (s.setCell c x).dip = s.dip := (rfl)
@[simp] theorem State.setCell_tripped (s : State) (c : Nat) (x : Cell) : (s.setCell c x).tripped = s.tripped := (rfl)
@[simp] theorem State.setCell_pwr (s : State) (c : Nat) (x : Cell) : (s.setCell c x).pwr = s.pwr := (rfl)
@[simp] theorem State.setCell_mesh (s : State) (c : Nat) (x : Cell) : (s.setCell c x).mesh = s.mesh := (rfl)
@[simp] theorem State.setCell_load (s : State) (c : Nat) (x : Cell) : (s.setCell c x).load = s.load := (rfl)
@[simp] theorem State.setCell_resident (s : State) (c : Nat) (x : Cell) : (s.setCell c x).resident = s.resident := (rfl)
@[simp] theorem State.setCell_staged (s : State) (c : Nat) (x : Cell) : (s.setCell c x).staged = s.staged := (rfl)
@[simp] theorem State.setCell_fab (s : State) (c : Nat) (x : Cell) : (s.setCell c x).fab = s.fab := (rfl)
@[simp] theorem State.setCell_benches (s : State) (c : Nat) (x : Cell) : (s.setCell c x).benches = s.benches := (rfl)
@[simp] theorem State.setCell_wports (s : State) (c : Nat) (x : Cell) : (s.setCell c x).wports = s.wports := (rfl)
@[simp] theorem State.setCell_remote (s : State) (c : Nat) (x : Cell) : (s.setCell c x).remote = s.remote := (rfl)
@[simp] theorem State.setCell_nextTag (s : State) (c : Nat) (x : Cell) : (s.setCell c x).nextTag = s.nextTag := (rfl)
@[simp] theorem State.setCell_queues (s : State) (c : Nat) (x : Cell) : (s.setCell c x).queues = s.queues := (rfl)
@[simp] theorem State.setCell_upd (s : State) (c : Nat) (x : Cell) : (s.setCell c x).upd = s.upd := (rfl)
@[simp] theorem State.setCell_red (s : State) (c : Nat) (x : Cell) : (s.setCell c x).red = s.red := (rfl)
@[simp] theorem State.setCell_links (s : State) (c : Nat) (x : Cell) : (s.setCell c x).links = s.links := (rfl)
@[simp] theorem State.setCell_bundles (s : State) (c : Nat) (x : Cell) : (s.setCell c x).bundles = s.bundles := (rfl)
@[simp] theorem State.setCell_lnkIn (s : State) (c : Nat) (x : Cell) : (s.setCell c x).lnkIn = s.lnkIn := (rfl)
@[simp] theorem State.setCell_opens (s : State) (c : Nat) (x : Cell) : (s.setCell c x).opens = s.opens := (rfl)
@[simp] theorem State.setCell_waits (s : State) (c : Nat) (x : Cell) : (s.setCell c x).waits = s.waits := (rfl)
@[simp] theorem State.setCell_slots (s : State) (c : Nat) (x : Cell) : (s.setCell c x).slots = s.slots := (rfl)
@[simp] theorem State.setCell_hst (s : State) (c : Nat) (x : Cell) : (s.setCell c x).hst = s.hst := (rfl)
@[simp] theorem State.setCell_ras (s : State) (c : Nat) (x : Cell) : (s.setCell c x).ras = s.ras := (rfl)
@[simp] theorem State.setCell_ckp (s : State) (c : Nat) (x : Cell) : (s.setCell c x).ckp = s.ckp := (rfl)
@[simp] theorem State.setCell_sec (s : State) (c : Nat) (x : Cell) : (s.setCell c x).sec = s.sec := (rfl)
@[simp] theorem State.setCell_freeCtr (s : State) (c : Nat) (x : Cell) : (s.setCell c x).freeCtr = s.freeCtr := (rfl)

@[simp] theorem State.setWport_pending (s : State) (p : Nat) (x : WPort) : (s.setWport p x).pending = s.pending := (rfl)
@[simp] theorem State.setWport_regs (s : State) (p : Nat) (x : WPort) : (s.setWport p x).regs = s.regs := (rfl)
@[simp] theorem State.setWport_shadow (s : State) (p : Nat) (x : WPort) : (s.setWport p x).shadow = s.shadow := (rfl)
@[simp] theorem State.setWport_boardPending (s : State) (p : Nat) (x : WPort) : (s.setWport p x).boardPending = s.boardPending := (rfl)
@[simp] theorem State.setWport_wrd (s : State) (p : Nat) (x : WPort) : (s.setWport p x).wrd = s.wrd := (rfl)
@[simp] theorem State.setWport_shelf (s : State) (p : Nat) (x : WPort) : (s.setWport p x).shelf = s.shelf := (rfl)
@[simp] theorem State.setWport_sp (s : State) (p : Nat) (x : WPort) : (s.setWport p x).sp = s.sp := (rfl)
@[simp] theorem State.setWport_qst (s : State) (p : Nat) (x : WPort) : (s.setWport p x).qst = s.qst := (rfl)
@[simp] theorem State.setWport_drw (s : State) (p : Nat) (x : WPort) : (s.setWport p x).drw = s.drw := (rfl)
@[simp] theorem State.setWport_sram (s : State) (p : Nat) (x : WPort) : (s.setWport p x).sram = s.sram := (rfl)
@[simp] theorem State.setWport_bad (s : State) (p : Nat) (x : WPort) : (s.setWport p x).bad = s.bad := (rfl)
@[simp] theorem State.setWport_coldLow (s : State) (p : Nat) (x : WPort) : (s.setWport p x).coldLow = s.coldLow := (rfl)
@[simp] theorem State.setWport_railsOk (s : State) (p : Nat) (x : WPort) : (s.setWport p x).railsOk = s.railsOk := (rfl)
@[simp] theorem State.setWport_dip (s : State) (p : Nat) (x : WPort) : (s.setWport p x).dip = s.dip := (rfl)
@[simp] theorem State.setWport_tripped (s : State) (p : Nat) (x : WPort) : (s.setWport p x).tripped = s.tripped := (rfl)
@[simp] theorem State.setWport_pwr (s : State) (p : Nat) (x : WPort) : (s.setWport p x).pwr = s.pwr := (rfl)
@[simp] theorem State.setWport_mesh (s : State) (p : Nat) (x : WPort) : (s.setWport p x).mesh = s.mesh := (rfl)
@[simp] theorem State.setWport_load (s : State) (p : Nat) (x : WPort) : (s.setWport p x).load = s.load := (rfl)
@[simp] theorem State.setWport_resident (s : State) (p : Nat) (x : WPort) : (s.setWport p x).resident = s.resident := (rfl)
@[simp] theorem State.setWport_staged (s : State) (p : Nat) (x : WPort) : (s.setWport p x).staged = s.staged := (rfl)
@[simp] theorem State.setWport_fab (s : State) (p : Nat) (x : WPort) : (s.setWport p x).fab = s.fab := (rfl)
@[simp] theorem State.setWport_benches (s : State) (p : Nat) (x : WPort) : (s.setWport p x).benches = s.benches := (rfl)
@[simp] theorem State.setWport_remote (s : State) (p : Nat) (x : WPort) : (s.setWport p x).remote = s.remote := (rfl)
@[simp] theorem State.setWport_nextTag (s : State) (p : Nat) (x : WPort) : (s.setWport p x).nextTag = s.nextTag := (rfl)
@[simp] theorem State.setWport_queues (s : State) (p : Nat) (x : WPort) : (s.setWport p x).queues = s.queues := (rfl)
@[simp] theorem State.setWport_upd (s : State) (p : Nat) (x : WPort) : (s.setWport p x).upd = s.upd := (rfl)
@[simp] theorem State.setWport_red (s : State) (p : Nat) (x : WPort) : (s.setWport p x).red = s.red := (rfl)
@[simp] theorem State.setWport_links (s : State) (p : Nat) (x : WPort) : (s.setWport p x).links = s.links := (rfl)
@[simp] theorem State.setWport_bundles (s : State) (p : Nat) (x : WPort) : (s.setWport p x).bundles = s.bundles := (rfl)
@[simp] theorem State.setWport_lnkIn (s : State) (p : Nat) (x : WPort) : (s.setWport p x).lnkIn = s.lnkIn := (rfl)
@[simp] theorem State.setWport_opens (s : State) (p : Nat) (x : WPort) : (s.setWport p x).opens = s.opens := (rfl)
@[simp] theorem State.setWport_cells (s : State) (p : Nat) (x : WPort) : (s.setWport p x).cells = s.cells := (rfl)
@[simp] theorem State.setWport_waits (s : State) (p : Nat) (x : WPort) : (s.setWport p x).waits = s.waits := (rfl)
@[simp] theorem State.setWport_slots (s : State) (p : Nat) (x : WPort) : (s.setWport p x).slots = s.slots := (rfl)
@[simp] theorem State.setWport_hst (s : State) (p : Nat) (x : WPort) : (s.setWport p x).hst = s.hst := (rfl)
@[simp] theorem State.setWport_ras (s : State) (p : Nat) (x : WPort) : (s.setWport p x).ras = s.ras := (rfl)
@[simp] theorem State.setWport_ckp (s : State) (p : Nat) (x : WPort) : (s.setWport p x).ckp = s.ckp := (rfl)
@[simp] theorem State.setWport_sec (s : State) (p : Nat) (x : WPort) : (s.setWport p x).sec = s.sec := (rfl)
@[simp] theorem State.setWport_freeCtr (s : State) (p : Nat) (x : WPort) : (s.setWport p x).freeCtr = s.freeCtr := (rfl)

@[simp] theorem State.setChan_pending (s : State) (c : Nat) (x : Chan) : (s.setChan c x).pending = s.pending := (rfl)
@[simp] theorem State.setChan_regs (s : State) (c : Nat) (x : Chan) : (s.setChan c x).regs = s.regs := (rfl)
@[simp] theorem State.setChan_shadow (s : State) (c : Nat) (x : Chan) : (s.setChan c x).shadow = s.shadow := (rfl)
@[simp] theorem State.setChan_boardPending (s : State) (c : Nat) (x : Chan) : (s.setChan c x).boardPending = s.boardPending := (rfl)
@[simp] theorem State.setChan_wrd (s : State) (c : Nat) (x : Chan) : (s.setChan c x).wrd = s.wrd := (rfl)
@[simp] theorem State.setChan_shelf (s : State) (c : Nat) (x : Chan) : (s.setChan c x).shelf = s.shelf := (rfl)
@[simp] theorem State.setChan_sp (s : State) (c : Nat) (x : Chan) : (s.setChan c x).sp = s.sp := (rfl)
@[simp] theorem State.setChan_qst (s : State) (c : Nat) (x : Chan) : (s.setChan c x).qst = s.qst := (rfl)
@[simp] theorem State.setChan_drw (s : State) (c : Nat) (x : Chan) : (s.setChan c x).drw = s.drw := (rfl)
@[simp] theorem State.setChan_sram (s : State) (c : Nat) (x : Chan) : (s.setChan c x).sram = s.sram := (rfl)
@[simp] theorem State.setChan_bad (s : State) (c : Nat) (x : Chan) : (s.setChan c x).bad = s.bad := (rfl)
@[simp] theorem State.setChan_coldLow (s : State) (c : Nat) (x : Chan) : (s.setChan c x).coldLow = s.coldLow := (rfl)
@[simp] theorem State.setChan_railsOk (s : State) (c : Nat) (x : Chan) : (s.setChan c x).railsOk = s.railsOk := (rfl)
@[simp] theorem State.setChan_dip (s : State) (c : Nat) (x : Chan) : (s.setChan c x).dip = s.dip := (rfl)
@[simp] theorem State.setChan_tripped (s : State) (c : Nat) (x : Chan) : (s.setChan c x).tripped = s.tripped := (rfl)
@[simp] theorem State.setChan_pwr (s : State) (c : Nat) (x : Chan) : (s.setChan c x).pwr = s.pwr := (rfl)
@[simp] theorem State.setChan_mesh (s : State) (c : Nat) (x : Chan) : (s.setChan c x).mesh = s.mesh := (rfl)
@[simp] theorem State.setChan_load (s : State) (c : Nat) (x : Chan) : (s.setChan c x).load = s.load := (rfl)
@[simp] theorem State.setChan_resident (s : State) (c : Nat) (x : Chan) : (s.setChan c x).resident = s.resident := (rfl)
@[simp] theorem State.setChan_staged (s : State) (c : Nat) (x : Chan) : (s.setChan c x).staged = s.staged := (rfl)
@[simp] theorem State.setChan_fab (s : State) (c : Nat) (x : Chan) : (s.setChan c x).fab = s.fab := (rfl)
@[simp] theorem State.setChan_benches (s : State) (c : Nat) (x : Chan) : (s.setChan c x).benches = s.benches := (rfl)
@[simp] theorem State.setChan_wports (s : State) (c : Nat) (x : Chan) : (s.setChan c x).wports = s.wports := (rfl)
@[simp] theorem State.setChan_remote (s : State) (c : Nat) (x : Chan) : (s.setChan c x).remote = s.remote := (rfl)
@[simp] theorem State.setChan_nextTag (s : State) (c : Nat) (x : Chan) : (s.setChan c x).nextTag = s.nextTag := (rfl)
@[simp] theorem State.setChan_queues (s : State) (c : Nat) (x : Chan) : (s.setChan c x).queues = s.queues := (rfl)
@[simp] theorem State.setChan_upd (s : State) (c : Nat) (x : Chan) : (s.setChan c x).upd = s.upd := (rfl)
@[simp] theorem State.setChan_red (s : State) (c : Nat) (x : Chan) : (s.setChan c x).red = s.red := (rfl)
@[simp] theorem State.setChan_links (s : State) (c : Nat) (x : Chan) : (s.setChan c x).links = s.links := (rfl)
@[simp] theorem State.setChan_bundles (s : State) (c : Nat) (x : Chan) : (s.setChan c x).bundles = s.bundles := (rfl)
@[simp] theorem State.setChan_lnkIn (s : State) (c : Nat) (x : Chan) : (s.setChan c x).lnkIn = s.lnkIn := (rfl)
@[simp] theorem State.setChan_opens (s : State) (c : Nat) (x : Chan) : (s.setChan c x).opens = s.opens := (rfl)
@[simp] theorem State.setChan_cells (s : State) (c : Nat) (x : Chan) : (s.setChan c x).cells = s.cells := (rfl)
@[simp] theorem State.setChan_waits (s : State) (c : Nat) (x : Chan) : (s.setChan c x).waits = s.waits := (rfl)
@[simp] theorem State.setChan_slots (s : State) (c : Nat) (x : Chan) : (s.setChan c x).slots = s.slots := (rfl)
@[simp] theorem State.setChan_ras (s : State) (c : Nat) (x : Chan) : (s.setChan c x).ras = s.ras := (rfl)
@[simp] theorem State.setChan_ckp (s : State) (c : Nat) (x : Chan) : (s.setChan c x).ckp = s.ckp := (rfl)
@[simp] theorem State.setChan_sec (s : State) (c : Nat) (x : Chan) : (s.setChan c x).sec = s.sec := (rfl)
@[simp] theorem State.setChan_freeCtr (s : State) (c : Nat) (x : Chan) : (s.setChan c x).freeCtr = s.freeCtr := (rfl)

@[simp] theorem State.modFab_pending (s : State) (f : Fab → Fab) : (s.modFab f).pending = s.pending := (rfl)
@[simp] theorem State.modFab_regs (s : State) (f : Fab → Fab) : (s.modFab f).regs = s.regs := (rfl)
@[simp] theorem State.modFab_shadow (s : State) (f : Fab → Fab) : (s.modFab f).shadow = s.shadow := (rfl)
@[simp] theorem State.modFab_boardPending (s : State) (f : Fab → Fab) : (s.modFab f).boardPending = s.boardPending := (rfl)
@[simp] theorem State.modFab_wrd (s : State) (f : Fab → Fab) : (s.modFab f).wrd = s.wrd := (rfl)
@[simp] theorem State.modFab_shelf (s : State) (f : Fab → Fab) : (s.modFab f).shelf = s.shelf := (rfl)
@[simp] theorem State.modFab_sp (s : State) (f : Fab → Fab) : (s.modFab f).sp = s.sp := (rfl)
@[simp] theorem State.modFab_qst (s : State) (f : Fab → Fab) : (s.modFab f).qst = s.qst := (rfl)
@[simp] theorem State.modFab_drw (s : State) (f : Fab → Fab) : (s.modFab f).drw = s.drw := (rfl)
@[simp] theorem State.modFab_sram (s : State) (f : Fab → Fab) : (s.modFab f).sram = s.sram := (rfl)
@[simp] theorem State.modFab_bad (s : State) (f : Fab → Fab) : (s.modFab f).bad = s.bad := (rfl)
@[simp] theorem State.modFab_coldLow (s : State) (f : Fab → Fab) : (s.modFab f).coldLow = s.coldLow := (rfl)
@[simp] theorem State.modFab_railsOk (s : State) (f : Fab → Fab) : (s.modFab f).railsOk = s.railsOk := (rfl)
@[simp] theorem State.modFab_dip (s : State) (f : Fab → Fab) : (s.modFab f).dip = s.dip := (rfl)
@[simp] theorem State.modFab_tripped (s : State) (f : Fab → Fab) : (s.modFab f).tripped = s.tripped := (rfl)
@[simp] theorem State.modFab_pwr (s : State) (f : Fab → Fab) : (s.modFab f).pwr = s.pwr := (rfl)
@[simp] theorem State.modFab_mesh (s : State) (f : Fab → Fab) : (s.modFab f).mesh = s.mesh := (rfl)
@[simp] theorem State.modFab_load (s : State) (f : Fab → Fab) : (s.modFab f).load = s.load := (rfl)
@[simp] theorem State.modFab_resident (s : State) (f : Fab → Fab) : (s.modFab f).resident = s.resident := (rfl)
@[simp] theorem State.modFab_staged (s : State) (f : Fab → Fab) : (s.modFab f).staged = s.staged := (rfl)
@[simp] theorem State.modFab_benches (s : State) (f : Fab → Fab) : (s.modFab f).benches = s.benches := (rfl)
@[simp] theorem State.modFab_wports (s : State) (f : Fab → Fab) : (s.modFab f).wports = s.wports := (rfl)
@[simp] theorem State.modFab_remote (s : State) (f : Fab → Fab) : (s.modFab f).remote = s.remote := (rfl)
@[simp] theorem State.modFab_nextTag (s : State) (f : Fab → Fab) : (s.modFab f).nextTag = s.nextTag := (rfl)
@[simp] theorem State.modFab_queues (s : State) (f : Fab → Fab) : (s.modFab f).queues = s.queues := (rfl)
@[simp] theorem State.modFab_upd (s : State) (f : Fab → Fab) : (s.modFab f).upd = s.upd := (rfl)
@[simp] theorem State.modFab_red (s : State) (f : Fab → Fab) : (s.modFab f).red = s.red := (rfl)
@[simp] theorem State.modFab_links (s : State) (f : Fab → Fab) : (s.modFab f).links = s.links := (rfl)
@[simp] theorem State.modFab_bundles (s : State) (f : Fab → Fab) : (s.modFab f).bundles = s.bundles := (rfl)
@[simp] theorem State.modFab_lnkIn (s : State) (f : Fab → Fab) : (s.modFab f).lnkIn = s.lnkIn := (rfl)
@[simp] theorem State.modFab_opens (s : State) (f : Fab → Fab) : (s.modFab f).opens = s.opens := (rfl)
@[simp] theorem State.modFab_cells (s : State) (f : Fab → Fab) : (s.modFab f).cells = s.cells := (rfl)
@[simp] theorem State.modFab_waits (s : State) (f : Fab → Fab) : (s.modFab f).waits = s.waits := (rfl)
@[simp] theorem State.modFab_slots (s : State) (f : Fab → Fab) : (s.modFab f).slots = s.slots := (rfl)
@[simp] theorem State.modFab_hst (s : State) (f : Fab → Fab) : (s.modFab f).hst = s.hst := (rfl)
@[simp] theorem State.modFab_ras (s : State) (f : Fab → Fab) : (s.modFab f).ras = s.ras := (rfl)
@[simp] theorem State.modFab_ckp (s : State) (f : Fab → Fab) : (s.modFab f).ckp = s.ckp := (rfl)
@[simp] theorem State.modFab_sec (s : State) (f : Fab → Fab) : (s.modFab f).sec = s.sec := (rfl)
@[simp] theorem State.modFab_freeCtr (s : State) (f : Fab → Fab) : (s.modFab f).freeCtr = s.freeCtr := (rfl)

@[simp] theorem State.modRed_pending (s : State) (f : Red → Red) : (s.modRed f).pending = s.pending := (rfl)
@[simp] theorem State.modRed_regs (s : State) (f : Red → Red) : (s.modRed f).regs = s.regs := (rfl)
@[simp] theorem State.modRed_shadow (s : State) (f : Red → Red) : (s.modRed f).shadow = s.shadow := (rfl)
@[simp] theorem State.modRed_boardPending (s : State) (f : Red → Red) : (s.modRed f).boardPending = s.boardPending := (rfl)
@[simp] theorem State.modRed_wrd (s : State) (f : Red → Red) : (s.modRed f).wrd = s.wrd := (rfl)
@[simp] theorem State.modRed_shelf (s : State) (f : Red → Red) : (s.modRed f).shelf = s.shelf := (rfl)
@[simp] theorem State.modRed_sp (s : State) (f : Red → Red) : (s.modRed f).sp = s.sp := (rfl)
@[simp] theorem State.modRed_qst (s : State) (f : Red → Red) : (s.modRed f).qst = s.qst := (rfl)
@[simp] theorem State.modRed_drw (s : State) (f : Red → Red) : (s.modRed f).drw = s.drw := (rfl)
@[simp] theorem State.modRed_sram (s : State) (f : Red → Red) : (s.modRed f).sram = s.sram := (rfl)
@[simp] theorem State.modRed_bad (s : State) (f : Red → Red) : (s.modRed f).bad = s.bad := (rfl)
@[simp] theorem State.modRed_coldLow (s : State) (f : Red → Red) : (s.modRed f).coldLow = s.coldLow := (rfl)
@[simp] theorem State.modRed_railsOk (s : State) (f : Red → Red) : (s.modRed f).railsOk = s.railsOk := (rfl)
@[simp] theorem State.modRed_dip (s : State) (f : Red → Red) : (s.modRed f).dip = s.dip := (rfl)
@[simp] theorem State.modRed_tripped (s : State) (f : Red → Red) : (s.modRed f).tripped = s.tripped := (rfl)
@[simp] theorem State.modRed_pwr (s : State) (f : Red → Red) : (s.modRed f).pwr = s.pwr := (rfl)
@[simp] theorem State.modRed_mesh (s : State) (f : Red → Red) : (s.modRed f).mesh = s.mesh := (rfl)
@[simp] theorem State.modRed_load (s : State) (f : Red → Red) : (s.modRed f).load = s.load := (rfl)
@[simp] theorem State.modRed_resident (s : State) (f : Red → Red) : (s.modRed f).resident = s.resident := (rfl)
@[simp] theorem State.modRed_staged (s : State) (f : Red → Red) : (s.modRed f).staged = s.staged := (rfl)
@[simp] theorem State.modRed_fab (s : State) (f : Red → Red) : (s.modRed f).fab = s.fab := (rfl)
@[simp] theorem State.modRed_benches (s : State) (f : Red → Red) : (s.modRed f).benches = s.benches := (rfl)
@[simp] theorem State.modRed_wports (s : State) (f : Red → Red) : (s.modRed f).wports = s.wports := (rfl)
@[simp] theorem State.modRed_remote (s : State) (f : Red → Red) : (s.modRed f).remote = s.remote := (rfl)
@[simp] theorem State.modRed_nextTag (s : State) (f : Red → Red) : (s.modRed f).nextTag = s.nextTag := (rfl)
@[simp] theorem State.modRed_queues (s : State) (f : Red → Red) : (s.modRed f).queues = s.queues := (rfl)
@[simp] theorem State.modRed_upd (s : State) (f : Red → Red) : (s.modRed f).upd = s.upd := (rfl)
@[simp] theorem State.modRed_links (s : State) (f : Red → Red) : (s.modRed f).links = s.links := (rfl)
@[simp] theorem State.modRed_bundles (s : State) (f : Red → Red) : (s.modRed f).bundles = s.bundles := (rfl)
@[simp] theorem State.modRed_lnkIn (s : State) (f : Red → Red) : (s.modRed f).lnkIn = s.lnkIn := (rfl)
@[simp] theorem State.modRed_opens (s : State) (f : Red → Red) : (s.modRed f).opens = s.opens := (rfl)
@[simp] theorem State.modRed_cells (s : State) (f : Red → Red) : (s.modRed f).cells = s.cells := (rfl)
@[simp] theorem State.modRed_waits (s : State) (f : Red → Red) : (s.modRed f).waits = s.waits := (rfl)
@[simp] theorem State.modRed_slots (s : State) (f : Red → Red) : (s.modRed f).slots = s.slots := (rfl)
@[simp] theorem State.modRed_hst (s : State) (f : Red → Red) : (s.modRed f).hst = s.hst := (rfl)
@[simp] theorem State.modRed_ras (s : State) (f : Red → Red) : (s.modRed f).ras = s.ras := (rfl)
@[simp] theorem State.modRed_ckp (s : State) (f : Red → Red) : (s.modRed f).ckp = s.ckp := (rfl)
@[simp] theorem State.modRed_sec (s : State) (f : Red → Red) : (s.modRed f).sec = s.sec := (rfl)
@[simp] theorem State.modRed_freeCtr (s : State) (f : Red → Red) : (s.modRed f).freeCtr = s.freeCtr := (rfl)

@[simp] theorem State.modHst_pending (s : State) (f : Hst → Hst) : (s.modHst f).pending = s.pending := (rfl)
@[simp] theorem State.modHst_regs (s : State) (f : Hst → Hst) : (s.modHst f).regs = s.regs := (rfl)
@[simp] theorem State.modHst_shadow (s : State) (f : Hst → Hst) : (s.modHst f).shadow = s.shadow := (rfl)
@[simp] theorem State.modHst_boardPending (s : State) (f : Hst → Hst) : (s.modHst f).boardPending = s.boardPending := (rfl)
@[simp] theorem State.modHst_wrd (s : State) (f : Hst → Hst) : (s.modHst f).wrd = s.wrd := (rfl)
@[simp] theorem State.modHst_shelf (s : State) (f : Hst → Hst) : (s.modHst f).shelf = s.shelf := (rfl)
@[simp] theorem State.modHst_sp (s : State) (f : Hst → Hst) : (s.modHst f).sp = s.sp := (rfl)
@[simp] theorem State.modHst_qst (s : State) (f : Hst → Hst) : (s.modHst f).qst = s.qst := (rfl)
@[simp] theorem State.modHst_drw (s : State) (f : Hst → Hst) : (s.modHst f).drw = s.drw := (rfl)
@[simp] theorem State.modHst_sram (s : State) (f : Hst → Hst) : (s.modHst f).sram = s.sram := (rfl)
@[simp] theorem State.modHst_bad (s : State) (f : Hst → Hst) : (s.modHst f).bad = s.bad := (rfl)
@[simp] theorem State.modHst_coldLow (s : State) (f : Hst → Hst) : (s.modHst f).coldLow = s.coldLow := (rfl)
@[simp] theorem State.modHst_railsOk (s : State) (f : Hst → Hst) : (s.modHst f).railsOk = s.railsOk := (rfl)
@[simp] theorem State.modHst_dip (s : State) (f : Hst → Hst) : (s.modHst f).dip = s.dip := (rfl)
@[simp] theorem State.modHst_tripped (s : State) (f : Hst → Hst) : (s.modHst f).tripped = s.tripped := (rfl)
@[simp] theorem State.modHst_pwr (s : State) (f : Hst → Hst) : (s.modHst f).pwr = s.pwr := (rfl)
@[simp] theorem State.modHst_mesh (s : State) (f : Hst → Hst) : (s.modHst f).mesh = s.mesh := (rfl)
@[simp] theorem State.modHst_load (s : State) (f : Hst → Hst) : (s.modHst f).load = s.load := (rfl)
@[simp] theorem State.modHst_resident (s : State) (f : Hst → Hst) : (s.modHst f).resident = s.resident := (rfl)
@[simp] theorem State.modHst_staged (s : State) (f : Hst → Hst) : (s.modHst f).staged = s.staged := (rfl)
@[simp] theorem State.modHst_fab (s : State) (f : Hst → Hst) : (s.modHst f).fab = s.fab := (rfl)
@[simp] theorem State.modHst_benches (s : State) (f : Hst → Hst) : (s.modHst f).benches = s.benches := (rfl)
@[simp] theorem State.modHst_wports (s : State) (f : Hst → Hst) : (s.modHst f).wports = s.wports := (rfl)
@[simp] theorem State.modHst_remote (s : State) (f : Hst → Hst) : (s.modHst f).remote = s.remote := (rfl)
@[simp] theorem State.modHst_nextTag (s : State) (f : Hst → Hst) : (s.modHst f).nextTag = s.nextTag := (rfl)
@[simp] theorem State.modHst_queues (s : State) (f : Hst → Hst) : (s.modHst f).queues = s.queues := (rfl)
@[simp] theorem State.modHst_upd (s : State) (f : Hst → Hst) : (s.modHst f).upd = s.upd := (rfl)
@[simp] theorem State.modHst_red (s : State) (f : Hst → Hst) : (s.modHst f).red = s.red := (rfl)
@[simp] theorem State.modHst_links (s : State) (f : Hst → Hst) : (s.modHst f).links = s.links := (rfl)
@[simp] theorem State.modHst_bundles (s : State) (f : Hst → Hst) : (s.modHst f).bundles = s.bundles := (rfl)
@[simp] theorem State.modHst_lnkIn (s : State) (f : Hst → Hst) : (s.modHst f).lnkIn = s.lnkIn := (rfl)
@[simp] theorem State.modHst_opens (s : State) (f : Hst → Hst) : (s.modHst f).opens = s.opens := (rfl)
@[simp] theorem State.modHst_cells (s : State) (f : Hst → Hst) : (s.modHst f).cells = s.cells := (rfl)
@[simp] theorem State.modHst_waits (s : State) (f : Hst → Hst) : (s.modHst f).waits = s.waits := (rfl)
@[simp] theorem State.modHst_slots (s : State) (f : Hst → Hst) : (s.modHst f).slots = s.slots := (rfl)
@[simp] theorem State.modHst_ras (s : State) (f : Hst → Hst) : (s.modHst f).ras = s.ras := (rfl)
@[simp] theorem State.modHst_ckp (s : State) (f : Hst → Hst) : (s.modHst f).ckp = s.ckp := (rfl)
@[simp] theorem State.modHst_sec (s : State) (f : Hst → Hst) : (s.modHst f).sec = s.sec := (rfl)
@[simp] theorem State.modHst_freeCtr (s : State) (f : Hst → Hst) : (s.modHst f).freeCtr = s.freeCtr := (rfl)

@[simp] theorem State.modRas_pending (s : State) (f : Ras → Ras) : (s.modRas f).pending = s.pending := (rfl)
@[simp] theorem State.modRas_regs (s : State) (f : Ras → Ras) : (s.modRas f).regs = s.regs := (rfl)
@[simp] theorem State.modRas_shadow (s : State) (f : Ras → Ras) : (s.modRas f).shadow = s.shadow := (rfl)
@[simp] theorem State.modRas_boardPending (s : State) (f : Ras → Ras) : (s.modRas f).boardPending = s.boardPending := (rfl)
@[simp] theorem State.modRas_wrd (s : State) (f : Ras → Ras) : (s.modRas f).wrd = s.wrd := (rfl)
@[simp] theorem State.modRas_shelf (s : State) (f : Ras → Ras) : (s.modRas f).shelf = s.shelf := (rfl)
@[simp] theorem State.modRas_sp (s : State) (f : Ras → Ras) : (s.modRas f).sp = s.sp := (rfl)
@[simp] theorem State.modRas_qst (s : State) (f : Ras → Ras) : (s.modRas f).qst = s.qst := (rfl)
@[simp] theorem State.modRas_drw (s : State) (f : Ras → Ras) : (s.modRas f).drw = s.drw := (rfl)
@[simp] theorem State.modRas_sram (s : State) (f : Ras → Ras) : (s.modRas f).sram = s.sram := (rfl)
@[simp] theorem State.modRas_bad (s : State) (f : Ras → Ras) : (s.modRas f).bad = s.bad := (rfl)
@[simp] theorem State.modRas_coldLow (s : State) (f : Ras → Ras) : (s.modRas f).coldLow = s.coldLow := (rfl)
@[simp] theorem State.modRas_railsOk (s : State) (f : Ras → Ras) : (s.modRas f).railsOk = s.railsOk := (rfl)
@[simp] theorem State.modRas_dip (s : State) (f : Ras → Ras) : (s.modRas f).dip = s.dip := (rfl)
@[simp] theorem State.modRas_tripped (s : State) (f : Ras → Ras) : (s.modRas f).tripped = s.tripped := (rfl)
@[simp] theorem State.modRas_pwr (s : State) (f : Ras → Ras) : (s.modRas f).pwr = s.pwr := (rfl)
@[simp] theorem State.modRas_mesh (s : State) (f : Ras → Ras) : (s.modRas f).mesh = s.mesh := (rfl)
@[simp] theorem State.modRas_load (s : State) (f : Ras → Ras) : (s.modRas f).load = s.load := (rfl)
@[simp] theorem State.modRas_resident (s : State) (f : Ras → Ras) : (s.modRas f).resident = s.resident := (rfl)
@[simp] theorem State.modRas_staged (s : State) (f : Ras → Ras) : (s.modRas f).staged = s.staged := (rfl)
@[simp] theorem State.modRas_fab (s : State) (f : Ras → Ras) : (s.modRas f).fab = s.fab := (rfl)
@[simp] theorem State.modRas_benches (s : State) (f : Ras → Ras) : (s.modRas f).benches = s.benches := (rfl)
@[simp] theorem State.modRas_wports (s : State) (f : Ras → Ras) : (s.modRas f).wports = s.wports := (rfl)
@[simp] theorem State.modRas_remote (s : State) (f : Ras → Ras) : (s.modRas f).remote = s.remote := (rfl)
@[simp] theorem State.modRas_nextTag (s : State) (f : Ras → Ras) : (s.modRas f).nextTag = s.nextTag := (rfl)
@[simp] theorem State.modRas_queues (s : State) (f : Ras → Ras) : (s.modRas f).queues = s.queues := (rfl)
@[simp] theorem State.modRas_upd (s : State) (f : Ras → Ras) : (s.modRas f).upd = s.upd := (rfl)
@[simp] theorem State.modRas_red (s : State) (f : Ras → Ras) : (s.modRas f).red = s.red := (rfl)
@[simp] theorem State.modRas_links (s : State) (f : Ras → Ras) : (s.modRas f).links = s.links := (rfl)
@[simp] theorem State.modRas_bundles (s : State) (f : Ras → Ras) : (s.modRas f).bundles = s.bundles := (rfl)
@[simp] theorem State.modRas_lnkIn (s : State) (f : Ras → Ras) : (s.modRas f).lnkIn = s.lnkIn := (rfl)
@[simp] theorem State.modRas_opens (s : State) (f : Ras → Ras) : (s.modRas f).opens = s.opens := (rfl)
@[simp] theorem State.modRas_cells (s : State) (f : Ras → Ras) : (s.modRas f).cells = s.cells := (rfl)
@[simp] theorem State.modRas_waits (s : State) (f : Ras → Ras) : (s.modRas f).waits = s.waits := (rfl)
@[simp] theorem State.modRas_slots (s : State) (f : Ras → Ras) : (s.modRas f).slots = s.slots := (rfl)
@[simp] theorem State.modRas_hst (s : State) (f : Ras → Ras) : (s.modRas f).hst = s.hst := (rfl)
@[simp] theorem State.modRas_ckp (s : State) (f : Ras → Ras) : (s.modRas f).ckp = s.ckp := (rfl)
@[simp] theorem State.modRas_sec (s : State) (f : Ras → Ras) : (s.modRas f).sec = s.sec := (rfl)
@[simp] theorem State.modRas_freeCtr (s : State) (f : Ras → Ras) : (s.modRas f).freeCtr = s.freeCtr := (rfl)

@[simp] theorem State.modSec_pending (s : State) (f : Sec → Sec) : (s.modSec f).pending = s.pending := (rfl)
@[simp] theorem State.modSec_regs (s : State) (f : Sec → Sec) : (s.modSec f).regs = s.regs := (rfl)
@[simp] theorem State.modSec_shadow (s : State) (f : Sec → Sec) : (s.modSec f).shadow = s.shadow := (rfl)
@[simp] theorem State.modSec_boardPending (s : State) (f : Sec → Sec) : (s.modSec f).boardPending = s.boardPending := (rfl)
@[simp] theorem State.modSec_wrd (s : State) (f : Sec → Sec) : (s.modSec f).wrd = s.wrd := (rfl)
@[simp] theorem State.modSec_shelf (s : State) (f : Sec → Sec) : (s.modSec f).shelf = s.shelf := (rfl)
@[simp] theorem State.modSec_sp (s : State) (f : Sec → Sec) : (s.modSec f).sp = s.sp := (rfl)
@[simp] theorem State.modSec_qst (s : State) (f : Sec → Sec) : (s.modSec f).qst = s.qst := (rfl)
@[simp] theorem State.modSec_drw (s : State) (f : Sec → Sec) : (s.modSec f).drw = s.drw := (rfl)
@[simp] theorem State.modSec_sram (s : State) (f : Sec → Sec) : (s.modSec f).sram = s.sram := (rfl)
@[simp] theorem State.modSec_bad (s : State) (f : Sec → Sec) : (s.modSec f).bad = s.bad := (rfl)
@[simp] theorem State.modSec_coldLow (s : State) (f : Sec → Sec) : (s.modSec f).coldLow = s.coldLow := (rfl)
@[simp] theorem State.modSec_railsOk (s : State) (f : Sec → Sec) : (s.modSec f).railsOk = s.railsOk := (rfl)
@[simp] theorem State.modSec_dip (s : State) (f : Sec → Sec) : (s.modSec f).dip = s.dip := (rfl)
@[simp] theorem State.modSec_tripped (s : State) (f : Sec → Sec) : (s.modSec f).tripped = s.tripped := (rfl)
@[simp] theorem State.modSec_pwr (s : State) (f : Sec → Sec) : (s.modSec f).pwr = s.pwr := (rfl)
@[simp] theorem State.modSec_mesh (s : State) (f : Sec → Sec) : (s.modSec f).mesh = s.mesh := (rfl)
@[simp] theorem State.modSec_load (s : State) (f : Sec → Sec) : (s.modSec f).load = s.load := (rfl)
@[simp] theorem State.modSec_resident (s : State) (f : Sec → Sec) : (s.modSec f).resident = s.resident := (rfl)
@[simp] theorem State.modSec_staged (s : State) (f : Sec → Sec) : (s.modSec f).staged = s.staged := (rfl)
@[simp] theorem State.modSec_fab (s : State) (f : Sec → Sec) : (s.modSec f).fab = s.fab := (rfl)
@[simp] theorem State.modSec_benches (s : State) (f : Sec → Sec) : (s.modSec f).benches = s.benches := (rfl)
@[simp] theorem State.modSec_wports (s : State) (f : Sec → Sec) : (s.modSec f).wports = s.wports := (rfl)
@[simp] theorem State.modSec_remote (s : State) (f : Sec → Sec) : (s.modSec f).remote = s.remote := (rfl)
@[simp] theorem State.modSec_nextTag (s : State) (f : Sec → Sec) : (s.modSec f).nextTag = s.nextTag := (rfl)
@[simp] theorem State.modSec_queues (s : State) (f : Sec → Sec) : (s.modSec f).queues = s.queues := (rfl)
@[simp] theorem State.modSec_upd (s : State) (f : Sec → Sec) : (s.modSec f).upd = s.upd := (rfl)
@[simp] theorem State.modSec_red (s : State) (f : Sec → Sec) : (s.modSec f).red = s.red := (rfl)
@[simp] theorem State.modSec_links (s : State) (f : Sec → Sec) : (s.modSec f).links = s.links := (rfl)
@[simp] theorem State.modSec_bundles (s : State) (f : Sec → Sec) : (s.modSec f).bundles = s.bundles := (rfl)
@[simp] theorem State.modSec_lnkIn (s : State) (f : Sec → Sec) : (s.modSec f).lnkIn = s.lnkIn := (rfl)
@[simp] theorem State.modSec_opens (s : State) (f : Sec → Sec) : (s.modSec f).opens = s.opens := (rfl)
@[simp] theorem State.modSec_cells (s : State) (f : Sec → Sec) : (s.modSec f).cells = s.cells := (rfl)
@[simp] theorem State.modSec_waits (s : State) (f : Sec → Sec) : (s.modSec f).waits = s.waits := (rfl)
@[simp] theorem State.modSec_slots (s : State) (f : Sec → Sec) : (s.modSec f).slots = s.slots := (rfl)
@[simp] theorem State.modSec_hst (s : State) (f : Sec → Sec) : (s.modSec f).hst = s.hst := (rfl)
@[simp] theorem State.modSec_ras (s : State) (f : Sec → Sec) : (s.modSec f).ras = s.ras := (rfl)
@[simp] theorem State.modSec_ckp (s : State) (f : Sec → Sec) : (s.modSec f).ckp = s.ckp := (rfl)
@[simp] theorem State.modSec_freeCtr (s : State) (f : Sec → Sec) : (s.modSec f).freeCtr = s.freeCtr := (rfl)

@[simp] theorem State.modPwr_pending (s : State) (f : Pwr → Pwr) : (s.modPwr f).pending = s.pending := (rfl)
@[simp] theorem State.modPwr_regs (s : State) (f : Pwr → Pwr) : (s.modPwr f).regs = s.regs := (rfl)
@[simp] theorem State.modPwr_shadow (s : State) (f : Pwr → Pwr) : (s.modPwr f).shadow = s.shadow := (rfl)
@[simp] theorem State.modPwr_boardPending (s : State) (f : Pwr → Pwr) : (s.modPwr f).boardPending = s.boardPending := (rfl)
@[simp] theorem State.modPwr_wrd (s : State) (f : Pwr → Pwr) : (s.modPwr f).wrd = s.wrd := (rfl)
@[simp] theorem State.modPwr_shelf (s : State) (f : Pwr → Pwr) : (s.modPwr f).shelf = s.shelf := (rfl)
@[simp] theorem State.modPwr_sp (s : State) (f : Pwr → Pwr) : (s.modPwr f).sp = s.sp := (rfl)
@[simp] theorem State.modPwr_qst (s : State) (f : Pwr → Pwr) : (s.modPwr f).qst = s.qst := (rfl)
@[simp] theorem State.modPwr_drw (s : State) (f : Pwr → Pwr) : (s.modPwr f).drw = s.drw := (rfl)
@[simp] theorem State.modPwr_sram (s : State) (f : Pwr → Pwr) : (s.modPwr f).sram = s.sram := (rfl)
@[simp] theorem State.modPwr_bad (s : State) (f : Pwr → Pwr) : (s.modPwr f).bad = s.bad := (rfl)
@[simp] theorem State.modPwr_coldLow (s : State) (f : Pwr → Pwr) : (s.modPwr f).coldLow = s.coldLow := (rfl)
@[simp] theorem State.modPwr_railsOk (s : State) (f : Pwr → Pwr) : (s.modPwr f).railsOk = s.railsOk := (rfl)
@[simp] theorem State.modPwr_dip (s : State) (f : Pwr → Pwr) : (s.modPwr f).dip = s.dip := (rfl)
@[simp] theorem State.modPwr_tripped (s : State) (f : Pwr → Pwr) : (s.modPwr f).tripped = s.tripped := (rfl)
@[simp] theorem State.modPwr_mesh (s : State) (f : Pwr → Pwr) : (s.modPwr f).mesh = s.mesh := (rfl)
@[simp] theorem State.modPwr_load (s : State) (f : Pwr → Pwr) : (s.modPwr f).load = s.load := (rfl)
@[simp] theorem State.modPwr_resident (s : State) (f : Pwr → Pwr) : (s.modPwr f).resident = s.resident := (rfl)
@[simp] theorem State.modPwr_staged (s : State) (f : Pwr → Pwr) : (s.modPwr f).staged = s.staged := (rfl)
@[simp] theorem State.modPwr_fab (s : State) (f : Pwr → Pwr) : (s.modPwr f).fab = s.fab := (rfl)
@[simp] theorem State.modPwr_benches (s : State) (f : Pwr → Pwr) : (s.modPwr f).benches = s.benches := (rfl)
@[simp] theorem State.modPwr_wports (s : State) (f : Pwr → Pwr) : (s.modPwr f).wports = s.wports := (rfl)
@[simp] theorem State.modPwr_remote (s : State) (f : Pwr → Pwr) : (s.modPwr f).remote = s.remote := (rfl)
@[simp] theorem State.modPwr_nextTag (s : State) (f : Pwr → Pwr) : (s.modPwr f).nextTag = s.nextTag := (rfl)
@[simp] theorem State.modPwr_queues (s : State) (f : Pwr → Pwr) : (s.modPwr f).queues = s.queues := (rfl)
@[simp] theorem State.modPwr_upd (s : State) (f : Pwr → Pwr) : (s.modPwr f).upd = s.upd := (rfl)
@[simp] theorem State.modPwr_red (s : State) (f : Pwr → Pwr) : (s.modPwr f).red = s.red := (rfl)
@[simp] theorem State.modPwr_links (s : State) (f : Pwr → Pwr) : (s.modPwr f).links = s.links := (rfl)
@[simp] theorem State.modPwr_bundles (s : State) (f : Pwr → Pwr) : (s.modPwr f).bundles = s.bundles := (rfl)
@[simp] theorem State.modPwr_lnkIn (s : State) (f : Pwr → Pwr) : (s.modPwr f).lnkIn = s.lnkIn := (rfl)
@[simp] theorem State.modPwr_opens (s : State) (f : Pwr → Pwr) : (s.modPwr f).opens = s.opens := (rfl)
@[simp] theorem State.modPwr_cells (s : State) (f : Pwr → Pwr) : (s.modPwr f).cells = s.cells := (rfl)
@[simp] theorem State.modPwr_waits (s : State) (f : Pwr → Pwr) : (s.modPwr f).waits = s.waits := (rfl)
@[simp] theorem State.modPwr_slots (s : State) (f : Pwr → Pwr) : (s.modPwr f).slots = s.slots := (rfl)
@[simp] theorem State.modPwr_hst (s : State) (f : Pwr → Pwr) : (s.modPwr f).hst = s.hst := (rfl)
@[simp] theorem State.modPwr_ras (s : State) (f : Pwr → Pwr) : (s.modPwr f).ras = s.ras := (rfl)
@[simp] theorem State.modPwr_ckp (s : State) (f : Pwr → Pwr) : (s.modPwr f).ckp = s.ckp := (rfl)
@[simp] theorem State.modPwr_sec (s : State) (f : Pwr → Pwr) : (s.modPwr f).sec = s.sec := (rfl)
@[simp] theorem State.modPwr_freeCtr (s : State) (f : Pwr → Pwr) : (s.modPwr f).freeCtr = s.freeCtr := (rfl)

@[simp] theorem State.modCkp_pending (s : State) (f : Ckp → Ckp) : (s.modCkp f).pending = s.pending := (rfl)
@[simp] theorem State.modCkp_regs (s : State) (f : Ckp → Ckp) : (s.modCkp f).regs = s.regs := (rfl)
@[simp] theorem State.modCkp_shadow (s : State) (f : Ckp → Ckp) : (s.modCkp f).shadow = s.shadow := (rfl)
@[simp] theorem State.modCkp_boardPending (s : State) (f : Ckp → Ckp) : (s.modCkp f).boardPending = s.boardPending := (rfl)
@[simp] theorem State.modCkp_wrd (s : State) (f : Ckp → Ckp) : (s.modCkp f).wrd = s.wrd := (rfl)
@[simp] theorem State.modCkp_shelf (s : State) (f : Ckp → Ckp) : (s.modCkp f).shelf = s.shelf := (rfl)
@[simp] theorem State.modCkp_sp (s : State) (f : Ckp → Ckp) : (s.modCkp f).sp = s.sp := (rfl)
@[simp] theorem State.modCkp_qst (s : State) (f : Ckp → Ckp) : (s.modCkp f).qst = s.qst := (rfl)
@[simp] theorem State.modCkp_drw (s : State) (f : Ckp → Ckp) : (s.modCkp f).drw = s.drw := (rfl)
@[simp] theorem State.modCkp_sram (s : State) (f : Ckp → Ckp) : (s.modCkp f).sram = s.sram := (rfl)
@[simp] theorem State.modCkp_bad (s : State) (f : Ckp → Ckp) : (s.modCkp f).bad = s.bad := (rfl)
@[simp] theorem State.modCkp_coldLow (s : State) (f : Ckp → Ckp) : (s.modCkp f).coldLow = s.coldLow := (rfl)
@[simp] theorem State.modCkp_railsOk (s : State) (f : Ckp → Ckp) : (s.modCkp f).railsOk = s.railsOk := (rfl)
@[simp] theorem State.modCkp_dip (s : State) (f : Ckp → Ckp) : (s.modCkp f).dip = s.dip := (rfl)
@[simp] theorem State.modCkp_tripped (s : State) (f : Ckp → Ckp) : (s.modCkp f).tripped = s.tripped := (rfl)
@[simp] theorem State.modCkp_pwr (s : State) (f : Ckp → Ckp) : (s.modCkp f).pwr = s.pwr := (rfl)
@[simp] theorem State.modCkp_mesh (s : State) (f : Ckp → Ckp) : (s.modCkp f).mesh = s.mesh := (rfl)
@[simp] theorem State.modCkp_load (s : State) (f : Ckp → Ckp) : (s.modCkp f).load = s.load := (rfl)
@[simp] theorem State.modCkp_resident (s : State) (f : Ckp → Ckp) : (s.modCkp f).resident = s.resident := (rfl)
@[simp] theorem State.modCkp_staged (s : State) (f : Ckp → Ckp) : (s.modCkp f).staged = s.staged := (rfl)
@[simp] theorem State.modCkp_fab (s : State) (f : Ckp → Ckp) : (s.modCkp f).fab = s.fab := (rfl)
@[simp] theorem State.modCkp_benches (s : State) (f : Ckp → Ckp) : (s.modCkp f).benches = s.benches := (rfl)
@[simp] theorem State.modCkp_wports (s : State) (f : Ckp → Ckp) : (s.modCkp f).wports = s.wports := (rfl)
@[simp] theorem State.modCkp_remote (s : State) (f : Ckp → Ckp) : (s.modCkp f).remote = s.remote := (rfl)
@[simp] theorem State.modCkp_nextTag (s : State) (f : Ckp → Ckp) : (s.modCkp f).nextTag = s.nextTag := (rfl)
@[simp] theorem State.modCkp_queues (s : State) (f : Ckp → Ckp) : (s.modCkp f).queues = s.queues := (rfl)
@[simp] theorem State.modCkp_upd (s : State) (f : Ckp → Ckp) : (s.modCkp f).upd = s.upd := (rfl)
@[simp] theorem State.modCkp_red (s : State) (f : Ckp → Ckp) : (s.modCkp f).red = s.red := (rfl)
@[simp] theorem State.modCkp_links (s : State) (f : Ckp → Ckp) : (s.modCkp f).links = s.links := (rfl)
@[simp] theorem State.modCkp_bundles (s : State) (f : Ckp → Ckp) : (s.modCkp f).bundles = s.bundles := (rfl)
@[simp] theorem State.modCkp_lnkIn (s : State) (f : Ckp → Ckp) : (s.modCkp f).lnkIn = s.lnkIn := (rfl)
@[simp] theorem State.modCkp_opens (s : State) (f : Ckp → Ckp) : (s.modCkp f).opens = s.opens := (rfl)
@[simp] theorem State.modCkp_cells (s : State) (f : Ckp → Ckp) : (s.modCkp f).cells = s.cells := (rfl)
@[simp] theorem State.modCkp_waits (s : State) (f : Ckp → Ckp) : (s.modCkp f).waits = s.waits := (rfl)
@[simp] theorem State.modCkp_slots (s : State) (f : Ckp → Ckp) : (s.modCkp f).slots = s.slots := (rfl)
@[simp] theorem State.modCkp_hst (s : State) (f : Ckp → Ckp) : (s.modCkp f).hst = s.hst := (rfl)
@[simp] theorem State.modCkp_ras (s : State) (f : Ckp → Ckp) : (s.modCkp f).ras = s.ras := (rfl)
@[simp] theorem State.modCkp_sec (s : State) (f : Ckp → Ckp) : (s.modCkp f).sec = s.sec := (rfl)
@[simp] theorem State.modCkp_freeCtr (s : State) (f : Ckp → Ckp) : (s.modCkp f).freeCtr = s.freeCtr := (rfl)

@[simp] theorem State.modFab_fab (s : State) (f : Fab → Fab) : (s.modFab f).fab = f s.fab := (rfl)
@[simp] theorem State.modRed_red (s : State) (f : Red → Red) : (s.modRed f).red = f s.red := (rfl)
@[simp] theorem State.modHst_hst (s : State) (f : Hst → Hst) : (s.modHst f).hst = f s.hst := (rfl)
@[simp] theorem State.modRas_ras (s : State) (f : Ras → Ras) : (s.modRas f).ras = f s.ras := (rfl)
@[simp] theorem State.modSec_sec (s : State) (f : Sec → Sec) : (s.modSec f).sec = f s.sec := (rfl)
@[simp] theorem State.modPwr_pwr (s : State) (f : Pwr → Pwr) : (s.modPwr f).pwr = f s.pwr := (rfl)
@[simp] theorem State.modCkp_ckp (s : State) (f : Ckp → Ckp) : (s.modCkp f).ckp = f s.ckp := (rfl)
@[simp] theorem State.withPending_pending (s : State) (l : List Instr) : (s.withPending l).pending = l := (rfl)

/-! Updates that are others by name. -/

@[simp] theorem State.setF_eq (s : State) (f : Fld) : s.setF f = s.put f 1 := (rfl)
@[simp] theorem State.clrF_eq (s : State) (f : Fld) : s.clrF f = s.put f 0 := (rfl)
theorem State.incSat_eq (s : State) (f : Fld) (n : Nat) : s.incSat f n = s.put f (min (2 ^ f.width - 1) (s.get f + n)) := (rfl)
theorem State.incMod_eq (s : State) (f : Fld) (n : Nat) : s.incMod f n = s.put f (s.get f + n) := (rfl)
@[simp] theorem State.modBench_eq (s : State) (p : Nat) (f : Bench → Bench) : s.modBench p f = s.setBench p (f (s.bench p)) := (rfl)
@[simp] theorem State.modQueue_eq (s : State) (q : Nat) (f : Queue → Queue) : s.modQueue q f = s.setQueue q (f (s.queue q)) := (rfl)
@[simp] theorem State.modLink_eq (s : State) (l : Nat) (f : Link → Link) : s.modLink l f = s.setLink l (f (s.link l)) := (rfl)
@[simp] theorem State.modBundle_eq (s : State) (d : Nat) (f : Bundle → Bundle) : s.modBundle d f = s.setBundle d (f (s.bundle d)) := (rfl)
@[simp] theorem State.modCell_eq (s : State) (c : Nat) (f : Cell → Cell) : s.modCell c f = s.setCell c (f (s.cell c)) := (rfl)
@[simp] theorem State.modWport_eq (s : State) (p : Nat) (f : WPort → WPort) : s.modWport p f = s.setWport p (f (s.wport p)) := (rfl)
@[simp] theorem State.modChan_eq (s : State) (c : Nat) (f : Chan → Chan) : s.modChan c f = s.setChan c (f (s.chan c)) := (rfl)

end Sys2Proof.Machine
end

