-- ==== Sys2Proof/Laws/Ops.lean ====
section
/-! SUPPORT. What the shared operations over registers, alerts, records and memories can do, said once each. -/

namespace Sys2Proof.Machine

/-! ## How a row answers -/

theorem act_live (s : State) (f : State → State) (hr : s.railsOk = true) (hc : s.coldLow = false) :
    act s f = .next (s.keepIns (f s)) := by simp [act, hr, hc]

theorem act_cold (s : State) (f : State → State) (hr : s.railsOk = true) (hc : s.coldLow = true) :
    act s f = .next s := by simp [act, hr, hc]

theorem act_lost (s : State) (f : State → State) (hr : s.railsOk = false) : act s f = .fault .railsLost := by
  simp [act, hr]

/-- A row that answers a next state leaves the queue and the two input pins as they were. -/
theorem act_keeps (s t : State) (f : State → State) (h : act s f = .next t) :
    t.pending = s.pending ∧ t.coldLow = s.coldLow ∧ t.railsOk = s.railsOk := by
  unfold act at h
  split at h
  · split at h
    · cases h; simp
    · cases h; simp_all [State.keepIns]
  · cases h

/-- A state whose queue and pins are those of `s` is what the row leaves. -/
theorem State.keepIns_eq (s t : State) (hp : t.pending = s.pending) (hc : t.coldLow = false) (hr : t.railsOk = true) :
    s.keepIns t = t := by
  unfold State.keepIns; rw [← hp, ← hc, ← hr]

/-! ## Registers -/

theorem State.word_setWord (s : State) (o p : Nat) (w : Word) :
    (s.setWord o w).word p = if p = o then w else s.word p :=
  SMap.get_set s.regs (resetWord o) o p w (resetWord p) (fun h => by rw [h])

@[simp] theorem State.word_setWord_same (s : State) (o : Nat) (w : Word) : (s.setWord o w).word o = w := by
  simp [State.word_setWord]

theorem State.word_put (s : State) (f : Fld) (v p : Nat) :
    (s.put f v).word p = if p = f.off then fput (s.word f.off) f.hi f.lo v else s.word p :=
  State.word_setWord s f.off p _

/-- A bit of a field. -/
theorem testBit_fget (w : Word) (hi lo i : Nat) :
    (fget w hi lo).testBit i = (decide (i < hi + 1 - lo) && w.toNat.testBit (lo + i)) := by
  unfold fget bits
  rw [Nat.testBit_mod_two_pow, Nat.testBit_div_two_pow, Nat.add_comm i lo]

/-- A bit of a word with one field written. -/
theorem testBit_fput (w : Word) (hi lo v i : Nat) (h : lo ≤ hi + 1) :
    (fput w hi lo v).toNat.testBit i =
      (decide (i < 64) && if lo ≤ i ∧ i ≤ hi then v.testBit (i - lo) else w.toNat.testBit i) := by
  have e : (2 : Nat) ^ (hi + 1) = 2 ^ lo * 2 ^ (hi + 1 - lo) := by rw [← Nat.pow_add]; congr 1; omega
  have h1 : w.toNat % 2 ^ lo < 2 ^ lo := Nat.mod_lt _ (Nat.two_pow_pos _)
  have h2 : v % 2 ^ (hi + 1 - lo) < 2 ^ (hi + 1 - lo) := Nat.mod_lt _ (Nat.two_pow_pos _)
  have h3 : 2 ^ lo * (v % 2 ^ (hi + 1 - lo)) + w.toNat % 2 ^ lo < 2 ^ (hi + 1) := by
    rw [e]
    calc _ < 2 ^ lo * (v % 2 ^ (hi + 1 - lo)) + 2 ^ lo := by omega
      _ = 2 ^ lo * (v % 2 ^ (hi + 1 - lo) + 1) := by ring
      _ ≤ _ := Nat.mul_le_mul_left _ h2
  have k : w.toNat % 2 ^ lo + v % 2 ^ (hi + 1 - lo) * 2 ^ lo + w.toNat / 2 ^ (hi + 1) * 2 ^ (hi + 1) =
      2 ^ (hi + 1) * (w.toNat / 2 ^ (hi + 1)) + (2 ^ lo * (v % 2 ^ (hi + 1 - lo)) + w.toNat % 2 ^ lo) := by ring
  unfold fput
  rw [BitVec.toNat_ofNat, Nat.testBit_mod_two_pow, k, Nat.two_pow_add_eq_or_of_lt h3, Nat.two_pow_add_eq_or_of_lt h1]
  simp only [Nat.testBit_or, Nat.testBit_two_pow_mul, Nat.testBit_mod_two_pow, Nat.testBit_div_two_pow]
  by_cases h64 : i < 64 <;> simp only [h64, decide_true, decide_false, Bool.true_and, Bool.false_and]
  by_cases a1 : lo ≤ i <;> by_cases a2 : i ≤ hi
  · have b1 : ¬ hi + 1 ≤ i := by omega
    have b2 : i - lo < hi + 1 - lo := by omega
    have b3 : ¬ i < lo := by omega
    simp [a1, a2, b1, b2, b3]
  · have b1 : hi + 1 ≤ i := by omega
    have b2 : ¬ i - lo < hi + 1 - lo := by omega
    have b3 : ¬ i < lo := by omega
    have b4 : i - (hi + 1) + (hi + 1) = i := by omega
    simp [a1, a2, b1, b2, b3, b4]
  · have b1 : ¬ hi + 1 ≤ i := by omega
    have b3 : i < lo := by omega
    simp [a1, b1, b3]
  · omega

/-- A field reads what was put into it, modulo its width. -/
theorem fget_fput_same (w : Word) (hi lo v : Nat) (h1 : lo ≤ hi) (h2 : hi < 64) :
    fget (fput w hi lo v) hi lo = v % 2 ^ (hi + 1 - lo) := by
  apply Nat.eq_of_testBit_eq
  intro i
  rw [testBit_fget, testBit_fput _ _ _ _ _ (by omega), Nat.testBit_mod_two_pow]
  by_cases h : i < hi + 1 - lo
  · have a : lo + i < 64 := by omega
    have b : lo + i ≤ hi := by omega
    simp [h, a, b]
  · simp [h]

/-- A field beside the one that was put reads as before. -/
theorem fget_fput_other (w : Word) (hi lo v hi' lo' : Nat) (h1 : lo ≤ hi + 1) (h2 : hi' < 64) (h : hi' < lo ∨ hi < lo') :
    fget (fput w hi lo v) hi' lo' = fget w hi' lo' := by
  apply Nat.eq_of_testBit_eq
  intro i
  rw [testBit_fget, testBit_fget, testBit_fput _ _ _ _ _ h1]
  by_cases hi1 : i < hi' + 1 - lo'
  · have a : lo' + i < 64 := by omega
    have b : ¬ (lo ≤ lo' + i ∧ lo' + i ≤ hi) := by omega
    simp [hi1, a, b]
  · simp [hi1]

/-- A field of the register that was written reads what was put; fields of other registers, and fields beside it, read
as before. -/
theorem State.get_put_same (s : State) (f : Fld) (v : Nat) (h1 : f.lo ≤ f.hi) (h2 : f.hi < 64) :
    (s.put f v).get f = v % 2 ^ f.width := by
  unfold State.get; rw [State.word_put, if_pos rfl, fget_fput_same _ _ _ _ h1 h2]; rfl

theorem State.get_put_other (s : State) (f g : Fld) (v : Nat) (h : g.off ≠ f.off) : (s.put f v).get g = s.get g := by
  unfold State.get; rw [State.word_put, if_neg h]

theorem State.get_put_beside (s : State) (f g : Fld) (v : Nat) (h1 : f.lo ≤ f.hi + 1) (h2 : g.hi < 64)
    (h : g.hi < f.lo ∨ f.hi < g.lo) : (s.put f v).get g = s.get g := by
  by_cases ho : g.off = f.off
  · unfold State.get; rw [State.word_put, if_pos ho, fget_fput_other _ _ _ _ _ _ h1 h2 h, ho]
  · exact State.get_put_other s f g v ho

theorem State.get_setWord (s : State) (o : Nat) (w : Word) (g : Fld) :
    (s.setWord o w).get g = if g.off = o then fget w g.hi g.lo else s.get g := by
  unfold State.get; rw [State.word_setWord]; split <;> rfl

/-! ## Frames -/

theorem Same.refl (l : List Part) (s : State) : Same l s s := (rfl)

theorem Same.symm {l : List Part} {s t : State} (h : Same l s t) : Same l t s := Eq.symm h

theorem Same.trans {l : List Part} {s t u : State} (h : Same l s t) (k : Same l t u) : Same l s u := Eq.trans h k

/-- Naming more parts says less. -/
theorem Same.mono {l m : List Part} {s t : State} (h : Same l s t) (hl : ∀ x ∈ l, x ∈ m) : Same m s t := by
  have key : ∀ s : State, (s.without l).without m = s.without m := by
    intro s
    have hc : ∀ x : Part, m.contains x = false → l.contains x = false := by
      intro x hx
      by_contra hn
      simp only [Bool.not_eq_false, List.contains_iff_mem] at hn
      simp [hl x hn] at hx
    simp only [State.without, State.mk.injEq]
    refine ⟨?_, ?_, ?_, ?_, ?_, ?_, ?_, ?_, ?_, ?_, ?_, ?_, ?_, ?_, ?_, ?_, ?_, ?_, ?_, ?_, ?_, ?_, ?_, ?_, ?_, ?_, ?_,
      ?_, ?_, ?_, ?_, ?_, ?_, ?_, ?_, ?_, ?_, ?_, ?_, ?_⟩ <;> split <;> first | rfl | (rename_i hx; rw [hc _ (by simpa using hx)]; rfl)
  unfold Same at *
  rw [← key s, ← key t, h]

theorem RegsBut.refl (p : Nat → Prop) (s : State) : RegsBut p s s := fun _ _ => rfl

theorem RegsBut.trans {p : Nat → Prop} {s t u : State} (h : RegsBut p s t) (k : RegsBut p t u) : RegsBut p s u :=
  fun o ho => (k o ho).trans (h o ho)

theorem RegsBut.mono {p q : Nat → Prop} {s t : State} (h : RegsBut p s t) (hp : ∀ o, p o → q o) : RegsBut q s t :=
  fun o ho => h o (fun hq => ho (hp o hq))

theorem State.put_same (s : State) (f : Fld) (v : Nat) : Same [.regs] s (s.put f v) := (rfl)
theorem State.setWord_same (s : State) (o : Nat) (w : Word) : Same [.regs] s (s.setWord o w) := (rfl)
theorem State.modRas_same (s : State) (f : Ras → Ras) : Same [.ras] s (s.modRas f) := (rfl)
theorem State.modRed_same (s : State) (f : Red → Red) : Same [.red] s (s.modRed f) := (rfl)
theorem State.modSec_same (s : State) (f : Sec → Sec) : Same [.sec] s (s.modSec f) := (rfl)
theorem State.modFab_same (s : State) (f : Fab → Fab) : Same [.fab] s (s.modFab f) := (rfl)
theorem State.modHst_same (s : State) (f : Hst → Hst) : Same [.hst] s (s.modHst f) := (rfl)
theorem State.modPwr_same (s : State) (f : Pwr → Pwr) : Same [.pwr] s (s.modPwr f) := (rfl)
theorem State.modCkp_same (s : State) (f : Ckp → Ckp) : Same [.ckp] s (s.modCkp f) := (rfl)

theorem State.put_regs_but (s : State) (f : Fld) (v : Nat) : RegsBut (· = f.off) s (s.put f v) := by
  intro o ho; rw [State.word_put, if_neg ho]

theorem State.setWord_regs_but (s : State) (o : Nat) (w : Word) : RegsBut (· = o) s (s.setWord o w) := by
  intro p hp; rw [State.word_setWord, if_neg hp]

/-- A row of a running die answers with what its effect leaves, where that effect writes neither the queue nor a pin. -/
theorem live_act (s : State) (f : State → State) (h : s.live) (l : List Part) (hs : Same l s (f s)) (h1 : .pending ∉ l)
    (h2 : .coldLow ∉ l) (h3 : .railsOk ∉ l) : act s f = .next (f s) := by
  have e1 := congrArg State.pending hs
  have e2 := congrArg State.coldLow hs
  have e3 := congrArg State.railsOk hs
  simp only [State.without, List.contains_iff_mem, h1, h2, h3, if_false] at e1 e2 e3
  rw [act_live s f h.1 h.2, State.keepIns_eq s _ e1.symm (by rw [← e2, h.2]) (by rw [← e3, h.1])]

theorem State.on_of {s : State} {f : Fld} (h : s.get f = 1) : s.on f = true := by simp [State.on, h]

theorem State.off_of {s : State} {f : Fld} (h : s.get f = 0) : s.on f = false := by simp [State.on, h]

/-! ## Alerts and records -/

/-- An alert writes nothing but MGT_ALERT and the in-band interrupts raised (R457). -/
theorem State.alert_same (s : State) (f : Fld) : Same [.regs, .sec] s (s.alert f) := by
  unfold State.alert; split
  · rfl
  · dsimp only; split <;> rfl

theorem State.alert_regs_but (s : State) (f : Fld) : RegsBut (· = f.off) s (s.alert f) := by
  unfold State.alert; split
  · exact RegsBut.refl _ _
  · dsimp only; split
    · exact State.put_regs_but s f 1
    · exact State.put_regs_but s f 1

theorem State.latchEvent_same (s : State) (tag : Nat) (e : ErrEvent) : Same [.regs, .ras] s (s.latchEvent tag e) := by
  unfold State.latchEvent; dsimp only; split
  · exact (State.modRas_same _ _).mono (by simp)
  · split
    · exact (State.modRas_same _ _).mono (by simp)
    · exact ((State.put_same s _ _).mono (by simp)).trans ((State.modRas_same _ _).mono (by simp))

/-- An event that reaches its unit's latch writes nothing but the records and the registers of the RAS block (R403,
R405). -/
theorem State.raise_same (s : State) (tag : Nat) (e : ErrEvent) : Same [.regs, .ras] s (s.raise tag e) := by
  have h : Same [.regs, .ras] s ((s.incSat (RAS_EVENT_TOTAL.COUNT (e.unit / 4096))).latchEvent tag e) :=
    ((State.put_same s _ _).mono (by simp)).trans (State.latchEvent_same _ _ _)
  unfold State.raise; dsimp only; split
  · exact h
  · refine h.trans ?_
    generalize (s.incSat (RAS_EVENT_TOTAL.COUNT (e.unit / 4096))).latchEvent tag e = t
    exact (((State.put_same t RAS_STATUS.STORM 1).trans (State.put_same _ RAS_EVENT.STORM 1)).mono (by simp)).trans
      ((State.modRas_same _ _).mono (by simp))

theorem State.modRas_word (s : State) (f : Ras → Ras) (o : Nat) : (s.modRas f).word o = s.word o := (rfl)
theorem State.modRas_get (s : State) (f : Ras → Ras) (g : Fld) : (s.modRas f).get g = s.get g := (rfl)

theorem ras_total_block (c : Nat) (h : c < 16) : regsOf 13 (RAS_EVENT_TOTAL.COUNT c).off := by
  show regBlock (0xd0100 + c * 8) = 13
  unfold regBlock; rw [if_neg (by omega)]; omega

theorem ras_storm_block (c : Nat) (h : c < 16) : regsOf 13 (RAS_STORM_COUNT.COUNT c).off := by
  show regBlock (0xd0180 + c * 8) = 13
  unfold regBlock; rw [if_neg (by omega)]; omega

theorem State.put_regs_in (s : State) (f : Fld) (v : Nat) (p : Nat → Prop) (h : p f.off) : RegsBut p s (s.put f v) :=
  (State.put_regs_but s f v).mono (fun o ho => by rw [ho]; exact h)

theorem State.latchEvent_regs (s : State) (tag : Nat) (e : ErrEvent) (h : e.unit < 65536) :
    RegsBut (regsOf 13) s (s.latchEvent tag e) := by
  unfold State.latchEvent; dsimp only; split
  · exact fun o _ => State.modRas_word s _ o
  · split
    · exact fun o _ => State.modRas_word s _ o
    · intro o ho
      rw [State.modRas_word, State.incSat_eq]
      exact State.put_regs_in s (RAS_STORM_COUNT.COUNT (e.unit / 4096)) _ (regsOf 13) (ras_storm_block _ (by omega)) o ho

/-- The registers that a raised event may write lie in the RAS block. -/
theorem State.raise_regs (s : State) (tag : Nat) (e : ErrEvent) (h : e.unit < 65536) :
    RegsBut (regsOf 13) s (s.raise tag e) := by
  have h1 : RegsBut (regsOf 13) s ((s.incSat (RAS_EVENT_TOTAL.COUNT (e.unit / 4096))).latchEvent tag e) :=
    (State.put_regs_in s (RAS_EVENT_TOTAL.COUNT (e.unit / 4096)) _ _ (ras_total_block _ (by omega))).trans
      (State.latchEvent_regs _ _ _ h)
  unfold State.raise; dsimp only; split
  · exact h1
  · refine h1.trans ?_
    generalize (s.incSat (RAS_EVENT_TOTAL.COUNT (e.unit / 4096))).latchEvent tag e = t
    refine (State.put_regs_in t RAS_STATUS.STORM 1 _ (by unfold regsOf; decide)).trans ?_
    refine (State.put_regs_in _ RAS_EVENT.STORM 1 _ (by unfold regsOf; decide)).trans ?_
    exact fun o _ => State.modRas_word _ _ o

theorem State.latchEvent_total (s : State) (tag : Nat) (e : ErrEvent) (_h : e.unit < 65536) :
    (s.latchEvent tag e).get (RAS_EVENT_TOTAL.COUNT (e.unit / 4096)) = s.get (RAS_EVENT_TOTAL.COUNT (e.unit / 4096)) ∧
    (SMap.find? (s.latchEvent tag e).ras.latches e.unit).isSome = true := by
  unfold State.latchEvent; dsimp only; split
  · refine ⟨State.modRas_get s _ _, ?_⟩
    simp [SMap.find?_insert]
  · rename_i hf
    split
    · refine ⟨State.modRas_get s _ _, ?_⟩
      simp [SMap.find?_insert]
    · refine ⟨?_, ?_⟩
      · rw [State.modRas_get, State.incSat_eq, State.get_put_other]
        show 0xd0100 + e.unit / 4096 * 8 ≠ 0xd0180 + e.unit / 4096 * 8
        omega
      · simp only [State.modRas_ras, State.incSat_eq, State.put_ras]
        split
        · simp [hf]
        · simp [hf]

/-- An event raises a record of its unit (R403). -/
theorem State.raise_raised (s : State) (tag : Nat) (e : ErrEvent) (h : e.unit < 65536) : Raised e.unit s (s.raise tag e) := by
  obtain ⟨a, b⟩ := State.latchEvent_total (s.incSat (RAS_EVENT_TOTAL.COUNT (e.unit / 4096))) tag e h
  have c : (s.incSat (RAS_EVENT_TOTAL.COUNT (e.unit / 4096))).get (RAS_EVENT_TOTAL.COUNT (e.unit / 4096)) =
      min (2 ^ 48 - 1) (s.get (RAS_EVENT_TOTAL.COUNT (e.unit / 4096)) + 1) := by
    rw [State.incSat_eq, State.get_put_same _ _ _ (by show 0 ≤ 47; omega) (by show 47 < 64; omega)]
    show min (2 ^ 48 - 1) _ % 2 ^ 48 = _
    exact Nat.mod_eq_of_lt (by omega)
  unfold State.raise Raised
  generalize (s.incSat (RAS_EVENT_TOTAL.COUNT (e.unit / 4096))).latchEvent tag e = t at *
  dsimp only
  split
  · exact ⟨by rw [a, c], b⟩
  · unfold State.stormStart
    refine ⟨?_, ?_⟩
    · rw [State.modRas_get, State.setF_eq, State.setF_eq, State.get_put_other, State.get_put_other, a, c]
      · show 0xd0100 + e.unit / 4096 * 8 ≠ 0xd0008
        omega
      · show 0xd0100 + e.unit / 4096 * 8 ≠ 0xd0010
        omega
    · simpa using b

/-- The memories of the state at reset have the canonical form. -/
theorem State.reset_mem_wf (k : Space) : Mem.wf (State.reset.mem k) = true := by cases k <;> rfl

end Sys2Proof.Machine
end

