-- ==== Sys2Proof/Laws/Exec.lean ====
section
/-! SUPPORT. What every row shares: all but those of the pins act through `act`. -/

namespace Sys2Proof.Machine

/-- The rows of the pins: COLD_RESET_N, the rails, THERMTRIP_N. -/
def ofPins : Instr → Bool
  | .coldResetRelease _ | .coldResetAssert | .railLoss | .thermtrip _ | .vddCoreChange _ => true
  | _ => false

set_option maxRecDepth 20000 in
/-- Every other row acts on a running die alone. -/
theorem exec_act (c : Instr) (s : State) (h : ofPins c = false) : ∃ f, exec c s = act s f := by
  cases c <;> dsimp only [exec] <;> first | exact ⟨_, rfl⟩ | simp [ofPins] at h

end Sys2Proof.Machine
end

