-- ==== Sys2Proof/Tests/Slice0.lean ====
section
/-! SUPPORT. The author's own tests: ill-formed commands, states that meet the hypotheses of each statement, and rows
on small states with results from the manual. -/

open Sys2Proof Sys2Proof.Machine

namespace Sys2Proof.Tests

set_option Elab.async false
set_option maxRecDepth 100000

/-- A running die with every register at its reset value. -/
def up : State := { State.reset with coldLow := false }

/-- A state with fields at values. -/
def puts (s : State) (l : List (Fld × Nat)) : State := l.foldl (fun s f => s.put f.1 f.2) s

/-- What a row leaves, the state itself where it stops. -/
def after (c : Instr) (s : State) : State :=
  match exec c s with
  | .next t => t
  | _ => s

/-! ## The queue, cold reset and the mesh -/

theorem witness_StepRunsFront : ({ up with pending := [.rsyncPulse, .slewStep] } : State).pending = .rsyncPulse :: [.slewStep] := by
  decide +kernel

theorem witness_QueueAndTick_idle :
    (let s : State := { up with pwr := { running := true } }
     s.pending = [] ∧ s.railsOk = true ∧ s.pwr.running = true ∧ s.pwr.skip = false) ∧
    up.pending = [] ∧ up.pwr.running = false := by decide +kernel

theorem witness_QueueAndTick_front : ∃ t, step { up with pending := [.rsyncPulse] } = .next t := ⟨_, rfl⟩

/-- A die in cold reset for which a command waits. -/
def held : State := { State.reset with pending := [.rsyncPulse] }

theorem witness_ColdQuietKept : held.coldQuiet ∧ held.coldLow = true ∧ ∃ t, step held = .next t :=
  ⟨fun _ => ⟨by unfold Same; decide +kernel, fun _ _ _ => rfl⟩, rfl, ⟨_, rfl⟩⟩

theorem witness_WhenRowsStop :
    (({ up with railsOk := false } : State).railsOk = false ∧ State.reset.railsOk = true ∧ State.reset.coldLow = true ∧
      up.live) ∧
    (∀ slot, Instr.rsyncPulse ≠ .coldResetRelease slot) ∧ Instr.rsyncPulse ≠ .coldResetAssert ∧
    Instr.rsyncPulse ≠ .railLoss ∧ (∀ tj, Instr.rsyncPulse ≠ .thermtrip tj) ∧ ∀ mv, Instr.rsyncPulse ≠ .vddCoreChange mv :=
  ⟨by decide +kernel, nofun, nofun, nofun, nofun, nofun⟩

/-- Little-endian fields (offset, bytes, value) written into a memory from a base. -/
def fill (m : Mem) (base : Nat) (l : List (Nat × Nat × Nat)) : Mem :=
  l.foldl (fun m f => Mem.wrN m (base + f.1) (leBytes f.2.1 f.2.2)) m

/-- A Bench 0 at work on tile 0: the fields of its record beside MODE 1, the registers, the Bench, the RUN. -/
def rec1 (l : List (Nat × Nat × Nat)) (regs : List (Fld × Nat)) (b : Bench) (r : Run := { kind := 1 }) : State :=
  ({ puts up ((FAB_DRAWER.VALID 0, 1) :: (PWR_FN_CTRL.STATUS 0, 2) :: regs) with
    drw := fill [] 0 ((0, 1, 1) :: l), fab := { phase := .running, micros := [{ run := r }] } } : State).setBench 0 b

/-- Whether a tile works and its Bench, record and RUN meet a condition. -/
def works (s : State) (tile : Nat) (f : Nat → View → Run → Bool) : Bool :=
  match s.atWork tile with
  | some (p, v, r) => f p v r
  | none => false

/-- A staged block of ones (E4M3 0x38). -/
def ones (src : Nat) : Block := { src := src, k := 0, mn := 0, bytes := List.replicate 1024 0x38, pro := false }

/-- A die at which one message waits that a stop has delivered. -/
def got (s : State) (stop : Nat) (g : Msg) : State :=
  { s with mesh := { got := [(stop, { srcs := [0], input := 4, dst := stop, msg := g })] } }

/-- A QUEUE_PUSH of channel 3 into queue 63 in progress. -/
def pushing (s : State) : State :=
  { s with hst := { recs := [{ off := 0x21000, len := 256, st := 2, net := 1, port := 7, ch := 3, seq := 100, hdr := [], body := [],
                               stampA := 0, peer := ⟨[], 0⟩ }],
                    pushes := [(3, 100, 63)] } }

/-- A table of one bucket of four elements on channel 2, with deadline 10. -/
def tab1 (valid : Bool) : List BEnt := [⟨2, valid, -10, 10, 0, 4, 0⟩]

/-- A device at x = 1 of a job of two. -/
def second (regs : List (Fld × Nat)) (r : Red) : State :=
  { puts up ([(LNK_TORUS.DX, 2), (LNK_TORUS.DY, 1), (LNK_TORUS.DZ, 1), (LNK_COORD.X, 1), (RED_JOB.NX, 2), (RED_JOB.NY, 1),
      (RED_JOB.NZ, 1)] ++ regs) with red := r }

/-- A latch of the update with four shard elements. -/
def upd4 (next : Nat) : Update := { words := [(SBD_SHARD_COUNT.reg, 4)], next := next }

/-- The header of a bucket 0 of channel 2. -/
def hdr (step attempt owner sender : Nat) : BucketHdr :=
  { kind := 1, channel := 2, flags := 1, step := step, attempt := attempt, owner := owner, sender := sender, contrib := 1, bucket := 0,
    e := -10, maxexp := -12, first := 0, count := 1, nonfinite := 0, trunc := 0, checksum := 0, errsum := 0 }

/-- An image that owns queue 63 with two units of the queue store. -/
def queImg : Image := { addr := 0, id := 1, length := 0, man := { queueMask := 2 ^ 63, qstoreUnits := 2 } }

/-- Queue 63 enabled with two units and a ring of `ring` units, in a die with the image. -/
def que (ring : Nat) (regs : List (Fld × Nat)) (x : Queue) : State :=
  ({ puts up ([(QUE_Q_CFG.EN 63, 1), (QUE_Q_CFG.UNITS 63, 2), (QUE_Q_CFG.SOURCE 63, 0), (QUE_Q_RING.UNITS 63, ring)] ++ regs) with
    resident := some queImg } : State).setQueue 63 x

/-- A request of 1,024 words. -/
def req1k : OpenReq := { words := 1024, isEnd := false, step := 1, mb := 0, tokens := 0 }

/-- A packet of queue 63. -/
def pk (st : PkState) (ring : Bool) : QPacket := { st := st, ring := ring, prod := .bench 0, req := req1k }

/-- A FLAG and a BARRIER of three in context 2, VID 0x21. -/
def flag (count : Nat) : Cell := { valid := true, ctx := 2, vid := 0x21, count := count }
def bar (gen count next : Nat) : Cell := { valid := true, ctx := 2, vid := 0x21, barrier := true, n := 3, gen := gen, count := count, next := next }

/-- A device at x = 1 with a vote in progress for step 5, attempt 1. -/
def voting (r : Red) (regs : List (Fld × Nat)) : State :=
  second ([(RED_STATUS.STEP, 5), (RED_STATUS.ATTEMPT, 1), (PWR_RT_COUNT.COUNT, 1000)] ++ regs)
    { r with voteStep := 5, voteAtt := 1 }

/-- Ethernet port 7 UP, with IPv4 address 10.0.0.7, the Wardrobe in service and the mirror off. -/
def eth (regs : List (Fld × Nat)) (h : Hst) : State :=
  { puts up ([(HST_PORT_STATUS.STATE 7, 2), (HST_PORT_IPV4.V4_EN 7, 1), (HST_PORT_IPV4.ADDRESS 7, 0x0700000A), (HST_PORT_MAC.MAC 7, 5),
      (WRD_STATUS.IN_SERVICE, 1), (HST_STATUS.MIRROR, 1), (HST_JOURNAL.HEAD, 0x21000), (HST_JOURNAL.TAIL, 0x21000),
      (HST_CTRL.UDP_PORT, 0x1234), (HST_CTRL.MAX_FRAME, 9216)] ++ regs) with hst := h }

/-- A journal record of a command of channel `ch`. -/
def jrec (ch op st : Nat) (args body : List Byte) : JRec :=
  { off := 0x21000, len := 256, st := st, net := 1, port := 7, ch := ch, seq := 100,
    hdr := (bctPacket 0 ch op 0 9 0 100 0 0 0 args body).take 96, body := body, stampA := 0, mirrored := true, peer := ⟨[10, 0, 0, 1], 0x2000⟩ }

/-- A die with one command of channel 3, or of channel 0, ready to start. -/
def ready (r : JRec) (regs : List (Fld × Nat)) : State :=
  eth regs { recs := [r], chans := [(r.ch, { isOpen := true, session := 9, nextSeq := 101, nextStart := 100, nextDone := 100 })] }

/-- Registers with which device 0, the buddy, is next to this one. -/
def near : List (Fld × Nat) :=
  [(LNK_TORUS.DX, 2), (LNK_TORUS.DY, 1), (LNK_TORUS.DZ, 1), (LNK_COORD.X, 1), (LNK_ROUTE.DIR 0 0, 1), (HST_BUDDY.VALID, 1)]

theorem witness_FlitRoute :
    (let f : Flit := { srcs := [0], input := 4, dst := 1055, msg := .token 0 0 }
     0 < 1056 ∧ f.dst < 1056 ∧ 0 ≠ f.dst ∧ 0 % 33 ≠ f.dst % 33) ∧
    (let f : Flit := { srcs := [32], input := 4, dst := 1055, msg := .token 0 0 }
     32 < 1056 ∧ f.dst < 1056 ∧ 32 ≠ f.dst ∧ 32 % 33 = f.dst % 33) := by decide +kernel

/-- A die with one flit from stop 0, for stop `d`, at stop 1, which it entered from the west. -/
def flitTo (d : Nat) (g : Msg) : State :=
  { up with mesh := { buf := [(bufKey 1 3 g.vc, [{ srcs := [0], input := 4, dst := d, msg := g }])] } }

/-- A DONE report of a RUN, by the VC3 of Table 01.2. -/
def doneFlit : Msg := .done {} [(5, 0)]

theorem witness_MeshFlitHop_on :
    (flitTo 2 doneFlit).live ∧ (flitTo 2 doneFlit).mesh.pickVc 1 .east = some (3, 3) ∧
    (∃ f, (flitTo 2 doneFlit).mesh.at_ 1 3 3 = f :: [] ∧ f.msg = doneFlit) ∧
    (flitTo 2 doneFlit).mesh.pick 1 3 .east = some 3 ∧ neighbour 1 .east = some (2, 3) :=
  ⟨by decide +kernel, by decide +kernel, ⟨_, rfl, rfl⟩, by decide +kernel, by decide +kernel⟩

theorem witness_MeshFlitHop_waits :
    (flitTo 1 (.token 0 0)).mesh.pickVc 1 .here = some (2, 3) ∧ neighbour 1 .here = none ∧ (Msg.token 0 0).waits = true ∧
    (flitTo 1 (.shelfData [7])).mesh.pickVc 1 .here = some (1, 3) ∧ (flitTo 1 doneFlit).mesh.pickVc 1 .here = some (3, 3) := by
  decide +kernel

theorem witness_mesh_sound : (flitTo 2 doneFlit).mesh.sound := by
  intro e h f g
  have h : e ∈ [(bufKey 1 3 3, [({ srcs := [0], input := 4, dst := 2, msg := doneFlit } : Flit)])] := h
  simp at h; subst h; simp at g; subst g; exact ⟨rfl, rfl⟩

/-! ## Well-formed commands -/

theorem test_wf_accepts :
    ([.registerWrite (.desk 7) 0x10010 5, .meshFlitHop 1055 .here, .boundaryToken 1023 63, .dataFlit 47 (List.replicate 256 0) ⟨none, false⟩,
      .creditArrive 0 { die := 15, tile := 1023, window := 65535, epoch := 1, bytes := 4096 }, .i3cWrite 0 []] :
      List Instr).all Instr.wf = true := by decide +kernel

theorem test_wf_refuses_issuer :
    ([.registerWrite (.bct 1024 0) 0 0, .registerWrite (.desk 8) 0 0, .registerWrite (.die 16) 0 0] : List Instr).all
      (fun c => !c.wf) = true := by decide +kernel

theorem test_wf_refuses_place :
    ([.registerWrite .i3c 4 0, .meshFlitHop 1056 .here, .lendStart 1056, .pwrFnEnable .i3c 192, .powerTransitionDone 192,
      .vddCoreChange 65536, .boundaryToken 1024 0, .boundaryToken 0 64, .benchFlip 1024, .vAdd 1024,
      .stagerBlockTaken 0 8, .fenceRequest .i3c 32 0, .wrdRefresh 32, .wrdRfm 0 64, .portFence .i3c 48,
      .lnkRouteWrite .i3c 3 0, .tunnel 6 0 0 1 [] ⟨List.replicate 16 0, 0⟩, .tunnel 0 0 0 1 [] ⟨[0], 0⟩, .linkStatus 0 256, .ringReturn 64, .chOpen 1024, .ethPortUp 8,
      .segmentSend 16, .syncRelease 0 4096, .syncRelease 1056 0, .synOpWrite .i3c 9 0, .selftestDone [1056],
      .warmRecoveryDone [32], .mgtRoleWrite .i3c 4] : List Instr).all (fun c => !c.wf) = true := by decide +kernel

theorem test_wf_refuses_operation :
    ([.scratchpadAccess 0 { src := 4, off := 0, len := 1, wdata := none },
      .shelfAccess 0 { src := 0, off := 0, len := 2, wdata := some [0] },
      .scratchpadAccess 0 { src := 0, off := 0, len := 128, wdata := none, wide := some 3 },
      .creditArrive 0 { die := 16, tile := 0, window := 0, epoch := 0, bytes := 0 },
      .windowWrite { tile := 0, off := 0, data := List.replicate 257 0, epoch := 0, window := 0, sender := none, tag := 0 },
      .memRead { src := 0, addr := 0, bytes := 0, tag := 0, issuer := 0, epoch := 0, data := [] },
      .memWrite { src := 0, addr := 0, bytes := 2, tag := 0, issuer := 0, epoch := 0, data := [0] },
      .packetOpen 0 (.link 48 0) { words := 1, isEnd := false, step := 0, mb := 0, tokens := 0 },
      .packetOpen 0 (.bct 0) { words := 1025, isEnd := false, step := 0, mb := 0, tokens := 0 },
      .voteOutcome { step := 2 ^ 32, attempt := 0, round := 0, kind := 0, flags := 0, outcome := 0, count := 0 },
      .streamToken { src := 0, tile := 1024, entry := 0, srcEntry := 0, step := 0, mb := 0, srcTile := 0 },
      .syncAnswer 0
        { op := 7, tag := 0, phys := false, ctx := 0, vid := 0, count := 0, req := 0, cell := 0, gen := 0, reason := 0,
          flag := false },
      .identFlit 0 { coord := 0, dir := 8, pos := 0, cls := 0, serial := 0 }, .dataFlit 0 [] ⟨none, false⟩, .flitSend 0 9,
      .queueData 0 0 [0], .arrive 0 0 0 0, .ethFrame 0 [] true, .takeoverFetchDone [] [] 1 0,
      .errorEvent { unit := 65536, cls := 0, reason := 0, detail := 0, ctx := 0 }, .replayVerdict .i3c 4 0,
      .fwPush (2 ^ 21) [0], .i3cRead 0 4097, .enec 256, .entdaa 128, .setmwl 65536, .rstact 256,
      .coldResetRelease 256] : List Instr).all (fun c => !c.wf) = true := by decide +kernel

theorem test_bucket_header_wf (h : BucketHdr) (e : h.channel = 16) : h.ok = false := by
  simp [BucketHdr.ok, okRed, e]

/-- No row of the table gives bits. -/
theorem test_decode_none : decodeTableWord 64 0 = none ∧ up.withFetchWord 64 0 = up := by decide +kernel

/-! ## Time and power -/

def rt (valid arm now load dom : Nat) : State :=
  puts up [(PWR_RT_STATUS.VALID, valid), (PWR_RT_CTRL.ARM, arm), (PWR_RT_COUNT.COUNT, now), (PWR_RT_LOAD.LOAD, load),
    (PWR_RT_CTRL.DOMAIN, dom), (PWR_RT_CTRL.CHECK_LOG2, 10)]

theorem witness_RsyncPulse_load :
    (let s := rt 1 1 1000 1000 3
     s.live ∧ s.get PWR_RT_STATUS.HOLDOVER = 0 ∧ s.get PWR_RT_CTRL.ARM = 1 ∧ s.get PWR_RT_STATUS.VALID = 1 ∧
       s.now ≤ s.get PWR_RT_LOAD.LOAD) ∧
    (let s := rt 0 1 1000 0 3
     s.live ∧ s.get PWR_RT_STATUS.HOLDOVER = 0 ∧ s.get PWR_RT_CTRL.ARM = 1 ∧ s.get PWR_RT_STATUS.VALID = 0 ∧
       s.get PWR_RT_CTRL.DOMAIN ≠ 0xFFFF) ∧
    (let s := rt 1 1 1000 999 3
     s.live ∧ s.get PWR_RT_STATUS.HOLDOVER = 0 ∧ s.get PWR_RT_CTRL.ARM = 1 ∧ s.get PWR_RT_STATUS.VALID = 1 ∧
       s.get PWR_RT_LOAD.LOAD < s.now) ∧
    (let s := rt 0 1 1000 1000 0xFFFF
     s.live ∧ s.get PWR_RT_STATUS.HOLDOVER = 0 ∧ s.get PWR_RT_CTRL.ARM = 1 ∧ s.get PWR_RT_STATUS.VALID = 0 ∧
       s.get PWR_RT_CTRL.DOMAIN = 0xFFFF) := by decide +kernel

theorem witness_RsyncPulse_check :
    (let s := rt 1 0 1025 0 3
     s.live ∧ s.get PWR_RT_STATUS.HOLDOVER = 0 ∧ s.get PWR_RT_CTRL.ARM = 0 ∧ rtOffset s.now 10 = 1) ∧
    (let s := rt 1 0 1022 0 3
     s.live ∧ s.get PWR_RT_STATUS.HOLDOVER = 0 ∧ s.get PWR_RT_CTRL.ARM = 0 ∧ rtOffset s.now 10 = -2) := by decide +kernel

theorem witness_RackClock :
    (let s : State := { rt 1 0 1024 0 3 with pwr := { slew := 1 } }
     s.live ∧ s.pwr.slewAt + 1024 ≤ s.now ∧ 0 < s.pwr.slew) ∧
    (let s : State := { rt 1 0 1024 0 3 with pwr := { slew := -1 } }
     s.live ∧ s.pwr.slewAt + 1024 ≤ s.now ∧ s.pwr.slew < 0) ∧
    (up.live ∧ up.get PWR_RT_STATUS.HOLDOVER = 0) ∧
    (let s := puts up [(PWR_RT_STATUS.HOLDOVER, 1)]
     s.live ∧ s.get PWR_RT_STATUS.HOLDOVER = 1) := by decide +kernel

/-- A function with its control fields. -/
def fn (n st pend claimed en : Nat) : State :=
  puts up [(PWR_FN_CTRL.STATUS n, st), (PWR_FN_CTRL.PENDING n, pend), (PWR_FN_CTRL.CLAIMED n, claimed), (PWR_FN_CTRL.EN n, en)]

theorem witness_PowerStates_request :
    (let s := fn 144 0 0 0 0
     s.live ∧ s.fnHere 144 = true ∧ s.fnKept 144 = true) ∧ (fn 31 0 0 0 0).fnKept 31 = false ∧
    ([0, 1, 2, 3].all fun st =>
      let s := fn 31 st 0 0 0
      decide (s.live ∧ s.fnHere 31 = true ∧ 31 < 192 ∧ s.get (PWR_FN_CTRL.CLAIMED 31) = 0 ∧
        s.get (PWR_FN_CTRL.STATUS 31) = st)) = true ∧
    (let s := fn 191 2 0 1 1
     s.live ∧ s.fnHere 191 = true ∧ 191 < 192 ∧ s.get (PWR_FN_CTRL.CLAIMED 191) = 1 ∧ s.get (PWR_FN_CTRL.EN 191) = 1) := by
  decide +kernel

theorem witness_PowerStates_transition :
    ([(1, 0), (1, 1), (3, 0), (3, 1)].all fun x =>
      [32, 160, 191].all fun n =>
        let s := fn n x.1 x.2 0 1
        decide (s.live ∧ s.fnHere n = true ∧ (n = 32 ∨ 160 ≤ n ∧ n < 192) ∧ s.get (PWR_FN_CTRL.STATUS n) = x.1 ∧
          s.get (PWR_FN_CTRL.PENDING n) = x.2)) = true := by decide +kernel

/-- A Wardrobe port in service that drains. -/
def wrdDrain : State := puts (fn 95 3 0 0 0) [(WRD_PORT_STATUS.STATE 31, 4)]

theorem witness_PowerKeepsMemory :
    wrdDrain.live ∧ 95 = 64 + 31 ∧ wrdDrain.fnHere 95 = true ∧ 31 < 32 ∧ wrdDrain.get (WRD_PORT_STATUS.STATE 31) = 4 ∧
    wrdDrain.get (PWR_FN_CTRL.STATUS 95) = 3 ∧ wrdDrain.get (PWR_FN_CTRL.PENDING 95) = 0 ∧
    ∃ t, exec (.powerTransitionDone 95) wrdDrain = .next t := ⟨by decide +kernel, rfl, by decide +kernel, by decide +kernel, by decide +kernel, by decide +kernel, by decide +kernel, ⟨_, rfl⟩⟩

/-- Bench 1055 waits, and its group asks for a wake slot. -/
def lend : State :=
  (puts (fn 31 2 0 0 1) [(PWR_LEND_CTRL.LEND_EN, 1), (PWR_LEND_CTRL.THRESHOLD, 1024), (PWR_RT_COUNT.COUNT, 1025),
    (TMAP_ROW_STATE.FENCE 31, 0)]).setBench 1055 { waiting := some 0, asking := true, ramp := 1 }

theorem witness_PowerSharing :
    lend.live ∧ lend.get (PWR_FN_CTRL.STATUS 31) = 2 ∧ (lend.bench 1055).waiting = some 0 ∧
    0 + lend.get PWR_LEND_CTRL.THRESHOLD < lend.now ∧ lend.get PWR_LEND_CTRL.LEND_EN = 1 ∧ lend.inServ 1055 = true ∧
    1055 / 33 = 31 ∧ (puts up [(PWR_LEND_CTRL.LEND_EN, 0)]).get PWR_LEND_CTRL.LEND_EN = 0 ∧
    up.now < up.pwr.windowAt + 400 ∧ lend.pwr.windowAt + 400 ≤ lend.now ∧ lend.wakers = 31 :: [] ∧ lend.pwr.nextSlot ≤ lend.now ∧ 32 < 33 ∧ (lend.bench (31 * 33 + 32)).asking = true ∧
    (lend.bench 1055).ramp ≠ 0 ∧ (lend.bench 1055).rampAt + 20 ≤ lend.now := by decide +kernel

theorem witness_ThermalAndRails :
    (up.live ∧ up.getS PWR_THERM.THROTTLE_T ≤ signed 16 2000 ∧ up.getS PWR_THERM.ALERT_T ≤ signed 16 2000 ∧
      up.pwr.throttling = false ∧ up.pwr.alerting = false ∧ signed 16 0 ≤ up.getS PWR_THERM.THROTTLE_T - 32 ∧
      signed 16 0 ≤ up.getS PWR_THERM.ALERT_T - 32) ∧
    1840 ≤ signed 16 (1840#16).toNat ∧ (0 : Nat) < 65536 ∧ 449 < 450 := by decide +kernel

/-- Table 02.1 at 0.65 V and 85 °C. -/
theorem test_beats : minTileBeats 650 1360 * 1000 / 1024 = 22000 := by decide +kernel

/-- The example of R52: 600 W, of which other consumers draw 316 W, leave each of 32 groups 8.875 W, 35.5 units. -/
theorem test_share :
    (let s := puts up ((List.range 32).map (fun g => (PWR_FN_CTRL.STATUS g, 2)))
     let x := s.shares s.onGroups [] 2400 1264
     x.2.2 7 * 2 = x.1 * 71) := by decide +kernel

/-- R55: a write of WAKE_GAP below 20 sets 20. -/
theorem test_wake_gap :
    ((after (.registerWrite (.desk 0) PWR_LEND_CTRL.reg (BitVec.ofNat 64 (3 * 2 ^ 32 + 800 * 2 ^ 16 + 1))) up).get PWR_LEND_CTRL.WAKE_GAP) = 20 := by
  decide +kernel

/-- R49: a stamp just below a wrap of its 48 bits. -/
theorem test_expandStamp : expandStamp (2 ^ 48 - 1) (2 ^ 48 + 5) = 2 ^ 48 - 1 ∧ expandStamp 3 (2 ^ 48 - 2) = 2 ^ 48 + 3 := by decide +kernel

/-- R62: at 10 °C over THROTTLE_T half the budget is left. -/
theorem test_half_budget : effectiveBudget 4200 true 1680 1520 = 2100 := by decide +kernel

/-- R47: the offset is judged against the nearest multiple. -/
theorem test_offset : rtOffset 2047 10 = -1 ∧ rtOffset 1536 10 = 512 := by decide +kernel

/-! ## Loads -/

/-- An image with a manifest and no plane, at 0x10000 of the Wardrobe: magic, FORMAT 1, 0x100; ID 7; length 0x1300; a
section table of one entry at 0x100; the manifest at 0x140 with PART_MASK 3, one context and a claim of function 32. -/
def img : Mem :=
  [(65536, 0x56), (65537, 0x52), (65538, 0x4E), (65539, 0x49), (65540, 1), (65543, 1), (65544, 7), (65553, 0x13), (65561, 1),
   (65568, 1), (65576, 0x40), (65577, 0x12), (65792, 1), (65800, 0x40), (65801, 1), (65809, 0x11), (65856, 1), (65861, 3),
   (65863, 1), (65988, 1)]

/-- A die whose Wardrobe holds the image, with FAB_LOAD_ADDR at `a`. -/
def loader (a : Nat) : State :=
  { puts up [(FAB_LOAD_ADDR.ADDR, a), (FAB_WRD_LIMIT.LIMIT, 0x1000000), (WRD_STATUS.IN_SERVICE, 1), (SYN_CTX_STATE.GRANTED 0, 1)] with wrd := img }

/-- A load at a step. -/
def loading (st : Nat) (more : List (Fld × Nat)) : State :=
  { puts (loader 0x10000) ((FAB_LOAD_STATUS.STATE, st) :: more) with load := some { staged := false, addr := 0x10000 } }

/-- Bytes past the last listed one read as zero. -/
theorem le_past (m : Mem) (b n : Nat) : (m.all fun e => decide (e.1 < b)) = true → ∀ a, b ≤ a → Mem.le m a n = 0 := by
  intro h
  have hf : ∀ a, b ≤ a → Mem.rd m a = 0 := by
    intro a ha
    unfold Mem.rd SMap.get
    suffices SMap.find? m a = none by rw [this]; rfl
    induction m with
    | nil => rfl
    | cons e t ih =>
      simp only [List.all_cons, Bool.and_eq_true, decide_eq_true_eq] at h
      simp only [SMap.find?]
      rw [if_neg (by omega), ih h.2]
  unfold Mem.le
  induction n with
  | zero => intro a _; rfl
  | succ n ih =>
    intro a ha
    simp only [Mem.rdN, leNat, hf a ha, ih (a + 1) (by omega)]
    rfl

/-- The manifest that the image holds. -/
theorem img_manifest : (View.mk img 0x10000).manifest =
    { partMask := 3, contexts := 1, planeKind := [0, 0, 0, 0], rowWidth := List.replicate 32 0, powerClaim := 2 ^ 32,
      scratch := List.replicate 1024 0 } := by
  have h : (View.mk img 0x10000).manIndex = some 0 := by decide +kernel
  have h2 : ((View.mk img 0x10000).section 0).off = 0x140 := by decide +kernel
  have h1 : (List.range 1024).map (fun t => Mem.le img (0x10000 + 0x140 + (0x100 + 4 * t)) 4) = List.replicate 1024 0 := by
    rw [List.map_congr_left (g := fun _ => 0) (fun t _ => le_past img 66112 4 (by decide +kernel) _ (by omega))]
    decide +kernel
  unfold View.manifest
  rw [h]
  simp only [h2, View.sub, View.n, h1, Manifest.mk.injEq]
  decide +kernel

theorem witness_LoadStarts_busy : (loading 1 []).live ∧ (loading 1 []).load.isSome = true := by decide +kernel

theorem witness_LoadStarts_passes :
    (loader 0x10000).live ∧ (loader 0x10000).load = none ∧
    (loader 0x10000).check23 { staged := false, addr := (loader 0x10000).get FAB_LOAD_ADDR.ADDR } = none ∧
    (loader 0x10000).check45 { staged := false, addr := (loader 0x10000).get FAB_LOAD_ADDR.ADDR } = none := by
  refine ⟨by decide +kernel, by decide +kernel, by decide +kernel, ?_⟩
  have h : (loader 0x10000).get FAB_LOAD_ADDR.ADDR = 0x10000 := by decide +kernel
  have h1 : (loader 0x10000).imageAt 0x10000 = View.mk img 0x10000 := rfl
  unfold State.check45 View.formCheck View.manifestOk
  simp only [h, h1, img_manifest]
  decide +kernel

theorem witness_LoadStarts_refused :
    (let s := { loader 0x10000 with regs := SMap.set (loader 0x10000).regs 0 WRD_STATUS.IN_SERVICE.off 0 }
     s.check23 { staged := false, addr := 0x10000 } ≠ none) ∧
    (loader 0xFFFF00).live ∧ (loader 0xFFFF00).load = none ∧
    (loader 0xFFFF00).check23 { staged := false, addr := (loader 0xFFFF00).get FAB_LOAD_ADDR.ADDR } = some (0x15, 0, 0, 0) := by
  decide +kernel

theorem witness_LoadSteps_starts :
    (loading 1 []).live ∧ (loading 1 []).load = some { staged := false, addr := 0x10000 } ∧
    (loading 1 []).get FAB_LOAD_STATUS.STATE = 1 ∧
    ((loading 1 []).put FAB_LOAD_STATUS.STATE 2).check820 { staged := false, addr := 0x10000 } = none := by
  refine ⟨by decide +kernel, by decide +kernel, by decide +kernel, ?_⟩
  have h1 : ((loading 1 []).put FAB_LOAD_STATUS.STATE 2).imageAt 0x10000 = View.mk img 0x10000 := rfl
  have h2 : ∀ t, (List.replicate 1024 0).getD t 0 = 0 := by
    intro t
    rw [List.getD_eq_getElem?_getD, List.getElem?_replicate]
    split <;> rfl
  unfold State.check820
  simp only [h1, img_manifest, h2]
  decide +kernel

theorem witness_LoadSteps_claims :
    (let s := loading 3 [(PWR_FN_CTRL.STATUS 32, 2)]
     let l : Load := { staged := false, addr := 0x10000 }
     s.live ∧ s.load = some l ∧ s.get FAB_LOAD_STATUS.STATE = 3 ∧
       ∀ n < 256, bit (s.imageAt l.addr).manifest.powerClaim n = true → s.get (PWR_FN_CTRL.STATUS n) = 2) ∧
    (let s := loading 3 [(PWR_RT_COUNT.COUNT, 2 ^ 40)]
     let l : Load := { staged := false, addr := 0x10000 }
     s.live ∧ s.load = some l ∧ 32 < 256 ∧ s.get FAB_LOAD_STATUS.STATE = 3 ∧
       bit (s.imageAt l.addr).manifest.powerClaim 32 = true ∧ s.get (PWR_FN_CTRL.STATUS 32) ≠ 2 ∧
       l.wakeAt + wakeTicks 32 + 4000000 ≤ s.now) := by
  have h1 : (loading 3 [(PWR_FN_CTRL.STATUS 32, 2)]).imageAt 0x10000 = View.mk img 0x10000 := rfl
  have h2 : (loading 3 [(PWR_RT_COUNT.COUNT, 2 ^ 40)]).imageAt 0x10000 = View.mk img 0x10000 := rfl
  simp only [h1, h2, img_manifest]
  decide +kernel

theorem witness_LoadSteps_writes :
    (let s := loading 4 []
     let l : Load := { staged := false, addr := 0x10000 }
     s.live ∧ s.load = some l ∧ s.get FAB_LOAD_STATUS.STATE = 4 ∧
       s.badIn .wrd l.addr (s.imageAt l.addr).imageLength = []) := by decide +kernel

/-- The image with key slot 16. -/
def badSlot : State := { loading 1 [] with wrd := fill img 0x10000 [(0x12C0, 1, 16)] }

/-- The signature algorithm is no part of the manual (log 5): where it accepts the image the checks 6 and 7 turn on the
key slot, and a slot past the sixteen is refused whatever it answers. -/
theorem witness_LoadSteps_refused :
    badSlot.live ∧ badSlot.load = some { staged := false, addr := 0x10000 } ∧ badSlot.get FAB_LOAD_STATUS.STATE = 1 ∧
      ∃ r, badSlot.check67 { staged := false, addr := 0x10000 } = some r := by
  refine ⟨by decide +kernel, rfl, by decide +kernel, ?_⟩
  have h : (badSlot.imageAt 0x10000).sigSlot = 16 := by decide +kernel
  unfold State.check67
  simp only [h]
  split
  · exact ⟨_, rfl⟩
  · exact ⟨(0x02, 16, 0, 0), if_pos (.inl (by omega))⟩

theorem witness_LoadSteps_accepted (l : Load) (s : State)
    (h : Config.sm2Verify (s.imageAt l.addr).sigKey (sm3 (s.imageAt l.addr).signed) (s.imageAt l.addr).sigRs = true)
    (h1 : (s.imageAt l.addr).sigSlot < 16)
    (h2 : sm3 (s.imageAt l.addr).sigKey =
      ((List.range 4).map (fun h => leBytes 8 (s.word (SEC_KEYSLOT_HASH.reg (s.imageAt l.addr).sigSlot h)).toNat)).flatten)
    (h3 : s.get (SEC_KEYSLOT_USE.IMAGE (s.imageAt l.addr).sigSlot) = 1) : s.check67 l = none := by
  unfold State.check67
  simp only [h, h3]
  rw [if_neg (by decide), if_neg]
  rintro (h' | h' | h')
  · omega
  · exact h' h2
  · exact h' rfl

/-! ## A Bench at work -/

theorem witness_MicroBatchEnds_token :
    (got up 0 (.token 0 3)).live ∧ (got up 0 (.token 0 3)).phys 0 = some 0 ∧
    ((got up 0 (.token 0 3)).arrived (fun _ g => g == .token 0 3)).isSome = true ∧
    (got up 0 (.token 0 3)).arrived (fun _ g => g == .token 0 2) = none := by decide +kernel

/-- A Bench with nothing to wait for. -/
def doneNow : State := rec1 [(6, 2, 0xFFFF)] [] { descDone := true }

/-- The same, before its descriptors have completed. -/
def notDone : State := rec1 [(6, 2, 0xFFFF)] [] {}

theorem witness_MicroBatchEnds_bench :
    doneNow.live ∧ works doneNow 0 (fun p v r => doneNow.drained p 0 v r) = true ∧
    notDone.live ∧ works notDone 0 (fun p v r => !notDone.drained p 0 v r) = true := by decide +kernel

/-- A micro-batch with one report. -/
def oneMicro (done : List Nat) (sent abort : Bool) : State :=
  { doneNow with fab := { phase := .running, micros := [{ run := { kind := 1 }, done := done, home := done, firstDone := some 0, tokenSent := sent }],
                          aborting := abort } }

theorem witness_MicroBatchEnds_boundary :
    (let s := oneMicro [] true false
     let m : Micro := { run := { kind := 1 }, done := [], firstDone := some 0, tokenSent := true }
     s.live ∧ s.fab.micros = m :: [] ∧ s.fab.aborting = false ∧ (s.allDone m && m.tokenSent && !(([] : List Micro).isEmpty && s.mapWaits)) = false) ∧
    (let s := oneMicro [0] true false
     let m : Micro := { run := { kind := 1 }, done := [0], home := [0], firstDone := some 0, tokenSent := true }
     s.live ∧ s.fab.micros = m :: [] ∧ s.fab.aborting = false ∧ (s.allDone m && m.tokenSent && !(([] : List Micro).isEmpty && s.mapWaits)) = true) ∧
    (let s := oneMicro [] false true
     s.live ∧ s.fab.micros ≠ [] ∧ s.fab.aborting = true ∧ (s.fab.micros.all s.allDone && !s.mapWaits) = false) ∧
    (let s := oneMicro [0] false true
     s.fab.aborting = true ∧ (s.fab.micros.all s.allDone && !s.mapWaits) = true) := by decide +kernel

/-- A drained boundary. -/
def bound (f : Fab) : State := { up with fab := f }

theorem witness_BoundaryWork :
    (let s := bound { phase := .applying, clears := [0] }
     s.live ∧ s.fab.phase = .applying ∧ s.fab.clears ≠ [] ∧ s.fab.reenc = []) ∧
    (let s := bound { phase := .applying, reenc := [(false, 0)], next := some { drawer := 1 } }
     s.live ∧ s.fab.phase = .applying ∧ s.fab.reenc ≠ [] ∧ s.fab.clears = [] ∧ s.bad = []) ∧
    (let s := bound { phase := .flipping }
     s.live ∧ s.fab.phase = .flipping ∧ (s.phys 1023).isSome = true ∧ 1023 ∉ s.fab.ready) ∧
    (let s := bound { phase := .flipping, next := some { drawer := 1 } }
     s.live ∧ s.fab.next = some { drawer := 1 } ∧ s.fab.phase = .flipping ∧ 0 < 1024 ∧ (s.phys 0).isSome = true ∧ 0 ∉ s.fab.ready) ∧
    (let s := bound { phase := .resuming, next := some { drawer := 0 } }
     s.live ∧ s.fab.next = some { drawer := 0 } ∧ s.sbdHolds 0 = false ∧ s.fab.phase = .resuming) ∧
    (let s := puts (bound { phase := .resuming, next := some { drawer := 0 } }) [(SBD_STATUS.STATE, 5)]
     s.fab.next = some { drawer := 0 } ∧ s.sbdHolds 0 = true) ∧
    (let s := { bound {} with boardPending := true }
     s.live ∧ s.fab.phase = .idle ∧ s.fab.micros = [] ∧ s.mapWaits = false ∧ s.shPending = true) ∧
    (let s := puts (bound {}) [(TMAP_FENCE_REQ.REQ 31, 1)]
     s.live ∧ s.fab.phase = .idle ∧ s.fab.micros = [] ∧ s.mapWaits = false ∧ s.mapPending = true) := by decide +kernel

theorem witness_BoundaryWork_ready :
    let s := bound { phase := .flipping, next := some { drawer := 1 }, ready := List.range 1024 }
    s.live ∧ s.fab.next = some { drawer := 1 } ∧ s.sbdHolds 1 = false ∧ s.fab.phase = .flipping ∧
      ∀ tile < 1024, (s.phys tile).isSome = true → tile ∈ s.fab.ready :=
  ⟨by decide +kernel, rfl, by decide +kernel, rfl, fun _ h _ => List.mem_range.mpr h⟩

/-- A boundary that is late. -/
def late : State := puts (oneMicro [] true false) [(FAB_BOUNDARY_TIMEOUT.TICKS, 100), (PWR_RT_COUNT.COUNT, 100)]

theorem witness_BoundaryLate :
    (let m : Micro := { run := { kind := 1 }, done := [], firstDone := some 0, tokenSent := true }
     late.live ∧ late.fab.micros = m :: [] ∧ m.firstDone = some 0 ∧ m.timedOut = false ∧
       0 + late.get FAB_BOUNDARY_TIMEOUT.TICKS ≤ late.now ∧
       ((late.members m.run.drawer).find? (fun x => !(m.done.contains x.1))).map (fun x => x.1) = some 0) := by decide +kernel

theorem witness_AbortAndFence :
    up.live ∧ up.idle = true ∧ (oneMicro [] true false).fab.micros ≠ [] ∧ (oneMicro [] true false).fab.aborting = false ∧
    (let s := bound { next := some {} }
     s.fab.micros = [] ∧ s.fab.next = some {} ∧ s.fab.aborting = false) ∧ 31 < 32 ∧ up.replay = false := by decide +kernel

/-- R84: a fenced column is skipped, and only the tile that stood there moves. -/
theorem test_newRowMap :
    newRowMap 8 ((List.range 32).map some) = ((List.range 32).map some).set 3 (some 32) := by decide +kernel

/-! ## Products and stagers -/

/-- A record with one product of E4M3 blocks in the scratchpad, and no epilogue. -/
def prodRec : List (Nat × Nat × Nat) :=
  [(1, 1, 4), (2, 1, 4), (4, 2, 0xFFFF), (6, 2, 0xFFFF), (9, 1, 2), (0x500, 1, 1), (0x502, 1, 4), (0x510, 2, 1), (0x512, 2, 1),
   (0x520, 1, 1), (0x521, 1, 1), (0x522, 1, 4), (0x528, 8, 1024), (0x530, 2, 1), (0x532, 2, 1)]

def beatState : State :=
  rec1 prodRec [(BEN_MAT_STATUS.BANK_A 0, 1)]
    { stA := [ones 0], stB := [ones 1], prod := some { ib := 0, jb := 0, bank := 0, srcB := 1 } }

/-- The same with an initial tile: source 2, ROLE 2, of a kind. -/
def initRec (kind : Nat) : List (Nat × Nat × Nat) := prodRec ++ [(9, 1, 3), (0x540, 1, kind), (0x541, 1, 2)]

theorem witness_ProductInBank_start :
    (let s := rec1 prodRec [(BEN_MAT_STATUS.BANK_A 0, 2)] {}
     s.live ∧ works s 0 (fun p v _ => s.bankSt p (v.product (s.bench p).tileNo).2.2.2 != 0) = true) ∧
    (let s := rec1 prodRec [] {} { kind := 1, accStart := true }
     s.live ∧ works s 0 (fun p v r => decide (s.bankSt p (v.product (s.bench p).tileNo).2.2.2 = 0 ∧ (s.bench p).prod = none ∧
       (s.bench p).tileNo < v.products ∧ r.accStart = true)) = true) ∧
    (let s := rec1 (initRec 3) [] { landed := [(0, List.replicate 8192 1)] }
     works s 0 (fun p v r => decide (s.bankSt p (v.product (s.bench p).tileNo).2.2.2 = 0 ∧ (s.bench p).prod = none ∧
       (s.bench p).tileNo < v.products ∧ r.accStart = false ∧ (v.roleSrcs 2).head? = some 2 ∧ v.sKind 2 = 3 ∧
       ((s.bench p).landedOn (v.sRoute 2)).isSome = true)) = true) ∧
    (let s := rec1 (initRec 1) [] {}
     works s 0 (fun p v r =>
       let pd := v.product (s.bench p).tileNo
       let e := blockEntry 0 (v.sKind 2) (v.blockOff 2 pd.1 pd.2.1) 8192
       decide (s.bankSt p pd.2.2.2 = 0 ∧ (s.bench p).prod = none ∧ (s.bench p).tileNo < v.products ∧ r.accStart = false ∧
         (v.roleSrcs 2).head? = some 2 ∧ v.sKind 2 ≠ 3 ∧ s.held true (spaceAddr 0 e.space e.lo) 8192 = false ∧
         (s.issue p 0 [e]).1 = true)) = true) := by decide +kernel

theorem witness_ProductInBank_beat :
    beatState.live ∧ beatState.dip = false ∧
    works beatState 0 (fun p v _ => decide ((beatState.bench p).prod = some { ib := 0, jb := 0, bank := 0, srcB := 1 } ∧
      (beatState.bench p).operands { ib := 0, jb := 0, bank := 0, srcB := 1 } = some (ones 0, ones 1) ∧
      Prod.over { ib := 0, jb := 0, bank := 0, srcB := 1 } v (pairClass v.fmtA v.fmtB) = false ∧
      pairClass v.fmtA v.fmtB < 2)) = true ∧
    (let s := rec1 (prodRec ++ [(1, 1, 2), (2, 1, 2)]) [(BEN_MAT_STATUS.BANK_A 0, 1)]
      { stA := [ones 0], stB := [ones 1], prod := some { ib := 0, jb := 0, bank := 0, srcB := 1 } }
     works s 0 (fun _ v _ => decide (Prod.over { ib := 0, jb := 0, bank := 0, srcB := 1 } v (pairClass v.fmtA v.fmtB) = false ∧
       2 ≤ pairClass v.fmtA v.fmtB)) = true) := by decide +kernel

theorem witness_ProductInBank_done :
    let s := rec1 prodRec [] { prod := some { ib := 0, jb := 0, bank := 1, srcB := 1, k := 32 } }
    s.live ∧ works s 0 (fun p v _ => decide ((s.bench p).prod = some { ib := 0, jb := 0, bank := 1, srcB := 1, k := 32 } ∧
      Prod.over { ib := 0, jb := 0, bank := 1, srcB := 1, k := 32 } v (pairClass v.fmtA v.fmtB) = true ∧ 1 < 2)) = true := by
  decide +kernel

/-- Table 04.2: one k-step of ones adds 1 to an element; the sum is exact. -/
theorem test_matrixBeat_ones :
    ofAcc (accStep 0 [(0x38, .fin false 1 0, 0x38, .fin false 1 0)] 1 0).bits = ofAcc (toAcc (.fin false 1 0)).bits := by
  decide +kernel

/-- The scoreboard entry of stager A's next block. -/
def nextA (p : Nat) (v : View) (s : State) : SbEntry :=
  blockEntry 0 (v.sKind 0) (v.blockOff 0 (v.product ((s.bench p).takenA / v.depth)).1 ((s.bench p).takenA % v.depth))
    (blockBytes (v.sStored 0))

/-- What every clause about a taken block asks of stager A and source 0. -/
def takes (s : State) (f : Nat → View → Bool) : Bool :=
  works s 0 (fun p v _ => decide (v.sRole 0 = 0 ∧ v.srcA = some 0 ∧ 0 < v.depth ∧ (s.bench p).takenA / v.depth < v.products ∧
    (s.bench p).stA.length < 2) && f p v)

theorem witness_StagersAndScoreboard :
    (let s := rec1 prodRec [] { stA := [ones 0, ones 0] }
     s.live ∧ works s 0 (fun p v _ => v.sRole 0 == 0 && decide (2 ≤ (s.bench p).stA.length)) = true) ∧
    (let s := rec1 (prodRec ++ [(0x500, 1, 3)]) [] { landed := [(0, [1])] }
     takes s (fun p v => decide (v.sKind 0 = 3 ∧ (s.bench p).landedOn (v.sRoute 0) = some [1])) = true) ∧
    takes (rec1 (prodRec ++ [(0x502, 1, 0x21)]) [] {}) (fun _ v => decide (v.sKind 0 ≠ 3 ∧ v.sStored 0 = 0x21)) = true ∧
    (let s := rec1 prodRec [] {}
     takes s (fun p v => decide (v.sKind 0 ≠ 3 ∧ v.sStored 0 ≠ 0x21 ∧
       s.held true (spaceAddr 0 (nextA p v s).space (nextA p v s).lo) (nextA p v s).len = false ∧
       (s.issue p 0 [nextA p v s]).1 = true)) = true) ∧
    (let s := rec1 prodRec [] { sb := [⟨3, 0, 0, 16, true⟩] }
     takes s (fun p v => decide (v.sKind 0 ≠ 3 ∧ v.sStored 0 ≠ 0x21 ∧
       s.held true (spaceAddr 0 (nextA p v s).space (nextA p v s).lo) (nextA p v s).len = false ∧
       ((s.bench p).settle 0).conflict (nextA p v s) = true ∧ ∀ x ∈ (s.bench p).stalled, x.unit ≠ 0)) = true) ∧
    up.phys 1023 = some (31 * 33 + 31) := by decide +kernel

theorem witness_NumericsRegisters : up.live ∧ up.phys 0 = some 0 := by decide +kernel

/-- Table 04.8: the generator's test vectors. -/
theorem test_cg :
    cg 0 0 0 0 0 0 0 0 = 0x95D88B6B_7AE9A340_A71A32DB_656D6D42 ∧
    cg 1 0 2 3 0 5 7 0x01000000 = 0x340CAC62_93EBD18D_E410340B_F3946C9E := by decide +kernel

/-! ## The vector unit -/

/-- An invocation of a kind at the first word of the program store. -/
def inv1 (kind : Nat) : Inv := { kind := kind, entry := 0, pc := 0 }

/-- A Bench whose invocation is at word `w`. Its image has 4,096 bytes of every scratchpad it names. -/
def vec (w : Nat) (b : Bench) (l : List (Nat × Nat × Nat) := []) : State :=
  { rec1 ((0x1000, 4, w) :: l) [] b with resident := some { addr := 0, id := 1, length := 0, man := { scratch := [4096] } } }

theorem witness_Invocations_busy :
    (let s := vec 0 { inv := some (inv1 2) }
     s.live ∧ works s 0 (fun p _ _ => decide ((s.bench p).inv ≠ none)) = true) ∧
    (let s := vec 0 { deferd := [(1, 0, 0)] }
     s.live ∧ works s 0 (fun p _ _ => decide ((s.bench p).inv = none ∧ (s.bench p).deferd = (1, 0, 0) :: [])) = true) := by
  decide +kernel

theorem witness_Invocations_order :
    (let s := vec 0 { stA := [{ ones 0 with pro := true }] }
     s.live ∧ works s 0 (fun p _ _ => decide ((s.bench p).inv = none ∧ (s.bench p).deferd = [] ∧
       (s.bench p).proDue = some { ones 0 with pro := true })) = true) ∧
    (let s := vec 0 { full := [(1, 0, 0)] }
     s.live ∧ works s 0 (fun p v _ => decide ((s.bench p).inv = none ∧ (s.bench p).deferd = [] ∧ (s.bench p).proDue = none ∧
       v.epiEntry ≠ 0xFFFF ∧ v.gate = false ∧ 1 < 2 ∧ (s.bench p).full = (1, 0, 0) :: [])) = true) ∧
    (let s := vec (0x24 * 2 ^ 26 + 2 ^ 8) { full := [(0, 0, 0)] } [(0x1004, 4, 2 ^ 26), (0x1008, 4, 2 * 2 ^ 26)]
     s.live ∧ works s 0 (fun p v _ => decide ((s.bench p).inv = none ∧ (s.bench p).deferd = [] ∧ v.gate = true ∧
       (s.bench p).full = [(0, 0, 0)])) = true) ∧
    (let s := vec (0x24 * 2 ^ 26 + 2 ^ 8) { full := [(0, 0, 0), (1, 0, 0)] } [(0x1004, 4, 2 ^ 26), (0x1008, 4, 2 * 2 ^ 26)]
     works s 0 (fun p v _ => decide ((s.bench p).inv = none ∧ (s.bench p).deferd = [] ∧ (s.bench p).proDue = none ∧
       v.epiEntry ≠ 0xFFFF ∧ v.gate = true ∧ (s.bench p).full = (0, 0, 0) :: (1, 0, 0) :: [])) = true) := by decide +kernel

theorem witness_Invocations_rows :
    ([0, 30, 31].all fun row =>
      let s := vec (2 ^ 26) { inv := some { inv1 2 with row := row } }
      decide s.live && works s 0 (fun p v _ => decide ((s.bench p).inv = some { inv1 2 with row := row } ∧ wOp (v.prog 0) = 1))) = true ∧
    ([(1, false), (2, false), (2, true), (3, false)].all fun x =>
      let i : Inv := { inv1 x.1 with row := 31, tail := true, gate := x.2 }
      let s := vec (2 * 2 ^ 26) { inv := some i, stA := [{ ones 0 with pro := true }] }
      decide s.live && works s 0 (fun p v _ => decide ((s.bench p).inv = some i ∧ wOp (v.prog 0) = 2 ∧ i.tail = true ∧ i.bank < 2))) =
      true := by decide +kernel

theorem witness_VectorLanes :
    ([0, 0x0A, 0x0B, 0x0D, 0x0F, 0x11, 0x12, 0x13, 0x14, 0x16, 0x17, 0x18, 0x15, 0x19, 0x1A, 0x04, 0x05, 0x06, 0x10, 0x08,
      0x09, 0x07, 0x0C, 0x0E].all fun op =>
      let s := vec (op * 2 ^ 26 + 63 * 2 ^ 20 + 4 * 2 ^ 8) { inv := some (inv1 2) }
      decide (s.live ∧ s.dip = false) && works s 0 (fun p v _ => decide ((s.bench p).inv = some (inv1 2) ∧ wOp (v.prog 0) = op ∧
        wVb (v.prog 0) < 5))) = true := by decide +kernel

theorem witness_VectorRows :
    ([0x1C, 0x1D, 0x1E, 0x1F, 0x20, 0x21, 0x29].all fun op =>
      let i : Inv := { inv1 2 with row := 31 }
      let s := vec (op * 2 ^ 26) { inv := some i }
      decide (s.live ∧ s.dip = false) && works s 0 (fun p v _ => decide ((s.bench p).inv = some i ∧ wOp (v.prog 0) = op ∧
        i.row < 32 ∧ i.kind ≠ 1))) = true := by decide +kernel

/-- LD of a BF16 row through an address register at `a`. -/
def ldAt (a : Nat) : State := vec (0x22 * 2 ^ 26 + 2 * 2 ^ 14) { inv := some (inv1 2), areg := [(0, BitVec.ofNat 64 a)] }

theorem witness_VectorMemory_load :
    (let s := ldAt 4032
     s.live ∧ s.dip = false ∧ works s 0 (fun p v r =>
       let c : VCtx := ⟨0, p, v, r, inv1 2, v.prog 0⟩
       decide ((s.bench p).inv = some (inv1 2) ∧ wOp c.w = 0x22 ∧ isMx (wFmt c.w) = false ∧ aSpace (c.areg s) ≠ 2 ∧
         4032 = aAddr (c.areg s) + wImm7 c.w * 32 + 0 ∧ wX c.w = 0 ∧
         c.bounds s (aSpace (c.areg s)) 4032 (rowBytes (wFmt c.w)) = true ∧
         s.held false (spaceAddr 0 (aSpace (c.areg s)) 4032) (rowBytes (wFmt c.w)) = false ∧
         (s.issue p 2 [vecEntry (aSpace (c.areg s)) 4032 (rowBytes (wFmt c.w)) false]).1 = true)) = true) ∧
    (let s := ldAt 4064
     s.live ∧ works s 0 (fun p v r =>
       let c : VCtx := ⟨0, p, v, r, inv1 2, v.prog 0⟩
       decide (wOp c.w = 0x22 ∧ isMx (wFmt c.w) = false ∧ c.bounds s (aSpace (c.areg s)) 4064 (rowBytes (wFmt c.w)) = false)) =
       true) := by decide +kernel

/-- An invocation of a prologue over a BF16 block. -/
def proState (op : Nat) : State :=
  vec (op * 2 ^ 26) { inv := some (inv1 1), stA := [{ src := 0, k := 0, mn := 0, bytes := List.replicate 2048 0x3F, pro := true }] }
    [(0xD60, 1, 2)]

theorem witness_VectorMemory_block :
    ([0x23, 0x26].all fun op =>
      let s := proState op
      decide (s.live ∧ s.dip = false) && works s 0 (fun p v r =>
        let c : VCtx := ⟨0, p, v, r, inv1 1, v.prog 0⟩
        decide (wOp c.w = op ∧ (c.block s).isSome = true ∧
          ((c.block s).any fun x => !(isMx (v.inFormat x.src)) && v.inFormat x.src != 0x21) = true))) = true := by decide +kernel

/-- LDS of a block stored raw, row 0 of it within the bounds of the image. -/
def rawState : State :=
  vec (0x23 * 2 ^ 26) { inv := some (inv1 1), stA := [{ src := 0, k := 0, mn := 0, bytes := [], pro := true }] } [(0xD60, 1, 0x21)]

theorem witness_VectorMemory_raw :
    rawState.live ∧ works rawState 0 (fun p v r =>
      let c : VCtx := ⟨0, p, v, r, inv1 1, v.prog 0⟩
      decide (wOp c.w = 0x23 ∧ (c.block (vec 0 {})).isNone = true ∧ ((c.block rawState).any fun x => v.inFormat x.src == 0x21 &&
        ((c.read rawState 0 [(v.blockOff x.src x.mn x.k, 160)]).2.any Option.isSome)) = true)) = true := by decide +kernel

theorem witness_VectorMemory_bank :
    (let s := vec (0x24 * 2 ^ 26) { inv := some (inv1 2) }
     s.live ∧ works s 0 (fun _ v _ => decide (wOp (v.prog 0) = 0x24 ∧ (inv1 2).kind = 2 ∧ (inv1 2).gate = false ∧ wFmt (v.prog 0) = 0)) = true) ∧
    (let s := vec (0x28 * 2 ^ 26 + 2 * 2 ^ 14) { inv := some (inv1 2) }
     s.live ∧ works s 0 (fun _ v _ => decide (wOp (v.prog 0) = 0x28 ∧ v.strict = false)) = true) ∧
    (let s := vec (0x28 * 2 ^ 26 + 2 * 2 ^ 14) { inv := some (inv1 2) } [(0x20, 1, 1)]
     s.live ∧ works s 0 (fun p v r => decide (wOp (v.prog 0) = 0x28 ∧ v.strict = true ∧
       VCtx.mode ⟨0, p, v, r, inv1 2, v.prog 0⟩ ≠ 2)) = true) := by decide +kernel

/-- A store of an FP16 row at `a`. -/
def stAt (op a : Nat) : State := vec (op * 2 ^ 26 + 3 * 2 ^ 14) { inv := some (inv1 2), areg := [(0, BitVec.ofNat 64 a)] }

theorem witness_VectorMemory_store :
    ([0x25, 0x27].all fun op =>
      [(4032, true), (4040, false)].all fun x =>
        let s := stAt op x.1
        decide (s.live ∧ s.dip = false) && works s 0 (fun p v r =>
          let c : VCtx := ⟨0, p, v, r, inv1 2, v.prog 0⟩
          let e := packElems (elemBits (wFmt c.w)) (if op = 0x25 then (c.rowOut s (wFmt c.w) (s.lanes p (wVd c.w)) ofFw).elems
            else (c.rowOut s (wFmt c.w) (c.bankRow s (wVd c.w % 2)) ofAcc).elems)
          decide (wOp c.w = op ∧ isMx (wFmt c.w) = false ∧ aSpace (c.areg s) ≠ 2 ∧
            c.bounds s (aSpace (c.areg s)) (aAddr (c.areg s)) e.length = x.2 ∧
            s.held false (spaceAddr 0 (aSpace (c.areg s)) (aAddr (c.areg s))) e.length = false ∧
            (s.issue p 2 [vecEntry (aSpace (c.areg s)) (aAddr (c.areg s)) e.length true]).1 = true ∧
            ((s.issue p 2 [vecEntry (aSpace (c.areg s)) (aAddr (c.areg s)) e.length true]).2.store false
              (spaceAddr 0 (aSpace (c.areg s)) (aAddr (c.areg s))) e).isSome = true))) = true := by decide +kernel

/-- A store through route 0, of a kind, from a row; format 3 (FP16), or E4M3 in MX columns. -/
def stRoute (op fmt kind row : Nat) : State :=
  vec (op * 2 ^ 26 + fmt * 2 ^ 14 + 2 ^ 7) { inv := some { inv1 2 with row := row }, areg := [(0, BitVec.ofNat 64 (2 ^ 63))] }
    [(8, 1, 1), (0x100, 1, kind)]

theorem witness_VectorMemory_route :
    ([0x25, 0x27].all fun op =>
      [(0, 0, false), (2, 30, true), (2, 31, true)].all fun x =>
        let s := stRoute op 3 x.1 x.2.1
        decide (s.live ∧ s.dip = false) && works s 0 (fun p v r =>
          let c : VCtx := ⟨0, p, v, r, { inv1 2 with row := x.2.1 }, v.prog 0⟩
          decide (wOp c.w = op ∧ aSpace (c.areg s) = 2 ∧ c.routeOk (aAddr (c.areg s) % 64) (wFmt c.w) = x.2.2 ∧ v.rKind 0 ≠ 6 ∧
            (x.2.1 = 31 → s.canSend v 0 0 r.mb = false)))) = true ∧
    ([0x25, 0x27].all fun op =>
      let s := vec (op * 2 ^ 26 + 0x10 * 2 ^ 14 + 2 ^ 7) { inv := some (inv1 2) }
      works s 0 (fun p v r =>
        let c : VCtx := ⟨0, p, v, r, inv1 2, v.prog 0⟩
        decide (wOp c.w = op ∧ isMx (wFmt c.w) = true ∧ wX c.w = 1 ∧ aSpace (c.areg s) ≠ 2))) = true := by decide +kernel

/-- Table 05.3: maximum of zeros of both signs is +0, and a NaN operand gives the canonical NaN. -/
theorem test_fwMax : fwMax 0 (2 ^ 39) = 0 ∧ fwMin 0 (2 ^ 39) = 2 ^ 39 ∧ fwMax fFw40.nanBits 0 = fFw40.nanBits := by decide +kernel

/-- R137: 1 ÷ √x of −0 or 0 is +∞ and of a negative number NaN. -/
theorem test_rsqrt : rsqrtVal (.fin true 0 0) = .inf false ∧ rsqrtVal (.fin true 1 0) = .nan := by decide +kernel

/-! ## Memories of a Bench, windows and the transfer engine -/

/-- A fenced column 0 of row 0. -/
def fenced : State := puts up [(TMAP_ROW_STATE.FENCE 0, 1)]

/-- A running die whose Shelf row 0 has power. -/
def shUp : State := puts up [(PWR_FN_CTRL.STATUS 160, 2)]

/-- An access of 16 bytes at the end of a scratchpad or of a slice. -/
def lastRow (shelf : Bool) (d : Option (List Byte)) : Access := { src := 3, off := memBytes shelf - 16, len := 16, wdata := d }

theorem witness_SramAccess_waits :
    (fenced.live ∧ fenced.inServ 0 = false) ∧ up.accessHeld true 0 0 16 = true ∧
    (let s := { up with fab := { reenc := [(false, 1055 * 192 + 191)] } }
     s.live ∧ s.accessHeld false 1055 0xBF000 16 = true) ∧
    (let a := { lastRow false none with rivals := [1] }
     Access.shapeOk false a = true ∧ up.itsTurn false 1055 a = false) ∧
    (let a := { lastRow false none with wide := some 2 }
     Access.shapeOk false a = true ∧ up.accessHeld false 1055 a.off a.len = false ∧ up.itsTurn false 1055 a = true ∧
       up.blockedBy false 1055 a = true) := by decide +kernel

theorem witness_SramAccess_goes :
    ([true, false].all fun shelf => [none, some (List.replicate 16 (7 : Byte))].all fun d =>
      let a := lastRow shelf d
      let p := if shelf then 0 else 1055
      decide (shUp.live ∧ shUp.inServ p = true ∧ Access.shapeOk shelf a = true ∧ shUp.accessHeld shelf p a.off a.len = false ∧
        shUp.accessGo shelf p a = true ∧ shUp.bad = [] ∧ a.upset = {} ∧ a.back = none ∧ shUp.ckp.snap = none)) = true := by decide +kernel

/-- R155, R157: the wide port of bank group 2 holds off a narrow access of bank 23, for seven beats. -/
theorem test_bank_conflict :
    spBank (0xC0000 - 16) = 23 ∧ wideGroup (2 * 128) = 2 ∧
    ({ shUp with benches := [(1055, { blocked := [(3, 7)] })] }).blockedBy false 1055 { lastRow false none with wide := some 2 } = false := by
  decide +kernel

theorem witness_SramErrors :
    ([true, false].all fun shelf =>
      let p := if shelf then 0 else 1055
      let off := memBytes shelf - 32
      decide (shUp.live ∧ shUp.inServ p = true ∧ p < 1056 ∧ shUp.accessHeld shelf p off 8 = false ∧ shUp.accessHeld shelf p off 1 = false ∧
        shUp.bad = [] ∧ off % 32 = 0 ∧ off < memBytes shelf ∧
        shUp.codeWord (memKind shelf) ((p * memBytes shelf + off) / 8) = (p * memBytes shelf + off, 8) ∧
        shUp.codeWord (memKind shelf) ((p * memBytes shelf + off) / 8 + 1) = (p * memBytes shelf + off + 8, 8) ∧ 62 + 1 < 64 ∧
        (puts shUp [(MEM_CTRL.SCRUB_EN, 1)]).get MEM_CTRL.SCRUB_EN = 1 ∧ (puts shUp [(MEM_CTRL.SCRUB_EN, 0)]).get MEM_CTRL.SCRUB_EN = 0)) =
      true := by decide +kernel

/-- Table 06.1: the weight class corrects two bits of its 128, the activation class one of its 64; its row parity shows a
wrong row. -/
theorem test_judge :
    shUp.judge false 0 { flips := [3, 100] } (0, 16) = 2 ∧ shUp.judge false 0 { flips := [3, 100, 101] } (0, 16) = 3 ∧
    shUp.judge false 0 { flips := [3] } (0, 8) = 1 ∧ shUp.judge false 0 { flips := [3, 4] } (0, 8) = 3 ∧
    shUp.judge false 0 { row := true } (0, 8) = 3 ∧ shUp.judge false 0 { checks := [0] } (0, 16) = 1 := by decide +kernel

/-- A Bench on a started descriptor 0. -/
def dma (op : Nat) (l : List (Nat × Nat × Nat)) (regs : List (Fld × Nat)) (b : Bench) : State :=
  { rec1 ((6, 2, 0xFFFF) :: (0x2000, 1, op) :: (0x2003, 1, 0xFF) :: l) regs b with
    resident := some { addr := 0, id := 1, length := 0, man := { scratch := [0x10000] } } }

theorem witness_WindowsAndCredits_close :
    ([0, 1].all fun o =>
      let s := dma 3 [(0x2004, 1, 7)] [(BEN_WIN_STATE.OPEN 0 7, o), (BEN_WIN_STATE.EPOCH 0 7, 2 ^ 32 - 1)] { started := true }
      decide s.live && (s.dmaAt 0 3).isSome && s.get (BEN_WIN_STATE.OPEN 0 7) == o) = true := by decide +kernel

theorem witness_WindowsAndCredits_open :
    let s := dma 2 [(0x201C, 4, 16), (0x2020, 4, 1), (0x2024, 4, 64), (0x2028, 4, 256)] [] { started := true }
    s.live ∧ ((s.dmaAt 0 2).any fun x => s.ownDie (x.2.1.dPeer x.2.2.2 / 2 ^ 16 % 16) &&
      decide (s.phys (x.2.1.dPeer x.2.2.2 % 1024) = some 1 ∧ x.2.1.dWinOff x.2.2.2 < 2 ^ 20 ∧ x.2.1.dWinBytes x.2.2.2 < 2 ^ 20)) = true ∧
      s.get (BEN_WIN_STATE.OPEN 0 0) = 0 := by decide +kernel

/-- A credit of a tile of a die for its window 7. -/
def credit7 (die : Nat) : Credit := { die := die, tile := 1023, window := 7, epoch := 9, bytes := 5 }

theorem witness_WindowsAndCredits_credit :
    (up.ownDie 0 = true ∧ up.arrived (fun _ g => g == .winCredit 0 (credit7 0)) = none) ∧ up.ownDie 15 = false ∧
    ((got up 0 (.winCredit 0 (credit7 0))).arrived (fun _ g => g == .winCredit 0 (credit7 0))).isSome = true ∧
    (let s := puts up [(BEN_CREDIT_KEY.VALID 0 7, 1), (BEN_CREDIT_KEY.DIE 0 7, 15), (BEN_CREDIT_KEY.TILE 0 7, 1023),
       (BEN_CREDIT_KEY.WINDOW 0 7, 7)]
     s.live ∧ s.phys 0 = some 0 ∧ s.creditOf 0 (15 % 16) (1023 % 1024) (7 % 8) = some 7) ∧
    (let s := puts up [(BEN_CREDIT_KEY.VALID 0 0, 1)]
     s.creditOf 0 15 1023 7 = none ∧ (List.range 8).find? (fun c => !(s.on (BEN_CREDIT_KEY.VALID 0 c))) = some 1) ∧
    (let s := puts up ((List.range 8).map fun c => (BEN_CREDIT_KEY.VALID 0 c, 1))
     s.live ∧ s.phys 0 = some 0 ∧ s.creditOf 0 1 2 3 = none ∧ (∀ c < 8, s.get (BEN_CREDIT_KEY.VALID 0 c) = 1) ∧ 0 < 4096) := by
  decide +kernel

/-- A write of 16 bytes at the end of tile 0's scratchpad. -/
def winW (sender : Option (Nat × Nat)) : WinWrite :=
  { tile := 0, off := 0xBFFF0, data := List.replicate 16 9, epoch := 5, window := 2, sender := sender, tag := 0 }

/-- A die whose tile 0 has that window open. -/
def winUp : State :=
  puts up [(BEN_WIN_STATE.OPEN 0 2, 1), (BEN_WIN_STATE.EPOCH 0 2, 5), (BEN_WIN_RANGE.OFFSET 0 2, 0xBFFF0), (BEN_WIN_RANGE.BYTES 0 2, 16)]

theorem witness_WindowsAndCredits_write :
    up.held true (spAddr 0 0xBFFF0) 16 = false ∧
    (up.live ∧ (winW none).sender = none ∧ up.winCode (winW none) = 0 ∧ (up.store true (spAddr 0 0xBFFF0) (winW none).data).isSome = true) ∧
    (let s := puts up [(FAB_STATUS.IDLE, 0)]
     s.live ∧ s.winCode (winW none) ≠ 0) ∧
    (let w := winW (some (0, 3))
     let s := got up 0 (.winWrite w)
     s.live ∧ s.ownDie 0 = true ∧ (s.arrived (fun _ g => g == .winWrite w)).isSome = true ∧ s.phys 3 = some 3 ∧ s.winCode w ≠ 0) ∧
    (let w := winW (some (0, 3))
     let s := got winUp 0 (.winWrite w)
     s.live ∧ (s.arrived (fun _ g => g == .winWrite w)).isSome = true ∧ s.winCode w = 0 ∧
       (s.store true (spAddr 0 0xBFFF0) (winW none).data).isSome = true) ∧
    (winUp.ownDie 1 = false ∧ winUp.winCode (winW (some (1, 3))) = 0 ∧ up.winCode (winW (some (1, 3))) ≠ 0) := by decide +kernel

theorem witness_TransferEngine_trigger :
    (let s := dma 1 [] [] {}
     s.live ∧ ((s.dmaOn 0).any fun x => decide ((s.bench x.1).started = false ∧ x.2.1.dTrigger x.2.2.2 = 0)) = true) ∧
    (let s := dma 1 [(0x2001, 1, 2)] [] {}
     s.live ∧ ((s.dmaOn 0).any fun x => decide ((s.bench x.1).started = false ∧ x.2.1.dTrigger x.2.2.2 = 2 ∧ s.tailDone x.1 x.2.1 = true)) =
       true) ∧
    (let s := dma 1 [(0x2001, 1, 2)] [] { full := [(0, 0, 0)], tileNo := 1 }
     s.live ∧ ((s.dmaOn 0).any fun x => decide (x.2.1.dTrigger x.2.2.2 = 2 ∧ s.tailDone x.1 x.2.1 = false)) = true) ∧
    (let s := dma 1 [(0x2001, 1, 1)] [] {}
     ((s.dmaOn 0).any fun x => decide ((s.bench x.1).started = false ∧ x.2.1.dTrigger x.2.2.2 = 1 ∧ (s.bench x.1).waiting = none ∧
       s.replay = false)) = true) := by
  decide +kernel

/-- A COPY of 64 bytes of the scratchpad to the Wardrobe. -/
def copyState : State := dma 1 [(0x2006, 1, 3), (0x2010, 8, 0x1000), (0x2018, 4, 64)] [(WRD_STATUS.IN_SERVICE, 1), (FAB_WRD_LIMIT.LIMIT, 0x100000)]
  { started := true }

theorem witness_TransferEngine_copy :
    copyState.live ∧
    ((copyState.dmaAt 0 1).any fun x =>
      let s := copyState
      let d := x.2.2.2
      let v := x.2.1
      let go := s.issue x.1 3 [⟨3, v.dSrcSpace d, v.dSrc d, 64, false⟩, ⟨3, v.dDstSpace d, v.dDst d, 64, true⟩]
      decide (v.dSrcSpace d = 0 ∧ v.dDstSpace d = 3 ∧ (s.bench x.1).prog = 0 ∧ min 65536 (v.dLength d - 0) = 64 ∧
        s.held false (spaceAddr 0 0 (v.dSrc d)) 64 = false ∧ s.held false (spaceAddr 0 3 (v.dDst d)) 64 = false ∧ go.1 = true) &&
      (go.2.fetch false (some x.2.2.1) (spaceAddr 0 (v.dSrcSpace d) (v.dSrc d)) 64).any fun y =>
        (y.2.store false (spaceAddr 0 (v.dDstSpace d) (v.dDst d)) (ownCopy x.2.2.1 0 v d 0 y.1)).isSome) = true := by decide +kernel

/-- A COPY of two words from route 0 to the scratchpad, for which so many words of the packet have come. -/
def takeState (rx : List RxPacket) : State := dma 1 [(0x2005, 1, 2), (0x2018, 4, 128)] [] { started := true, rx := rx }

theorem witness_TransferEngine_route :
    (let s := takeState []
     s.live ∧ ((s.dmaAt 0 1).any fun x => decide (x.2.1.dDstSpace x.2.2.2 ≠ 4 ∧ x.2.1.dSrcSpace x.2.2.2 = 2 ∧
       ∀ y ∈ (s.bench x.1).rx, y.route ≠ x.2.1.dSrc x.2.2.2 % 64)) = true) ∧
    (let k : RxPacket := { route := 0, seq := 0, words := 2, recv := 1, got := List.replicate 64 3, isEnd := false }
     let s := takeState [k]
     s.live ∧ ((s.dmaAt 0 1).any fun x =>
       let d := x.2.2.2
       let go := s.issue x.1 3 [⟨3, x.2.1.dDstSpace d, x.2.1.dDst d, 64, true⟩]
       decide ((s.bench x.1).rx.find? (fun y => y.route == x.2.1.dSrc d % 64) = some k ∧
         k.got.take (x.2.1.dLength d - (k.recv * 64 - k.got.length)) = k.got ∧
         s.held false (spaceAddr 0 (x.2.1.dDstSpace d) (x.2.1.dDst d)) 64 = false ∧ go.1 = true ∧
         (go.2.store false (spaceAddr 0 (x.2.1.dDstSpace d) (x.2.1.dDst d)) k.got).isSome = true)) = true) := by decide +kernel

theorem witness_TransferEngine_out :
    ([(2, false), (3, true)].all fun y =>
      let s := dma 1 [(0x2006, 1, 2), (0x2018, 4, 64), (8, 1, 1), (0x100, 1, y.1)] [] { started := true }
      decide s.live && (s.dmaAt 0 1).any fun x =>
        let d := x.2.2.2
        decide (x.2.1.dDstSpace d = 2 ∧ x.2.1.dSrcSpace d ≠ 2 ∧ s.canSend x.2.1 0 (x.2.1.dDst d % 64) 0 = y.2 ∧
          x.2.1.rKind (x.2.1.dDst d % 64) ≠ 6 ∧ s.held false (spaceAddr 0 (x.2.1.dSrcSpace d) (x.2.1.dSrc d)) (x.2.1.dLength d) = false ∧
          (s.issue x.1 3 [⟨3, x.2.1.dSrcSpace d, x.2.1.dSrc d, x.2.1.dLength d, false⟩]).1 = true)) = true := by decide +kernel

/-- A COPY of 512 bytes to window 2 of tile 1 of this die, with a credit of so many bytes. -/
def sendState (bytes : Nat) : State :=
  dma 1 [(0x2004, 1, 2), (0x2006, 1, 4), (0x2010, 8, spBase + 0x100000), (0x2018, 4, 512)]
    [(BEN_CREDIT_KEY.VALID 0 0, 1), (BEN_CREDIT_KEY.TILE 0 0, 1), (BEN_CREDIT_KEY.WINDOW 0 0, 2), (BEN_CREDIT_STATE.BYTES 0 0, bytes)]
    { started := true }

theorem witness_TransferEngine_send :
    ([(255, none), (256, some 0)].all fun x =>
      let s := sendState x.1
      decide s.live && (s.dmaAt 0 1).any fun y =>
        let a := s.nextWrite y.1 y.2.1 y.2.2.2
        decide (y.2.1.dDstSpace y.2.2.2 = 4 ∧ (s.bench y.1).nacked = false ∧ (s.bench y.1).prog < y.2.1.dLength y.2.2.2 ∧
          s.writeCredit y.1 y.2.1 y.2.2.2 = x.2 ∧ s.ownDie (a.1 / 2 ^ 48) = true ∧
          s.held false (spaceAddr 0 (y.2.1.dSrcSpace y.2.2.2) (y.2.1.dSrc y.2.2.2)) a.2 = false ∧
          (s.issue y.1 3 [⟨3, y.2.1.dSrcSpace y.2.2.2, y.2.1.dSrc y.2.2.2, a.2, false⟩, ⟨3, 4, a.1, a.2, true⟩]).1 = true ∧
          s.phys ((a.1 % 2 ^ 48 - spBase) / 0x100000) = some 1)) = true := by decide +kernel

theorem witness_TransferEngine_done :
    (let s := dma 1 [(0x2FC0, 1, 3)] [] { started := true, moved := true }
     s.live ∧ ((s.dmaOn 0).any fun x => decide ((s.bench x.1).moved = true ∧ x.2.1.dDone x.2.2.2 = 0xFF ∧
       x.2.1.nextDesc (x.2.2.2 + 1) = some 63 ∧ 63 < 64)) = true) ∧
    (let s := dma 1 [] [] { started := true, moved := true }
     s.live ∧ ((s.dmaOn 0).any fun x => decide ((s.bench x.1).moved = true ∧ x.2.1.dDone x.2.2.2 = 0xFF ∧
       x.2.1.nextDesc (x.2.2.2 + 1) = none)) = true) := by decide +kernel

/-! ## The Wardrobe and remote operations -/

/-- A Wardrobe port at a step of Table 07.2, after so many failed attempts. -/
def port (st step fails ready : Nat) : State :=
  (puts up [(WRD_PORT_STATUS.STATE 31, st), (PWR_FN_CTRL.STATUS 95, 2), (WRD_STATUS.READY, ready)]).setWport
    31 { step := step, fails := fails }

theorem witness_WardrobeBringUp :
    (let s := port 1 1 0 0
     s.live ∧ s.bonded 31 = true ∧ s.get (WRD_PORT_STATUS.STATE 31) = 1 ∧ s.get (PWR_FN_CTRL.STATUS (64 + 31)) = 2 ∧
       s.get (PWR_FN_CTRL.PENDING (64 + 31)) = 0) ∧
    (port 2 3 0 0).atStep 31 3 = true ∧ (port 2 4 0 0).atStep 31 4 = true ∧ (port 2 4 0 0).now < ((port 2 4 0 0).wport 31).stepAt + 800000 ∧
    ((port 2 4 0 0).wport 31).stepAt + 800000 ≤ (puts (port 2 4 0 0) [(PWR_RT_COUNT.COUNT, 800000)]).now ∧
    (port 2 6 1 0).atStep 31 6 = true ∧ (port 2 6 1 0).sec.warming = false ∧ ((port 2 6 1 0).wport 31).fails < 2 ∧
    (let s := { port 2 6 1 0 with sec := { warming := true } }
     s.atStep 31 6 = true ∧ s.sec.warming = true) ∧
    (port 2 6 2 0).atStep 31 6 = true ∧ 2 ≤ ((port 2 6 2 0).wport 31).fails ∧
    (port 3 8 0 0).atStep 31 8 = true ∧ bit ((port 3 8 0 0).get WRD_STATUS.READY) 0 = false ∧ 0 ∈ (port 3 8 0 0).wrdPorts ∧
    (port 3 8 0 (2 ^ 31 - 1)).atStep 31 8 = true ∧ (port 3 8 0 (2 ^ 31 - 1)).get WRD_STATUS.IN_SERVICE = 0 ∧
    (∀ q ∈ (port 3 8 0 (2 ^ 31 - 1)).wrdPorts, q ≠ 31 → bit ((port 3 8 0 (2 ^ 31 - 1)).get WRD_STATUS.READY) q = true) := by
  decide +kernel

/-- A Wardrobe in service, with one bad block. -/
def wrdUp (bad : List (Nat × Nat)) : State :=
  { puts (port 4 9 1 (2 ^ 32 - 1)) [(WRD_STATUS.IN_SERVICE, 1), (FAB_WRD_LIMIT.LIMIT, 0x26000000000), (WRD_CTRL.SCRUB_EN, 1)] with bad := bad }

theorem witness_WardrobeUpkeepAndAccess :
    (wrdUp []).live ∧ (wrdUp []).portReady 31 = true ∧ ((wrdUp []).wport 31).rfm = none ∧
    (let s := (wrdUp []).setWport 31 { step := 9, rfm := some 2, acts := [(63, 2)] }
     s.portReady 31 = true ∧ (s.wport 31).rfm = some 2 ∧ 2 ≤ SMap.get (s.wport 31).acts 0 63) ∧
    31 = 0 * (wrdUp []).wrdPorts.length + (wrdUp []).wrdPorts.idxOf 31 ∧ (wrdUp []).get WRD_CTRL.SCRUB_EN = 1 ∧
    (31 + 1) * 512 ≤ (wrdUp []).wrdEnd ∧ (0, 31) ∉ (wrdUp []).bad ∧ (0, 31) ∈ (wrdUp [(0, 31)]).bad ∧
    (wrdUp []).inBlock (31 * 512 + 508) 4 = true ∧ (wrdUp []).bad = [] ∧ (wrdUp []).ckp.snap = none ∧
    31 * 512 + 508 + 4 ≤ (wrdUp []).get FAB_WRD_LIMIT.LIMIT ∧
    (wrdUp [(0, 31)]).inBlock (31 * 512) 512 = true ∧ (0, 31 * 512 / 512) ∈ (wrdUp [(0, 31)]).bad ∧
    up.get WRD_STATUS.IN_SERVICE = 0 := by decide +kernel

/-- R197: a code word with the check bytes of its data has no syndrome, and one byte in error is found. -/
theorem test_rs :
    rsRemainder [1] = [15, 54, 120, 64] ∧ rsDecode [(4, 1), (3, 15), (2, 54), (1, 120), (0, 64)] = .clean ∧
    rsDecode [(100, 7)] = .fix 100 7 ∧ (rsCheck (List.replicate 508 0 ++ [1, 0, 0, 0])).take 4 = [15, 54, 120, 64] := by decide +kernel

/-- A board-memory operation of a Bench of another die. -/
def memOp (addr : Nat) (data : List Byte) : MemOp :=
  { src := 1, addr := addr, bytes := 16, tag := 7, issuer := 3, epoch := 1, data := data }

theorem witness_RemoteOperations_serve :
    (wrdUp []).live ∧ deskOp 0x43FE = true ∧ deskOp 3 = false ∧ (wrdUp []).held false 0x1000 16 = false ∧
    (let s := { up with fab := { reenc := [(false, 0)] } }
     s.held false spBase 16 = true ∧ s.held true spBase 16 = true) ∧
    (wrdUp []).fetch false none 0x1000 16 = some (List.replicate 16 0, wrdUp []) ∧ 0x1000 < qstBase ∧
    up.segs false 0x1000 16 = none ∧ 0x1000 < spBase ∧
    ((wrdUp []).store false 0x1000 (List.replicate 16 1)).isSome = true ∧
    spBase ≤ qstBase - 1 ∧ up.phys ((spBase - spBase) / 0x100000) = some 0 ∧ up.held true spBase 16 = false ∧ 3 < 2 ^ 14 ∧
    (∀ w < 8, up.get (BEN_WIN_STATE.OPEN 0 w) = 0) := by decide +kernel

/-- An I3C read whose operation on another die is outstanding since tick 0. -/
def i3cRemote (now : Nat) : State :=
  { puts up [(PWR_RT_COUNT.COUNT, now), (WRD_REMOTE_TIMEOUT.TICKS, 100)] with
    fab := { phase := .running, micros := [{ run := { kind := 1 } }] }
    remote := [{ tag := 65535, issuer := 0xC000, write := false, die := 1, addr := 0, bytes := 4, stamp := 0 }]
    sec := { op := some (false, 2 ^ 48, 4, 0, []) } }

theorem witness_RemoteOperations_answers :
    (∀ o ∈ up.remote, o.tag ≠ 5 % 65536) ∧
    ([99, 100].all fun now =>
      let s := i3cRemote now
      decide (s.live ∧ (s.remote.find? (fun o => o.tag == 65535 % 65536)).any (fun o => o.issuer == 0xC000 && o.chan.isNone) = true ∧
        s.sec.op = some (false, 2 ^ 48, 4, 0, []) ∧ s.replay = false ∧ s.runNow.any (fun r => r.training) = true ∧ (0 + s.get WRD_REMOTE_TIMEOUT.TICKS ≤ s.now ↔ now = 100))) = true := by
  decide +kernel


/-! ## Stage queues -/

theorem witness_QueueConfigAndFlush_config :
    (let w := (que 0 [] {}).word (QUE_Q_CFG.reg 63)
     ((que 0 [] {}).setWord (QUE_Q_CFG.reg 63) (writable (QUE_Q_CFG.reg 63) w)).queCfgOk 63 = true ∧
     ((que 0 [] {}).setWord (QUE_Q_CFG.reg 63) (writable (QUE_Q_CFG.reg 63) w)).get (QUE_Q_CFG.EN 63) = 1 ∧
     (up.setWord (QUE_Q_CFG.reg 63) (writable (QUE_Q_CFG.reg 63) w)).queCfgOk 63 = false) ∧
    ((que 0 [] {}).setWord (QUE_Q_RING.reg 63) (writable (QUE_Q_RING.reg 63) 0)).queCfgOk 63 = true ∧
    ((que 0 [] {}).setWord (QUE_Q_RING.reg 63) (writable (QUE_Q_RING.reg 63) 0)).get (QUE_Q_CFG.EN 63) = 1 ∧
    ((que 0 [] {}).setWord (QUE_Q_RING.reg 63) (writable (QUE_Q_RING.reg 63) 1)).queCfgOk 63 = true ∧
    (que 0 [] { pks := [pk .opening false] }).queCfgOk 63 = false ∧ up.live ∧ 63 < 64 := by decide +kernel

theorem witness_QueueConfigAndFlush_flush :
    (∃ p ∈ ((que 0 [] { pks := [pk .delivering false] }).queue 63).pks, p.st = .opening ∨ p.st = .delivering ∨ p.returning = true) ∧
    bit ((puts (que 0 [] {}) [(QUE_FLUSH.REQ, 2 ^ 63)]).get QUE_FLUSH.REQ) 63 = true ∧
    ((puts (que 0 [] { pks := [pk .committed false] }) [(QUE_FLUSH.REQ, 2 ^ 63)]).queue 63).wait = [] ∧
    (∀ p ∈ ((puts (que 0 [] { pks := [pk .committed false] }) [(QUE_FLUSH.REQ, 2 ^ 63)]).queue 63).pks,
      p.st ≠ .opening ∧ p.st ≠ .delivering ∧ p.returning = false) := by decide +kernel

theorem witness_PacketPlacement_rejected :
    up.live ∧ 63 < 64 ∧ req1k.words ≤ 1024 ∧ up.openAllowed 63 (.bench 0) = false ∧ up.openAllowed 63 (.link 2 7) = false ∧
    (let s := pushing up
     s.openAllowed 63 (.bct 3) = false ∧ s.hst.pushes.find? (fun z => z.1 == 3 && z.2.2 == 63) = some (3, 100, 63) ∧
       ((s.rec? 3 100).any fun y => y.st != 3) = true) := by decide +kernel

/-- Its turn comes to the one producer that waits. -/
theorem witness_PacketPlacement_turn :
    (que 0 [] {}).openAllowed 63 (.bench 0) = true ∧ pickTurn 0 [(.bench 0, req1k, [])] = some (.bench 0, req1k, []) ∧
    (que 0 [(QUE_Q_CFG.SOURCE 63, 1)] {}).openAllowed 63 (.link 2 7) = true ∧
    pickTurn 0 [(.link 2 7, req1k, [])] = some (.link 2 7, req1k, []) := by decide +kernel

theorem witness_PacketPlacement :
    (que 0 [] { pks := [pk .opening false] }).openPk 63 ≠ none ∧
    (let s := que 0 [] {}
     s.live ∧ s.openPk 63 = none ∧ bit (s.get QUE_FLUSH.REQ) 63 = false ∧
       (s.queue 63).wait = [] ∧ s.get (QUE_Q_CFG.UNITS 63) ≤ 128 ∧ s.ringPks 63 = [] ∧ s.qFits 63 req1k.words = true) ∧
    (let s := que 16 [(QUE_Q_PTR2.OP 63, 2048)] {}
     s.openAllowed 63 (.bench 0) = true ∧ s.openPk 63 = none ∧ s.qFits 63 req1k.words = false ∧ s.qR 63 ≠ 0 ∧ s.get (QUE_Q_RING.UNITS 63) < 2 ^ 16 ∧
       qSpan (s.get (QUE_Q_RING_PTR.RING_RD 63)) (s.get (QUE_Q_RING_PTR.RING_WR 63)) (s.qR 63) + (req1k.words + 1) ≤ s.qR 63) ∧
    (let s := que 16 [(QUE_Q_RING_PTR.RING_WR 63, 16384)] { pks := [pk .inRing true] }
     s.openAllowed 63 (.bench 0) = true ∧ s.openPk 63 = none ∧ s.ringPks 63 ≠ [] ∧
       s.qR 63 < qSpan (s.get (QUE_Q_RING_PTR.RING_RD 63)) (s.get (QUE_Q_RING_PTR.RING_WR 63)) (s.qR 63) + (req1k.words + 1)) ∧
    (let s := que 0 [(QUE_Q_PTR2.OP 63, 2048)] {}
     s.openAllowed 63 (.bench 0) = true ∧ s.openPk 63 = none ∧ s.qFits 63 req1k.words = false ∧ s.qR 63 = 0) := by decide +kernel

theorem witness_PacketDelivery_commit :
    up.openPk 63 = none ∧
    (let s := que 0 [] { pks := [pk .opening false], got := 1023 }
     s.live ∧ (pk .opening false).data = [] ∧ (pk .opening false).st = .opening ∧
       (s.queue 63).got + ((List.replicate 64 (0 : Byte)).length + 63) / 64 = (pk .opening false).req.words ∧
       (s.queue 63).got + (([] : List Byte).length + 63) / 64 ≠ (pk .opening false).req.words ∧
       (s.queue 63).got ≠ (pk .opening false).req.words ∧ (s.queue 63).pks = [] ++ [pk .opening false] ∧ (s.queue 63).wait = []) ∧
    (let p := { pk .opening false with req := { req1k with words := 1 } }
     let s := que 0 [] { pks := [p] }
     (s.queue 63).got = 0 ∧ s.bad = [] ∧ s.ckp.snap = none ∧ s.get (QUE_Q_CFG.UNITS 63) ≤ 128 ∧ p.base < 2 * s.qW 63 ∧ p.req.words ≤ s.qW 63 ∧
       ((List.replicate 64 (7 : Byte)).length + 63) / 64 = p.req.words) ∧
    ((pushing up).hst.pushes.find? (fun z => z.1 == 3 && z.2.2 == 63) = some (3, 100, 63)) := by decide +kernel

theorem witness_PacketDelivery_ring :
    ([(0, true), (1025, false)].all fun x =>
      let s := que 16 [(QUE_Q_PTR2.OP 63, x.1)] { pks := [pk .inRing true] }
      decide (s.ringPks 63 = pk .inRing true :: [] ∧ (pk .inRing true).st = .inRing ∧ (pk .inRing true).returning = false ∧
        s.qFits 63 (pk .inRing true).req.words = x.2 ∧ s.openPk 63 = none ∧ s.get (QUE_Q_CFG.UNITS 63) ≤ 128)) = true ∧
    up.ringPks 63 = [] ∧ (∀ p ∈ (que 16 [] { pks := [pk .inRing true] }).ringPks 63, p.returning = false) ∧
    (let p := { pk .inRing true with returning := true }
     let s := que 16 [(WRD_STATUS.IN_SERVICE, 1), (FAB_WRD_LIMIT.LIMIT, 0x1000000)] { pks := [p] }
     (s.queue 63).pks = [] ++ p :: [] ∧ p.ring = true ∧ p.returning = true ∧ (s.queue 63).wait = [] ∧ 0 < s.qW 63 ∧
       s.get (QUE_Q_CFG.UNITS 63) ≤ 128 ∧ s.bad = [] ∧ s.ckp.snap = none ∧ p.req.words ≤ s.qW 63 ∧ s.get (QUE_Q_PTR.WR 63) < 2 * s.qW 63 ∧
       (s.rdA true (s.ringWord 63 (qAdv p.base (1 + 1023) (s.qR 63))) 64).isSome = true) := by decide +kernel

/-- Tile 0 consumes queue 63 on route 0, or produces for it with `role` 2. -/
def queWork (role mb : Nat) (x : Queue) (f : Fab) (b : Bench) : State :=
  { rec1 [(8, 1, 1), (0xA, 1, 1), (0x100, 1, if role = 1 then 1 else 3), (0x106, 1, if role = 1 then 1 else 63), (0x900, 1, 63),
      (0x901, 1, role)] [(QUE_Q_CFG.EN 63, 1), (QUE_Q_CFG.UNITS 63, 2), (QUE_Q_CFG.SOURCE 63, 0)] b { kind := 1, mb := mb } with
    queues := [(63, x)], fab := if f = {} then { phase := .running, micros := [{ run := { kind := 1, mb := mb } }] } else f }

/-- The consumers of a queue are read from the registers and the drawers alone. -/
theorem consumers_congr (s t : State) (h : s.regs = t.regs) (h1 : s.drw = t.drw) (d q : Nat) : s.consumersOf d q = t.consumersOf d q := by
  have hw : ∀ o, s.word o = t.word o := fun o => by unfold State.word; rw [h]
  have hg : ∀ f, s.get f = t.get f := fun f => by unfold State.get; rw [hw]
  have hp : ∀ n, s.phys n = t.phys n := fun n => by unfold State.phys State.on; simp only [hg]
  have hm : s.members d = t.members d := by
    unfold State.members State.planeAt State.view State.on
    simp only [hg, hp, h1]
  unfold State.consumersOf
  rw [hm]

theorem queWork_consumers : (queWork 1 0 {} {} {}).consumersOf 0 63 = [(0, 0, 0)] := by decide +kernel

theorem witness_PacketDelivery_notice :
    (let s := queWork 1 1 { pks := [pk .committed false] } {} {}
     s.live ∧ s.feeding = some { run := { kind := 1, mb := 1 } } ∧ s.headPk 63 = some (pk .committed false) ∧ 1 ≠ (pk .committed false).req.mb) ∧
    (let s := queWork 1 0 { pks := [pk .committed false] } {} {}
     s.live ∧ s.feeding = some { run := { kind := 1 } } ∧ s.headPk 63 = some (pk .committed false) ∧ 0 = (pk .committed false).req.mb ∧
       0 = s.active ∧ bit (s.get QUE_FLUSH.REQ) 63 = false ∧ (s.queue 63).pks.head? = some (pk .committed false) ∧ s.phys 0 = some 0) ∧
    (queWork 1 0 { pks := [pk .committed false] } {} {}).consumersOf (queWork 1 0 { pks := [pk .committed false] } {} {}).active 63 =
      [(0, 0, 0)] := by
  refine ⟨by decide +kernel, by decide +kernel, ?_⟩
  have h : (queWork 1 0 { pks := [pk .committed false] } {} {}).active = 0 := by decide +kernel
  rw [h]
  exact (consumers_congr _ _ rfl rfl 0 63).trans queWork_consumers

/-- A packet in delivery with so many words at the consumer, of which `n` wait in its buffer. -/
def inDelivery (sent n : Nat) : State :=
  queWork 1 0 { pks := [{ pk .delivering false with sent := [(0, sent)] }] } {}
    { rx := [{ route := 0, seq := 0, words := 1024, recv := sent, got := List.replicate (64 * n) 0, isEnd := false }] }

theorem witness_PacketDelivery_words :
    ([(64, 64, true), (1023, 63, false)].all fun x =>
      let s := inDelivery x.1 x.2.1
      let p : QPacket := { pk .delivering false with sent := [(0, x.1)] }
      decide ((s.queue 63).pks = [] ++ p :: [] ∧ (s.queue 63).pks.find? (fun x => x.st == .delivering && decide (QPacket.sentTo x 0 < x.req.words)) = some p ∧
        s.phys 0 = some 0 ∧ p.sentTo 0 + 1 ≤ p.req.words ∧ (64 < s.rxHeld 0 0 0 + 1 ↔ x.2.2 = true) ∧ s.bad = [] ∧ 510 < 512 * 1 ∧
        510 % 64 ≠ 63)) = true ∧
    ((inDelivery 1023 63).consumersOf (inDelivery 1023 63).active 63).find? (fun x => x.1 == 0) = some (0, 0, 0) := by
  refine ⟨by decide +kernel, ?_⟩
  have h : (inDelivery 1023 63).active = 0 := by decide +kernel
  have h1 : (inDelivery 1023 63).consumersOf 0 63 = [(0, 0, 0)] := (consumers_congr _ _ rfl rfl 0 63).trans queWork_consumers
  rw [h, h1]; rfl

/-- A packet that its one consumer has taken. -/
def takenPk : State := queWork 1 0 { pks := [{ pk .delivering false with sent := [(0, 1024)] }] } {} {}

theorem witness_PacketDelivery_taken :
    (let p := { pk .delivering false with sent := [(0, 1024)] }
     takenPk.live ∧ (takenPk.queue 63).pks = p :: [] ∧ p.st = .delivering ∧ (takenPk.queue 63).wait = [] ∧
       takenPk.get (QUE_Q_CFG.UNITS 63) ≤ 128 ∧ 0 < takenPk.qW 63) ∧
    (∀ c ∈ takenPk.consumersOf takenPk.active 63, takenPk.tookPk { pk .delivering false with sent := [(0, 1024)] } c = true) ∧
    up.queue 63 = {} := by
  refine ⟨by decide +kernel, ?_, by decide +kernel⟩
  have h : takenPk.active = 0 := by decide +kernel
  have h1 : takenPk.consumersOf 0 63 = [(0, 0, 0)] := (consumers_congr _ _ rfl rfl 0 63).trans queWork_consumers
  rw [h, h1]
  decide +kernel

theorem witness_PacketDelivery_end :
    ([0, 1].all fun src =>
      let s := (queWork 2 0 {} { phase := .running, micros := [{ run := {} }], prodTok := [(tokKey 0 0, {})] } {}).put (QUE_Q_CFG.SOURCE 63) src
      decide (s.live ∧ s.fab.prodTok = (tokKey 0 0, {}) :: [] ∧ s.producersOf 0 63 = (0, 0) :: [] ∧ s.openAllowed 63 (.bench 0) = (src == 0) ∧
        s.openPk 63 = none ∧ bit (s.get QUE_FLUSH.REQ) 63 = false ∧ (s.queue 63).wait = [] ∧ s.ringPks 63 = [] ∧ s.qFits 63 0 = true) &&
      (s.takeTokens [(0, 0)] {}).isSome) = true ∧ up.fab.prodTok = [] := by
  decide +kernel

/-- Table 08.5: spans and the wrap of OP in queue 3. -/
theorem test_pointers :
    qSpan 0 2048 2048 = 2048 ∧ qAdv 3072 1024 2048 = 0 ∧ qSpan 2048 0 2048 = 2048 ∧ qIndex 2048 2048 = 0 := by decide +kernel

/-- R84's example in row 17: a second fence keeps tile 5 on column 32; tile 22 takes column 31 and tile 31 ends. -/
theorem test_newRowMap_second :
    newRowMap 0x400020 (((List.range 32).map some).set 5 (some 32)) =
      ((((List.range 32).map some).set 5 (some 32)).set 22 (some 31)).set 31 none := by decide +kernel

/-- R198's example on part S, and its port on part Q. -/
theorem test_wrdLocate :
    up.wrdLocate 0x12345678 = (11, 0x962E78, 0x964D10) ∧ ((puts up [(GLB_ID.PART, 0xF204)]).wrdLocate 0x12345678).1 = 19 := by
  decide +kernel

/-- R115's example: two stochastic stores of 1 + 2^−8 as BF16. -/
theorem test_stochastic :
    (storeAs 2 false 2 0x6C9E (.fin false 257 (-8))).bits = 0x3F80 ∧ (storeAs 2 false 2 0xF394 (.fin false 257 (-8))).bits = 0x3F81 := by
  decide +kernel

/-! ## The Sideboard -/

/-- A device alone in its group in exact mode, with four parameters, the gradient buffer at 0x1000 and the Wardrobe in
service. -/
def shard (regs : List (Fld × Nat)) (r : Red) : State :=
  { puts up ([(RED_GROUP.MODE, 1), (RED_GROUP.SIZE, 1), (SBD_PARAMS.VALUE, 4), (SBD_SHARD_COUNT.VALUE, 4), (SBD_GRAD_BASE.ADDR, 0x1000),
      (WRD_STATUS.IN_SERVICE, 1), (FAB_WRD_LIMIT.LIMIT, 0x26000000000)] ++ regs) with red := r }

theorem witness_SideboardGuards :
    (up.live ∧ up.sbdFree = true ∧ up.get SBD_BANK.ROLLED = 0 ∧ 1 < 2 ∧ 0 = up.get (SBD_BANK_T.T 1) ∧
      up.get SBD_LOSS_EMA.VALID = b2n false) ∧
    (let s := puts up [(SBD_STATUS.STATE, 1)]
     s.live ∧ s.sbdFree = false ∧ 2 ^ 32 - 1 ≠ s.get (SBD_BANK_T.T 1) ∧ s.get SBD_LOSS_EMA.VALID ≠ b2n true) ∧
    (puts up [(SBD_BANK.ROLLED, 1)]).get SBD_BANK.ROLLED = 1 := by decide +kernel

/-- A closed bucket that waits for its scan. -/
def toScan : State :=
  shard [(SBD_HIST_LIMIT.LIMIT, 5)] { tab := tab1 true, buckets := [(0, { closed := true })], scanBegun := true }

/-- An update that has written so many elements. -/
def updating (next : Nat) : State := { shard [(SBD_STATUS.STATE, 3)] {} with upd := some (upd4 next) }

theorem witness_SideboardUpdate_scan :
    (up.live ∧ (up.bucket 0).closed = false) ∧
    (toScan.live ∧ 0 < toScan.red.tab.length ∧ (toScan.bucket 0).closed = true ∧ (toScan.bucket 0).scanned = false ∧
      toScan.scanOn = true ∧ toScan.red.voted = false ∧ toScan.get SBD_STATUS.STATE < 2 ∧ (0, 4) = toScan.slice 0 toScan.redRank ∧
      toScan.red.scanBegun = true ∧ toScan.replay = false ∧
      toScan.badIn .wrd (toScan.get SBD_GRAD_BASE.ADDR + 4 * (0 - toScan.get SBD_SHARD_FIRST.VALUE)) (4 * 4) = []) := by
  decide +kernel

theorem witness_SideboardUpdate_norm :
    (second [] {}).live ∧ (second [] {}).replay = false ∧ (second [] {}).parent.isSome = true ∧ (second [] {}).red.normDone = false ∧
    (let s := puts (second [] {}) [(LNK_COORD.X, 0)]
     s.replay = false ∧ s.children ≠ [] ∧ s.parent = none) ∧ (puts up [(RAS_CTRL.REPLAY, 1)]).replay = true ∧
    fFinite (toF32 (.fin false (min ns512 (39 * 2 ^ 256)) (-256))) = true := by decide +kernel

theorem witness_SideboardUpdate_chunk :
    (let s := updating 0
     s.live ∧ s.upd = some (upd4 0) ∧ s.get SBD_STATUS.STATE = 3 ∧ (upd4 0).bad = false ∧
       (upd4 0).next < (upd4 0).get SBD_SHARD_COUNT.VALUE ∧ s.updBad (upd4 0) 0 (min 524288 4) = [] ∧ s.redSize = 1) ∧
    (let s := updating 4
     s.live ∧ s.upd = some (upd4 4) ∧ s.get SBD_STATUS.STATE = 3 ∧ (upd4 4).bad = false ∧
       (upd4 4).get SBD_SHARD_COUNT.VALUE ≤ (upd4 4).next ∧ (upd4 4).nonfinite = 0) ∧
    (let u : Update := { words := [(SBD_WBANK.reg 1, 0x1000), (SBD_MBANK.reg 1, 0x2000), (SBD_VBANK.reg 1, 0x3000)] }
     up.bad = [] ∧ up.ckp.snap = none ∧
       ∀ b ∈ [u.get (SBD_WBANK.ADDR (1 - up.get SBD_BANK.ACTIVE)) + 2 * (u.get SBD_SHARD_FIRST.VALUE + 0),
           u.get (SBD_MBANK.ADDR (1 - up.get SBD_BANK.ACTIVE)) + 2 * 0, u.get (SBD_VBANK.ADDR (1 - up.get SBD_BANK.ACTIVE)) + 2 * 0],
         b < shelfBase ∧ (0x1002 < b ∨ b + 2 ≤ 0x1002)) := by decide +kernel

theorem witness_SideboardUpdate_refresh :
    (let s := puts up [(SBD_STATUS.STATE, 5)]
     s.live ∧ s.get SBD_STATUS.STATE = 5 ∧ s.ckp.rejoin = none ∧ s.ckp.due = false) ∧
    (let s := pushing (puts up [(SBD_STATUS.STATE, 5)])
     { s with ckp := { rejoin := some (3, 100) } }.get SBD_STATUS.STATE = 5 ∧ ((s.rec? 3 100).any fun y => y.st != 3) = true) ∧
    up.get SBD_STATUS.STATE ≠ 5 := by
  decide +kernel

/-- The clip factor of the manual's example (R256): S = 39.0625 and MAX_NORM = 1.25. -/
theorem test_clip :
    (fSqrt (toF32 (.fin false 0x271 (-4))), fDiv 0x3FA00000 (fSqrt (toF32 (.fin false 0x271 (-4))))) = (0x40C80000, 0x3E4CCCCD) := by
  decide +kernel

/-- The Lion element of the manual's example (R251, R252). -/
theorem test_lion :
    (let x := updElem 3 0x3C000000 0 0x3F666666 0x3F7D70A4 0 0x3F800000 1 0x3E4CCCCD 0x3F800000 0 0 0x3FA00000
     ((sbdStore false 0xFFFF x.1).1, (sbdStore false 0x2900 x.2.1).1, (sbdStore false 0x28FF x.2.1).1)) = (0x3F7E, 0x3B24, 0x3B23) := by
  decide +kernel

/-! ## Gradient reduction and the commit vote -/

/-- A device of rank 0 in a group of two with one bucket in exact mode, in step 5, attempt 1. -/
def pair (b : Bucket) (valid : Bool) (regs : List (Fld × Nat)) : State :=
  { puts up ([(RED_GROUP.MODE, 1), (RED_GROUP.SIZE, 2), (SBD_PARAMS.VALUE, 4), (RED_STATUS.STEP, 5), (RED_STATUS.ATTEMPT, 1),
      (RED_STATUS.CONFIG_OK, 1)] ++ regs) with red := { tab := tab1 valid, buckets := [(0, b)] } }

/-- How an arrival's order meets the conditions of Segments: late, kept, beyond. -/
def arrives (s : State) (h : BucketHdr) : Bool × Bool × Bool :=
  (h.step < s.get RED_STATUS.STEP || h.step == s.get RED_STATUS.STEP && (h.attempt < s.get RED_STATUS.ATTEMPT ||
      h.attempt == s.get RED_STATUS.ATTEMPT && s.red.voted == true),
   h.step == s.get RED_STATUS.STEP && h.attempt == s.get RED_STATUS.ATTEMPT + 1 ||
     h.step == s.get RED_STATUS.STEP + 1 && h.attempt == 0,
   h.step > s.get RED_STATUS.STEP + 1 || h.step == s.get RED_STATUS.STEP + 1 && h.attempt != 0 ||
     h.step == s.get RED_STATUS.STEP && h.attempt > s.get RED_STATUS.ATTEMPT + 1)

theorem witness_Segments_order :
    (pair {} true []).live ∧ (pair {} true []).replay = false ∧ (hdr 4 9 0 0).channel < 16 ∧
    [hdr 4 9 0 0, hdr 5 0 0 0, hdr 5 1 0 0, hdr 5 2 0 0, hdr 5 3 0 0, hdr 6 0 0 0, hdr 6 1 0 0, hdr 7 0 0 0].map (arrives (pair {} true [])) =
      [(true, false, false), (true, false, false), (false, false, false), (false, true, false), (false, false, true),
       (false, true, false), (false, false, true), (false, false, true)] := by decide +kernel

theorem witness_Segments_arrivals :
    (pair {} true [(RAS_CTRL.REPLAY, 1)]).replay = true ∧
    (let s := pair {} true []
     s.live ∧ s.red.voted = false ∧ s.bucketIdx 2 0 = some 0 ∧ (s.bucket 0).opened = false) ∧
    (let s := pair { opened := true } true []
     s.live ∧ s.red.voted = false ∧ s.bucketIdx 2 0 = some 0 ∧ (s.bucket 0).opened = true ∧ s.get RED_GROUP.MODE = 1 ∧
       1 ≠ s.redRank ∧ 1 < s.redSize ∧ 1 ∉ (s.bucket 0).sentTo ∧ s.get RED_STATUS.CONFIG_OK = 1 ∧ s.redRank = 0 ∧
       (s.bucket 0).complete = false ∧ (s.bucket 0).wait = [] ∧ (hdr 5 1 0 1).contrib + 1 = s.redSize ∧ s.bucketIdx 2 1 = none) ∧
    (pair { opened := true } true [(RED_STATUS.CONFIG_OK, 0)]).get RED_STATUS.CONFIG_OK = 0 ∧
    (let s := pair { headSent := true } false []
     (∀ x ∈ (s.bucket 0).heads, x.1 ≠ 1) ∧ (s.bucket 0).headSent = true ∧ s.redSize ≤ (s.bucket 0).heads.length + 2 ∧
       (s.ent 0).wvalid = false) := by decide +kernel

theorem witness_Segments_deadline :
    ([109, 110].all fun now =>
      let s := pair { localAt := some 100 } true [(PWR_RT_COUNT.COUNT, now)]
      decide (s.live ∧ s.replay = false ∧ (s.bucket 0).localAt = some 100 ∧ 0 < s.red.tab.length ∧ (s.ent 0).chan < 16 ∧
        (s.bucket 0).closed = false ∧ (s.bucket 0).incomplete = false ∧ s.clipOn = false ∧ s.red.normOwn = false ∧
        (s.now < 100 + (s.ent 0).deadline ↔ now = 109))) = true := by decide +kernel

theorem witness_Segments_send :
    (pair {} true []).chanHead 3 = none ∧
    (let s := pair {} true []
     s.live ∧ s.replay = false ∧ s.chanHead 2 = some 0 ∧ (s.bucket 0).localAt = none) ∧
    ([(true, 1), (false, 1), (true, 2), (false, 2)].all fun x =>
      let s := pair { localAt := some 100 } x.1 [(RED_GROUP.SIZE, x.2)]
      decide (s.live ∧ s.replay = false ∧ s.chanHead 2 = some 0 ∧ (s.bucket 0).localAt.isSome = true ∧ (s.bucket 0).opened = false ∧
        s.red.voted = false ∧ s.get RED_STATUS.CONFIG_OK = 1 ∧ bit s.red.flags 0 = false ∧ s.get RED_GROUP.MODE = 1 ∧
        (s.ent 0).wvalid = x.1 ∧ (s.bucket 0).headSent = false ∧ s.redSize = x.2 ∧ s.redRank = 0 ∧ (s.bucket 0).complete = false ∧
        (s.bucket 0).wait = [] ∧ (s.bucket 0).incomplete = false)) = true := by decide +kernel

/-- A participant of the manual's group of four: its rank and its element. -/
def four (rank x : Nat) : State :=
  { puts up [(RED_GROUP.MODE, 1), (RED_GROUP.SIZE, 4), (RED_GROUP.RANK, rank), (SBD_PARAMS.VALUE, 4)] with
    red := { tab := tab1 true, buckets := [(0, { drained := [(0, x + 2 ^ 32)] })] } }

/-- The manual's four participants (R280). -/
def fours : List State := [four 0 0x39C00000, four 1 0xB9200000, four 2 0x0D800000, four 3 0x17800001]

theorem witness_ExactReduction :
    fours ≠ [] ∧ fours.length ≤ 128 ∧ (∀ s ∈ fours, s.get RED_GROUP.MODE = 1 ∧ (s.slice 0 0).2 = 1) ∧
    fours.reverse.isPerm fours = true := by decide +kernel

/-- The sum of the manual's example and what the owner writes (R280, R281). -/
theorem test_exact :
    (let g := ((fours.map (fun s => s.contribution 0 0)).drop 1).foldl segAdd ((four 0 0x39C00000).contribution 0 0)
     (g.elems, g.hdr.trunc, g.hdr.maxexp, toF32 (.fin false (g.elems.headD 0) (g.hdr.e - 88)))) =
      ([7 * 2 ^ 83 + 2 ^ 18], 2, -12, 0x39600000) := by decide +kernel

/-- The folds of the manual's fixed-order example (R283, R286). -/
theorem test_fold :
    (foldVal (ofF32 0x4B800000), foldVal (ofF32 0x3F800001), twoSum 0x4B800000 0x3F800001) =
      (2 ^ 13, 2 ^ 149 + 2 ^ 126, 0x4B800001, m160 - 2 ^ 149 + 2 ^ 126, 0) := by decide +kernel

/-- The root of a job of two. -/
def root (r : Red) : State :=
  { puts up [(LNK_TORUS.DX, 2), (LNK_TORUS.DY, 1), (LNK_TORUS.DZ, 1), (RED_JOB.NX, 2), (RED_JOB.NY, 1), (RED_JOB.NZ, 1)] with
    red := { r with voteStep := 5, voteAtt := 1 } }

/-- A vote message for step 5, attempt 1. -/
def vote (kind flags outcome : Nat) : VoteMsg :=
  { step := 5, attempt := 1, round := 0, kind := kind, flags := flags, outcome := outcome, count := 1 }

/-- A device alone in its job, in step 5, attempt 1. -/
def alone (r : Red) (regs : List (Fld × Nat)) : State :=
  { puts up ([(LNK_TORUS.DX, 1), (LNK_TORUS.DY, 1), (LNK_TORUS.DZ, 1), (RED_JOB.NX, 1), (RED_JOB.NY, 1), (RED_JOB.NZ, 1)] ++ regs) with
    red := { r with voteStep := 5, voteAtt := 1 } }

theorem witness_VoteRounds_due :
    up.live ∧ up.voteDue = false ∧
    (let s := voting { runNext := 1 } [(NUM_STATUS.RESIDUE, 1), (SBD_LOSS_WIN.EN, 1), (SBD_LOSS_CTRL.SPIKE_SKIP, 1),
       (SBD_LOSS.SUM, 0x7F800000)]
     s.live ∧ s.voteDue = true ∧ s.parent.isSome = true ∧ s.get RED_STATUS.CONFIG_OK = 0 ∧ s.get NUM_STATUS.RESIDUE = 1 ∧
       s.get SBD_LOSS_WIN.EN = 1 ∧ s.get SBD_LOSS_CTRL.SPIKE_SKIP = 1 ∧ fFinite (s.get SBD_LOSS.SUM) = false) ∧
    (let s := alone { runNext := 1 } []
     s.voteDue = true ∧ s.parent = none ∧ s.children = [] ∧ s.jobSize = 1 ∧ s.red.sentUp = false ∧ decideOutcome 0 1 ≠ 3) ∧
    (let s := root { runNext := 1 }
     s.voteDue = true ∧ 1 ∈ s.children ∧ s.red.ups = []) := by decide +kernel

theorem witness_VoteRounds_up :
    (2 ∉ (root {}).children ∧ (root {}).live ∧
      ∃ u ∈ (root { ups := [(1, vote 0 0 0)] }).red.ups, u.1 = 1 ∧ u.2.step = 5 ∧ u.2.attempt = 1 ∧ u.2.round = 0 ∧ u.2.kind = 0) ∧
    (1 ∈ (root {}).children ∧ (vote 0 0 0).kind ≤ 1 ∧ (∀ u ∈ (root {}).red.ups, u.1 ≠ 1) ∧ (root {}).red.contributed = none) ∧
    ([(1, true), (2, false)].all fun x =>
      let s := root { contributed := some 4 }
      let m := vote 0 x.1 0
      decide (s.live ∧ s.children = [1] ∧ s.red.ups = [] ∧ s.voteCur m = true ∧ m.kind = s.red.vkind ∧ s.red.sentUp = false ∧
        s.parent = none ∧ m.count + 1 = s.jobSize ∧ (decideOutcome 0 (4 ||| x.1) ≠ 3 ↔ x.2 = true) ∧ s.red.kept = [] ∧ s.red.keptN = [] ∧
        { m with count := 5 }.count + 1 ≠ s.jobSize)) = true ∧
    (let s := puts (root { contributed := some 0 }) [(RED_JOB.NX, 3), (LNK_TORUS.DX, 3), (LNK_COORD.X, 1)]
     s.live ∧ s.children = [2] ∧ s.voteCur (vote 0 1 0) = true ∧ s.red.sentUp = false ∧ s.parent.isSome = true) :=
  ⟨⟨by decide +kernel, by decide +kernel, (1, vote 0 0 0), by decide +kernel, by decide +kernel⟩, by decide +kernel,
    by decide +kernel, by decide +kernel⟩

/-- A device that confirms an update. -/
def confirming (u : Update) (regs : List (Fld × Nat)) : State := { voting { vkind := 1 } regs with upd := some u }

theorem witness_VoteRounds_confirm :
    ([true, false].all fun b =>
      let s := { alone { vkind := 1, gatherBad := b } [(SBD_STATUS.STATE, 4)] with upd := some {} }
      decide (s.live ∧ s.parent = none ∧ s.children = [] ∧ s.jobSize = 1 ∧ s.red.sentUp = false ∧ s.red.vkind = 1 ∧
        s.red.contributed = none ∧ s.upd = some {} ∧ s.red.gatherBad = b ∧ s.get SBD_STATUS.STATE = 4 ∧
        s.chunksDue ≤ s.red.gathered.length)) = true ∧
    ([(true, 2), (false, 4), (false, 3)].all fun x =>
      let s := confirming { bad := x.1 } [(SBD_STATUS.STATE, x.2)]
      decide (s.live ∧ s.parent.isSome = true ∧ s.red.vkind = 1 ∧ s.red.contributed = none ∧ s.upd = some { bad := x.1 } ∧
        s.get SBD_STATUS.STATE = x.2 ∧ s.chunksDue ≤ 0)) = true ∧
    (voting {} []).red.waitRevote = false ∧
    (let s := voting { waitRevote := true } []
     s.live ∧ s.red.waitRevote = true ∧ s.parent.isSome = true) ∧
    ([0, 1].all fun x =>
      let s := voting { contributed := some 0, stamp := 900 + x } [(RED_VOTE_CTRL.TIMEOUT, 100)]
      decide (s.live ∧ s.red.contributed.isSome = true ∧ s.red.timedOut = false ∧
        (s.now < s.red.stamp + s.get RED_VOTE_CTRL.TIMEOUT ↔ x = 1))) = true := by decide +kernel

theorem witness_VoteOutcomes_held :
    ([(0, false), (2, false), (2, true)].all fun x =>
      let s := { voting { sentUp := true, contributed := some x.1 } [] with ras := { overflow := x.2 } }
      decide (s.live ∧ s.voteCur (vote 2 0 3) = true ∧ s.red.sentUp = true ∧ s.parent.isSome = true ∧ s.red.vkind ≠ 1 ∧
        s.red.contributed = some x.1 ∧ s.ras.overflow = x.2 ∧ bit x.1 1 = (x.1 == 2))) = true := by decide +kernel

theorem witness_VoteOutcomes :
    ([1, 2, 3, 4].all fun o =>
      let s := voting { sentUp := true, contributed := some (if o = 3 then 2 else 0) } []
      let m := vote 2 0 o
      decide (s.live ∧ s.voteCur m = true ∧ m.kind = 2 ∧ s.red.sentUp = true ∧ s.parent.isSome = true ∧ s.red.kept = [] ∧
        s.red.keptN = [] ∧ s.clipOn = false ∧ s.red.voteStep < 2 ^ 32 - 1 ∧ s.red.voteAtt < 65535 ∧ s.red.vkind = 0 ∧ m.outcome = o ∧
        bit m.flags 3 = false ∧ s.red.contributed.isSome = true)) = true ∧
    ([5, 2].all fun o =>
      let s := { voting { sentUp := true, vkind := 1, contributed := some 0 } [] with upd := some {} }
      let m := vote 2 0 o
      decide (s.live ∧ s.voteCur m = true ∧ m.kind = 2 ∧ s.red.sentUp = true ∧ s.parent.isSome = true ∧ s.red.vkind = 1 ∧
        s.upd = some {} ∧ m.outcome = o ∧ bit m.flags 3 = false ∧ s.clipOn = false)) = true := by decide +kernel

/-- A device of rank 0 of two that gathers chunks for step 5, attempt 1. -/
def gathers (got : List Nat) : State :=
  { confirming (upd4 4) [(SBD_STATUS.STATE, 4), (RED_GROUP.SIZE, 2), (WRD_STATUS.IN_SERVICE, 1), (SBD_WBANK.ADDR 1, 0x2000)] with
    red := { vkind := 1, voteStep := 5, voteAtt := 1, gathered := got } }

theorem witness_VoteOutcomes_gather :
    (let h := hdr 5 1 1 1
     let a := (gathers []).sbd (SBD_WBANK.ADDR (1 - (gathers []).get SBD_BANK.ACTIVE)) + 2 * h.first
     (gathers []).live ∧ (gathers []).replay = false ∧ h.owner ≠ (gathers []).redRank ∧ (gathers []).chunkCur h = true ∧
       h.first ∉ (gathers []).red.gathered ∧ h.first ∈ (gathers [h.first]).red.gathered ∧ (gathers []).chunkCur (hdr 4 1 1 1) = false ∧
       chunkSum [1, 0] ≠ h.checksum % 2 ^ 64 ∧ chunkSum [0, 0] = h.checksum % 2 ^ 64 ∧
       ((gathers []).redRank + 1) % (gathers []).redSize = h.owner ∧ (gathers []).bad = [] ∧ (gathers []).ckp.snap = none ∧
       (gathers []).on WRD_STATUS.IN_SERVICE = true ∧ a + [(0 : Byte), 0].length ≤ (gathers []).wrdEnd) ∧
    (let s := puts (gathers []) [(RED_GROUP.SIZE, 3), (RED_RING.NEXT, 0), (LNK_COORD.X, 1), (LNK_ROUTE.DIR 0 0, 2)]
     (s.redRank + 1) % s.redSize ≠ 2 ∧ (s.routeOf (s.get RED_RING.NEXT)).any (fun x => x.2 == 1 || x.2 == 2) = true ∧
       ∀ d < 6, s.get (LNK_BUNDLE_STATUS.TUNNEL d) ≠ 1) := by decide +kernel

/-! ## Links -/

/-- Link 9 at a state and with its data, in a torus of 4 by 1 by 1. -/
def lk (st : Nat) (k : Link) (regs : List (Fld × Nat)) : State :=
  (puts up ([(LNK_PORT_STATUS.STATE 9, st), (LNK_TORUS.DX, 4), (PWR_FN_CTRL.STATUS 105, 2), (PWR_RT_COUNT.COUNT, 10000000)] ++ regs)).setLink
    9 k

/-- An IDENT of the partner in direction −x of the device at x = 0, in a bundle of class 1. -/
def ident (coord : Nat) : Ident := { coord := coord, dir := 0, pos := 1, cls := 1, serial := 77 }

theorem witness_LinkTraining_steps :
    ((lk 1 { train := .pattern } []).live ∧ 9 < 48 ∧ ((lk 1 { train := .pattern } []).link 9).train = .pattern) ∧
    (let s := lk 1 { train := .locked, cls := 1 } []
     (s.link 9).train = .locked ∧ (s.link 9).cls ≠ 0) ∧
    ([(0, Train.locked, 0), (1, .adapted, 1)].all fun x =>
      let s := lk 1 { train := x.2.1, cls := x.1 } [(LNK_COORD.VALID, x.2.2)]
      decide (s.live ∧ (s.link 9).train = (if (s.link 9).cls = 0 then Train.locked else Train.adapted) ∧
        s.on LNK_COORD.VALID = (x.2.2 == 1))) = true ∧
    ((lk 1 {} []).link 9).train ≠ .framed := by decide +kernel

theorem witness_LinkTraining_ident :
    (let s := lk 1 { train := .framed, cls := 1 } [(LNK_COORD.VALID, 1), (LNK_PARTNER_SERIAL.SERIAL 1, 5)]
     s.live ∧ (s.link 9).train = .framed ∧ s.on LNK_COORD.VALID = true ∧ (ident 2).coord ≠ s.partner 1 ∧
       (ident 3).coord = s.partner 1 ∧ (ident 3).dir = opposite 1 ∧ (ident 3).pos = 9 % 8 ∧
       (ident 3).cls = (s.link 9).cls ∧ (s.link 9).out = false ∧ s.get (LNK_PARTNER_SERIAL.SERIAL 1) ≠ 0 ∧
       s.get (LNK_PARTNER_SERIAL.SERIAL 1) ≠ (ident 3).serial) ∧
    ((lk 1 { train := .framed } []).on LNK_COORD.VALID = false) := by decide +kernel

theorem witness_LinkTraining_fails :
    ([(9984000, 0), (9984001, 1), (9984000, 2), (9984000, 15)].all fun x =>
      let s := lk 1 { train := .pattern, began := x.1 } [(LNK_PORT_STATUS.TRIES 9, x.2)]
      decide (s.live ∧ (s.link 9).train ≠ .none ∧ s.get (LNK_PORT_STATUS.STATE 9) ≠ 2 ∧ s.get (LNK_PORT_STATUS.TRIES 9) = x.2 ∧
        (s.now < (s.link 9).began + 2 * retrainTicks (s.link 9).cls ↔ x.1 = 9984001))) = true ∧
    ([0, 1].all fun x =>
      let s := lk 3 { gapFrom := some x } []
      decide (s.live ∧ s.get (PWR_FN_CTRL.STATUS (96 + 9)) = 2 ∧ (s.link 9).out = false ∧ s.get (LNK_PORT_STATUS.STATE 9) = 3 ∧
        (s.link 9).gapFrom = some x ∧ (s.now < x + s.get LNK_RETRY_CTRL.RETRAIN_GAP ↔ x = 1))) = true := by decide +kernel

/-- A partial of one element that waits in the adder of port 9. -/
def inAdder : Bucket := { wait := [(9, true, ⟨hdr 5 1 0 1, [0]⟩)] }

theorem witness_LinkTraining_out :
    ((lk 6 { out := true } []).link 9).out = true ∧
    ([2, 3].all fun st =>
      let s := lk st {} []
      decide (s.live ∧ (s.link 9).out = false ∧ s.red.buckets = [] ∧ s.get (LNK_PORT_STATUS.STATE 9) = st)) = true ∧
    (let s := { lk 3 {} [] with red := { tab := tab1 true, buckets := [(0, inAdder)] } }
     s.live ∧ (s.link 9).out = false ∧ s.get (LNK_PORT_STATUS.STATE 9) ≠ 2 ∧ s.replay = false ∧ s.red.buckets = [(0, inAdder)] ∧
       inAdder.wait = [(9, true, ⟨hdr 5 1 0 1, [0]⟩)]) := by decide +kernel

/-- A flit of channel 0, sent at tick 0. -/
def flit1x : TxFlit := { lseq := 1, ch := 0, bseq := 0, pay := [1] }

/-- Link 9 UP with one flit in its retry buffer, beside link 8 UP. -/
def upLink (replays : Nat) (regs : List (Fld × Nat)) : State :=
  lk 2 { lseq := 1, retry := [flit1x], replays := replays } ([(LNK_BUNDLE_STATUS.UP 1, 3)] ++ regs)

theorem witness_LinkTraining_down :
    (let s := upLink 16 []
     s.live ∧ s.get (LNK_PORT_STATUS.STATE 9) = 2 ∧ 0 < 8 ∧ 0 ≠ 9 % 8 ∧ bit (s.get (LNK_BUNDLE_STATUS.UP 1)) 0 = true ∧
       (s.link 9).retry = flit1x :: [] ∧ flit1x.sent + s.get LNK_RETRY_CTRL.ACK_TIMEOUT ≤ s.now ∧
       max 1 (s.get LNK_RETRY_CTRL.LIMIT) ≤ (s.link 9).replays ∧ (s.link 9).out = false ∧ s.red.buckets = [] ∧
       (s.link 9).train = .none) ∧
    (upLink 15 []).get LNK_RETRY_CTRL.LIMIT = 16 := by decide +kernel

/-- Queue 63 fed by a link port, with a packet of device 5 through port 9. -/
def linkPk (ring : Bool) : QPacket := { st := .opening, ring := ring, prod := .link 9 5, req := req1k }

/-- A packet of 32 bytes for device 0: QUEUE_OPEN. -/
def openPkt : List Byte := [0, 0, 1, 0, 1] ++ List.replicate 27 0

theorem witness_LinkFlits_bundle :
    (let b : Bundle := { queue := [{ input := 6, ch := 2, flits := [[1]] }] }
     (b.next 2).isSome = true ∧ b.canSend 2 = true ∧ (∀ r ∈ b.resend, r.ch ≠ 2)) ∧
    (let b : Bundle := { resend := [{ lseq := 7, ch := 2, bseq := 5, pay := [1] }] }
     b.next 2 = some ({ lseq := 7, ch := 2, bseq := 5, pay := [1] }, { b with resend := [] })) ∧
    ({ queue := [{ input := 6, ch := 8, flits := [[1]] }] } : Bundle).canSend 8 = true ∧
    (let b : Bundle := { queue := [{ input := 6, ch := 7, flits := [[1]] }] }
     b.canSend 8 = false ∧ b.canSend 7 = true) := by decide +kernel

theorem witness_LinkFlits_receive :
    ((lk 3 {} []).live ∧ (lk 3 {} []).get (LNK_PORT_STATUS.STATE 9) ≠ 2) ∧
    ((upLink 0 []).get (LNK_PORT_STATUS.STATE 9) = 2 ∧ (List.replicate 256 (0 : Byte)).length = 256 ∧
      leAt (List.replicate 256 0) 252 4 ≠ crc32c ((List.replicate 256 (0 : Byte)).take 252)) ∧
    ([(1, 1), (2, 1)].all fun x =>
      let s := upLink 0 []
      let h := flitHdr 1 x.1 0 1 0 0 32 1
      decide (h < 2 ^ 64 ∧ h % 16 = 1 ∧ (bits h 40 12 = ((s.link 9).ackd + 1) % 4096 ↔ x.1 = 1))) = true ∧
    ([(0, 0), (65535, 1), (1, 2)].all fun x =>
      let s := upLink 0 []
      let h := flitHdr 1 1 x.1 1 0 0 32 1
      let rel := SMap.get (s.bundle 1).relSeq 0 (flitChannel h)
      decide ((32768 ≤ (bits h 24 16 + 65536 - rel) % 65536 ↔ x.2 = 1) ∧ (bits h 24 16 ≠ rel ↔ x.2 ≠ 0) ∧
        SMap.find? (s.bundle 1).held (flitChannel h * 65536 + bits h 24 16) = none ∧
        SMap.find? (s.bundle 1).held (flitChannel h * 65536 + rel) = none)) = true := by decide +kernel

theorem witness_LinkFlits_packet :
    (let s := upLink 0 []
     let h := flitHdr 1 1 0 1 0 0 32 1
     let q := (padTo 244 openPkt).take (bits h 4 8)
     h < 2 ^ 64 ∧ SMap.find? (s.bundle 1).held (flitChannel h * 65536 + (0 + 1) % 65536) = none ∧
       SMap.get (s.bundle 1).part [] (flitChannel h) = [] ∧ 32 ≤ q.length ∧ 32 + leAt q 6 2 ≤ q.length ∧ packetOk q = true ∧
       s.routeOf (leAt q 0 2) = none) ∧
    (let h := flitHdr 0 0 0 0 2 3 4 0
     h < 2 ^ 64 ∧ h % 16 = 0) ∧
    (let s := upLink 0 []
     let h := flitHdr 0 0 0 0 0 0 0 2
     h < 2 ^ 64 ∧ h % 16 = 2 ∧
       (s.link 9).retry.filter (fun f => !(decide ((bits h 52 12 + 4096 - f.lseq) % 4096 < 2048))) = [flit1x]) := by
  decide +kernel

/-- R321: a packet in transit leaves for its next bundle; R224: the port's retry cannot recover an open queue packet's flit. -/
theorem witness_LinkFlits_transit :
    (let s := lk 2 {} [(LNK_ROUTE.DIR 0 2, 1)]
     let q := [2, 0, 1, 0, 1] ++ List.replicate 27 0
     leAt q 0 2 = 2 ∧ s.transit 1 2 q = some (0, 2) ∧ s.get (LNK_BUNDLE_STATUS.TUNNEL 0) ≠ 1 ∧ packetOk q = true ∧
       (∀ o < 6, (s.bundle o).queue = []) ∧ (lk 2 {} [(LNK_ROUTE.DIR 0 2, 3)]).routeOf 2 = some (0, 3)) ∧
    (let s := que 16 [(QUE_Q_CFG.SOURCE 63, 1)] { pks := [linkPk false] }
     s.openPk 63 = some (linkPk false) ∧ (linkPk false).prod = .link 9 5) := by decide +kernel

/-- The bundle of link 9 with one packet of one flit on channel 2. -/
def toSend (full : Bool) : State :=
  (lk 2 { retry := if full then List.replicate 512 { lseq := 1, ch := 0, bseq := 0, pay := [] } else [] } []).setBundle 1
    { queue := [{ input := 6, ch := 2, flits := [[1]] }] }

theorem witness_LinkFlits_send :
    ([0, 3].all fun n =>
      let s := (lk 2 { since := 63, replay := if n = 0 then [] else [flit1x] } []).setBundle 1 { owed := [(8, n)] }
      decide (s.live ∧ s.get (LNK_PORT_STATUS.STATE 9) = 2 ∧ (s.link 9).out = false ∧
        (0 < SMap.get (s.bundle 1).owed 0 8 ∧ 63 ≤ (s.link 9).since ∨ (s.link 9).replay = [] ∧ s.linkIdle 9 = true))) = true ∧
    (let s := lk 2 { replay := [flit1x] } []
     s.live ∧ s.get (LNK_PORT_STATUS.STATE 9) = 2 ∧ (s.link 9).out = false ∧ (s.link 9).replay = flit1x :: [] ∧
       SMap.get (s.bundle 1).owed 0 8 = 0) ∧
    (((toSend true).link 9).replay = [] ∧ 512 ≤ ((toSend true).link 9).retry.length) ∧
    (let s := toSend false
     s.live ∧ (s.link 9).replay = [] ∧ s.linkIdle 9 = false ∧ (s.bundle 1).canSend 2 = true ∧ (s.bundle 1).turn 2 = true ∧
       ((s.bundle 1).next 2).isSome = true ∧ (s.bundle 1).canSend 3 = false) ∧
    ([(9996000, 15), (9996001, 15)].all fun o =>
      let f := { flit1x with sent := o.1 }
      let s := lk 2 { retry := [f], replays := o.2 } []
      decide (s.live ∧ (s.link 9).retry = f :: [] ∧ (s.link 9).replays < max 1 (s.get LNK_RETRY_CTRL.LIMIT) ∧
        (s.now < f.sent + s.get LNK_RETRY_CTRL.ACK_TIMEOUT ↔ o.1 = 9996001))) = true := by decide +kernel

/-- An idle die, as FAB_STATUS reports it. -/
def idleDie : State := puts up [(FAB_STATUS.IDLE, 1)]

theorem witness_CoordinatesAndTunnels_write :
    7 < 8 ∧ 65535 < 65536 ∧ ([] : List Byte).length ≤ 244 ∧ 63 < 64 ∧
    (let s := puts up [(FAB_STATUS.IDLE, 0)]
     s.live ∧ s.get FAB_STATUS.IDLE = 0 ∧ 1 ≠ s.coord ∧ s.word (LNK_ROUTE.reg 2) ≠ 5 ∧ s.word (LNK_ROUTE.reg 2) = 0) ∧
    (idleDie.live ∧ idleDie.get FAB_STATUS.IDLE = 1 ∧ torusOk 0x1041 1 = false ∧ torusOk 0x1042 1 = true ∧ torusOk 0x8820 0 = true ∧
      torusOk 0x20820 0 = false) ∧
    (let s := lk 2 {} [(FAB_STATUS.IDLE, 1)]
     s.get (LNK_PORT_STATUS.STATE 9) ≠ 0 ∧ (s.link 9).out = false ∧ s.get (PWR_FN_CTRL.STATUS (96 + 9)) = 2) := by decide +kernel

/-- Direction +x has lost its links, and +y is UP. -/
def lostX (reports : Nat) : State :=
  (puts up [(LNK_PARTNER_SERIAL.SERIAL 0, 5), (LNK_BUNDLE_STATUS.UP 2, 1)]).setBundle 2 { reports := reports }

theorem witness_CoordinatesAndTunnels_tunnel :
    (let s := lostX 1
     s.live ∧ s.bundleUp 0 = false ∧ s.hadPartner 0 = true ∧ s.sideFor 0 = some 2 ∧ s.get (LNK_BUNDLE_STATUS.TUNNEL 0) ≠ 1) ∧
    ((lostX 0).sideFor 0 = none ∧ (lostX 0).get (LNK_BUNDLE_STATUS.TUNNEL 0) ≠ 2) ∧
    (opposite 3 = 2 ∧ (lostX 0).bundleUp 2 = true ∧ (lostX 0).bundleUp 0 = false ∧ opposite 1 = 0 ∧
      (lostX 0).bundleUp (opposite 3) = true) := by decide +kernel

/-- The header and the count of a TUNNEL packet with one record. -/
def tunFrame : TunnelFrame := { header := List.replicate 16 0, count := 1 }

theorem witness_CoordinatesAndTunnels_packet :
    (let s := lostX 0
     s.live ∧ tunFrame.count = 1 ∧ opposite 1 = 0 ∧ (s.bundle 0).known 2 0 = false ∧ (s.bundle 0).known 2 1 = false ∧
       (s.bundle 0).known 2 65535 = true ∧ SMap.get (s.bundle 0).relSeq 0 2 = 0 ∧ (s.bundle 0).held = []) ∧
    (let s := puts (lostX 0) [(LNK_BUNDLE_STATUS.UP 0, 1)]
     s.bundleUp 0 = true) ∧
    (∃ pkt, pkt = tunnelBytes 1 2 (1 + 1) [] tunFrame) ∧
    (tunFrame.header.length = 16 ∧ (lostX 0).bundleUp 2 = true ∧ opposite 3 = 2 ∧ (lostX 0).bundleUp 0 = false ∧
      (lostX 0).get (LNK_BUNDLE_STATUS.TUNNEL 0) ≠ 2) :=
  ⟨by decide +kernel, by decide +kernel, ⟨_, rfl⟩, by decide +kernel⟩

/-- The bytes of a TUNNEL packet (Tables 11.7 and 11.9). -/
theorem test_tunnelBytes : (tunnelBytes 1 2 3 [7] tunFrame).drop 16 = [1, 2, 3, 1] ++ List.replicate 12 0 ++ [7] := by decide +kernel

/-- An open of this device at device 5, queue 63. -/
def askOpen (st stamp : Nat) : State :=
  { puts up [(PWR_RT_COUNT.COUNT, 1000)] with opens := [{ dev := 5, queue := 63, req := req1k, data := [], st := st, stamp := stamp }] }

theorem witness_LinkQueuesAndStreams_opens :
    (let s := que 0 [] {}
     s.live ∧ s.openAllowed 63 (.link 9 5) = false ∧ req1k.words ≤ 1024) ∧
    (let s := que 0 [(QUE_Q_CFG.SOURCE 63, 1)] {}
     s.live ∧ s.openAllowed 63 (.link 9 5) = true ∧ s.pendOpens < 1024 ∧ s.openPk 63 = none ∧ bit (s.get QUE_FLUSH.REQ) 63 = false ∧
       (s.queue 63).wait = [] ∧ s.ringPks 63 = [] ∧ s.get (QUE_Q_CFG.UNITS 63) ≤ 128 ∧ s.qFits 63 req1k.words = true) ∧
    ([0, 1024].all fun n =>
      let s := que 0 [(QUE_Q_CFG.SOURCE 63, 1)] { pks := [linkPk false], wait := List.replicate n (.link 9 4, req1k, []) }
      decide (s.openAllowed 63 (.link 9 5) = true ∧ (s.openPk 63).isSome = true ∧ (s.pendOpens < 1024 ↔ n = 0))) = true ∧
    1024 < { req1k with words := 1025 }.words ∧
    ([(0, 0), (1, 600), (1, 601), (2, 0), (3, 0)].all fun x =>
      let s := askOpen x.1 x.2
      decide (s.live ∧ (s.opens.map (·.st)) = [x.1] ∧ (x.1 = 1 → (s.now < x.2 + 400 ↔ x.2 = 601)))) = true := by decide +kernel

theorem witness_LinkQueuesAndStreams_data :
    (up.grantedTo 63 5 = none) ∧ up.openPk 63 = none ∧ up.opens = [] ∧
    ([true, false].all fun ring =>
      let s := que 16 [(QUE_Q_CFG.SOURCE 63, 1), (PWR_RT_COUNT.COUNT, 0x400000)] { pks := [linkPk ring], got := 960 }
      decide (s.live ∧ s.grantedTo 63 5 = some (linkPk ring) ∧ (s.queue 63).pks = [] ++ [linkPk ring] ∧ (s.queue 63).wait = [] ∧
        s.get (QUE_Q_CFG.UNITS 63) ≤ 128 ∧ (linkPk ring).base < 2 * s.qW 63 ∧ (linkPk ring).req.words ≤ s.qW 63 ∧
        (List.replicate 4096 (0 : Byte)).length % 64 = 0 ∧ (s.queue 63).got + 4096 / 64 ≤ (linkPk ring).req.words ∧ s.bad = [] ∧
        s.ckp.snap = none ∧ (s.queue 63).got < (linkPk ring).req.words ∧ (s.queue 63).lastData + s.get LNK_STALL.TICKS ≤ s.now)) = true ∧
    (let s := que 16 [(QUE_Q_CFG.SOURCE 63, 1), (PWR_RT_COUNT.COUNT, 0x3FFFFF)] { pks := [linkPk false], got := 960 }
     s.now < (s.queue 63).lastData + s.get LNK_STALL.TICKS) := by decide +kernel

/-- Tile 0 with an input stream from tile 3 of device 5 on entry 0, or an output to device 5. -/
def strIn (kind : Nat) : State :=
  rec1 [(8, 1, 1), (0x100, 1, kind), (0x101, 1, 7), (0x102, 2, 3), (0x104, 2, 5), (0x106, 1, 2)] []
    { strIn := [(credKey 0 0, 1)] } { kind := 1 }

theorem witness_LinkQueuesAndStreams_streams :
    (let h : StreamHdr := { src := 5, tile := 0, entry := 0, srcEntry := 7, step := 0, mb := 0, srcTile := 3 }
     (strIn 1).live ∧ (strIn 1).replay = false ∧ (strIn 1).streamOk h = true ∧ (strIn 1).phys h.tile = some 0 ∧
       (strIn 1).get RAS_CTRL.CAPTURE = 0 ∧ (strIn 1).streamOk { h with src := 6 } = false) ∧
    (((strIn 5).planeAt 0 0).any fun v => v.rKind 0 == 5 && v.rPeer 0 == 5) = true ∧
    (((strIn 1).planeAt 0 0).any fun v => v.rKind 0 != 5) = true ∧ (puts up [(RAS_CTRL.REPLAY, 1)]).replay = true := by decide +kernel

/-- CRC-32C of the nine digits, its standard check value (R309). -/
theorem test_crc32c : crc32c [0x31, 0x32, 0x33, 0x34, 0x35, 0x36, 0x37, 0x38, 0x39] = 0xE3069283 := by decide +kernel
/-! ## Synchronisation -/

/-- A die whose cell 4095 is `c`. -/
def cel (c : Cell) : State := up.setCell 4095 c

/-- A sync message that the stop 1054 of cell 4095 has delivered, for context 2 and VID 0x21. -/
def sFlit (op tag : Nat) (l : List (Nat × Nat)) : Nat × Flit :=
  (1054, { srcs := [0], input := 4, dst := 1054, msg := .sync op 4095 2 0x21 tag l })
def sAt (s : State) (op tag : Nat) (l : List (Nat × Nat)) : State := { s with mesh := { got := [sFlit op tag l] } }

/-- A waiter of Bench 10, tag 0, at the cell. -/
def w9 (placed : Bool) : Waiter := { req := 10, on := .cell 4095, tag := 0, stamp := 0, slot := 9, stop := 10, placed := placed }

theorem witness_SyncCells_brings (s : State) (op tag : Nat) (l : List (Nat × Nat)) :
    Brings (sAt s op tag l) 4095 op 2 0x21 tag l (sFlit op tag l) := by
  simp [Brings, State.nextOp, State.arrived, sAt, sFlit]

/-- A condition of a clause with the cell, the tag and the number of operations that meet it. -/
abbrev Clause := (Cell → Nat → Nat → Bool) × Cell × Nat × Nat
def met (l : List Clause) : Bool := l.all (fun x => x.1 x.2.1 x.2.2.1 x.2.2.2)

theorem witness_SyncCells_arrive :
    (up.live ∧ (up.accept 0 4095 3 1 10).isNone ∧ (up.accept 3 4095 3 1 10).isNone) ∧
    met [(fun c _ _ => !c.holds 2 0x21, {}, 0, 1),
      (fun c _ _ => c.holds 2 0x21 && !c.barrier && c.count == 0, flag 0, 0, 2),
      (fun c _ _ => c.holds 2 0x21 && !c.barrier && c.count != 0, flag 1, 3, 2),
      (fun c t k => c.barrier && t % 4 == c.gen % 4 && decide (c.count + k < c.n), bar 65535 0 0, 3, 2),
      (fun c t k => c.barrier && t % 4 == c.gen % 4 && decide (c.count < c.n ∧ c.n ≤ c.count + k ∧ c.next < c.n), bar 65535 2 2, 3, 1),
      (fun c t k => c.barrier && t % 4 == c.gen % 4 && decide (c.count < c.n ∧ c.n ≤ c.count + k ∧ c.next = c.n), bar 65535 2 3, 3, 2),
      (fun c t k => c.barrier && t % 4 == (c.gen + 1) % 4 && decide (c.next + k ≤ c.n), bar 1 1 1, 2, 2),
      (fun c t k => c.barrier && t % 4 == (c.gen + 1) % 4 && decide (c.next < c.n ∧ c.n < c.next + k), bar 1 1 2, 2, 2),
      (fun c t _ => c.barrier && t % 4 == (c.gen + 1) % 4 && decide (c.n ≤ c.next), bar 1 1 3, 2, 1),
      (fun c t _ => c.barrier && t % 4 == (c.gen + 2) % 4, bar 1 1 3, 3, 1),
      (fun c t _ => c.barrier && t % 4 == (c.gen + 3) % 4, bar 1 1 3, 0, 1)] = true := by decide +kernel

theorem witness_SyncCells_arrive_state :
    (let s := sAt (cel (bar 65535 2 3)) 0 3 [(11, 9), (10, 9)]
     s.live ∧ s.cell 4095 = bar 65535 2 3 ∧ [(11, 9), (10, 9)].length = 2 ∧ ([(11, 9), (10, 9)] : List (Nat × Nat)).getLast?.map (·.1) = some 10) ∧
    (let s := puts (cel { bar 0 2 0 with names := [(5, true, 2)] }) [(WRD_DIE_COORD.VALID 5, 1)]
     (s.cell 4095).names = [(5, true, 2)] ∧ (s.dieCoord 5).isSome) := by decide +kernel

theorem witness_SyncCells_wait :
    (({ cel (bar 0 0 0) with waits := [w9 false] } : State).waiterOf 4095 0 (10, 9) = some (w9 false) ∧
      ({ up with waits := [w9 false] } : State).waiterOf 4095 1 (10, 9) = none ∧ up.phys (10 % 1024) = some 10 ∧
      ({ up with waits := [{ w9 false with slot := 3 }] } : State).waiterOf 4095 0 (10, 3) = some { w9 false with slot := 3 }) ∧
    met [(fun c _ _ => c.holds 2 0x21 && !c.barrier && c.count == 1, flag 1, 0, 1),
      (fun c _ _ => c.holds 2 0x21 && !c.barrier && c.count != 1, flag 0, 0, 1),
      (fun c t _ => c.barrier && t % 4 == c.gen % 4 && decide (c.count + 1 < c.n), bar 0 1 0, 0, 1),
      (fun c t _ => c.barrier && t % 4 == c.gen % 4 && decide (c.count + 1 = c.n ∧ c.next < c.n), bar 0 2 0, 0, 1),
      (fun c t _ => c.barrier && t % 4 == c.gen % 4 && decide (c.count + 1 = c.n ∧ c.next = c.n), bar 65535 2 3, 3, 1),
      (fun c t _ => c.barrier && t % 4 == (c.gen + 1) % 4 && decide (c.count < c.n ∧ c.next < c.n), bar 0 1 0, 1, 1),
      (fun c t _ => c.barrier && t % 4 == (c.gen + 1) % 4 && decide (c.count < c.n ∧ c.n ≤ c.next), bar 0 2 3, 1, 1),
      (fun c t _ => c.barrier && t % 4 == (c.gen + 2) % 4, bar 65534 0 0, 0, 1),
      (fun c t _ => c.barrier && t % 4 == (c.gen + 3) % 4, bar 65533 0 0, 0, 1)] = true := by decide +kernel

/-- An operation of SYN_OP slot 3 and a die with that in flight. -/
def op3 (op : Nat) : SlotOp := { op := op, tag := 0, ctx := 2, phys := true, remote := false, die := 0, vid := 0x21, req := 0x4003 }
def slot3 (s : State) (op : Nat) : State := { s with slots := [(3, [op3 op])] }

theorem witness_SyncRequesters_slots :
    (8 < 9 ∧ 4 ≤ (7 : Word).toNat % 8 ∧ (0x0021_0020_0000_0000 : Word).toNat % 8 < 4 ∧ up.slot 8 = [] ∧
      16 ≤ (({ up with slots := [(3, List.replicate 16 (op3 0))] } : State).slot 3).length ∧ (slot3 up 0).slot 3 ≠ [] ∧
      ((slot3 up 0).slot 3).length < 16) ∧
    (let v : Nat := 0x0021_0020_0000_0000
     (cel (flag 0)).findCell (bits v 36 4) (bits v 48 16) = some 4095 ∧ up.findCell 2 0x21 = none) ∧
    (let s := puts up [(WRD_DIE_COORD.VALID 5, 1)]
     s.ownDie 0 = true ∧ s.ownDie 5 = false ∧ (s.dieCoord 5).isSome ∧ up.ownDie 15 = false ∧ up.dieCoord 15 = none) ∧
    (slot3 up 0).slot 3 = [op3 0] := by decide +kernel

theorem witness_SyncRequesters_release :
    (up.arrived (fun st g => st == 10 && (g.release? 4095).isSome) = none) ∧
    ([(flag 1, 1, true), (bar 2 0 0, 2, true), (bar 1 0 0, 1, true), (bar 0 0 0, 0, false)].all fun x =>
      let s : State := { got (cel x.1) 10 (.release 4095 x.2.1) with waits := [w9 true] }
      decide (s.live ∧ s.waits.Nodup ∧ (s.arrived (fun st g => st == 10 && (g.release? 4095).isSome)).any (fun y => y.2.msg == .release 4095 x.2.1) ∧ s.phys (10 % 1024) = some 10 ∧
        (((s.cell 4095).barrier = false ∨ 2 ≤ (0 + 4 - x.2.1 % 4) % 4) ↔ (x.2.2 = true ∧ x.2.1 ≠ 1 ∨ (s.cell 4095).barrier = false ∨ x.2.1 = 1)))) =
      true := by decide +kernel

/-- The answers that pass or reject a waiter on VID 0x21 of die 5. -/
def far9 (slot op : Nat) : Waiter := { req := 10, on := .far 5 true 2 0x21, tag := 0, stamp := 0, slot := slot, stop := 10, op := op }
def ans (op gen reason : Nat) (flag : Bool) : SyncMsg :=
  { op := op, tag := 0, phys := true, ctx := 2, vid := 0x21, count := 1, req := 10, cell := 4095, gen := gen, reason := reason, flag := flag }

theorem witness_SyncRequesters_answers :
    (∀ w ∈ ({ up with waits := [far9 9 1] } : State).waits, w.on = .far 5 (ans 4 1 0 false).phys (ans 4 1 0 false).ctx (ans 4 1 0 false).vid) ∧
    ([ans 4 0 0 false, ans 5 0 0 true, ans 5 1 0 false, ans 5 2 0 false].all fun m =>
      decide (m.op = 4 ∧ m.req = 10 ∧ m.tag % 4 = 0 ∨ m.op = 5 ∧ (m.flag = true ∨ 2 ≤ (0 + 4 - m.gen % 4) % 4))) = true ∧
    ([{ ans 4 0 0 false with req := 11 }, ans 5 0 0 false, ans 5 3 0 false, { ans 6 0 6 false with req := 11 }, ans 6 0 3 false].all fun m =>
      decide (m.op = 4 ∧ (m.req ≠ 10 ∨ m.tag % 4 ≠ 0) ∨ m.op = 5 ∧ m.flag = false ∧ (0 + 4 - m.gen % 4) % 4 < 2 ∨
        m.op = 6 ∧ (m.req ≠ 10 ∨ m.reason ≠ 6 ∧ (far9 9 1).op ≠ 2))) = true ∧
    ((ans 6 0 6 false).reason = 6 ∧ (far9 3 2).op = 2 ∧ (slot3 up 2).slot (far9 3 2).slot = [op3 2]) ∧
    ∀ w ∈ up.waits, w.on ≠ .far 5 true 2 0x21 := by decide +kernel

theorem witness_SyncRequesters_remote :
    ([(0, flag 1, 0), (0, flag 0, 0), (0, bar 0 1 0, 0), (0, bar 2 1 0, 0), (0, bar 1 1 0, 0), (1, flag 1, 0), (1, flag 0, 0), (2, flag 1, 0),
        (2, bar 0 1 0, 0), (2, bar 2 0 0, 0), (3, flag 1, 0), (3, flag 0, 0), (3, bar 0 1 0, 0)].all fun x =>
      let c := (cel x.2.1).cell 4095
      decide ((cel x.2.1).findCell 2 0x21 = some 4095 ∧ c.names = [] ∧ (ans x.1 0 0 false).op < 4 ∧
        ((ans x.1 0 0 false).tag % 4, c.gen % 4, c.count) ∈ [(0, 0, 0), (0, 0, 1), (0, 1, 1), (0, 2, 0), (0, 2, 1)])) = true ∧
    up.findCell 2 0x21 = none ∧ up.dieCoord 15 = none ∧ 4 ≤ (ans 4 0 0 false).op ∧ 15 < 16 := by decide +kernel

theorem witness_SyncRequesters_timeout :
    ([0, 1].all fun x =>
      let s : State := { puts (cel (flag 0)) [(PWR_RT_COUNT.COUNT, 99), (SYN_TIMEOUT.TICKS, 99 + x)] with waits := [w9 true] }
      decide (s.live ∧ (w9 true).told = false ∧ (s.now < (w9 true).stamp + s.get SYN_TIMEOUT.TICKS ↔ x = 1))) = true ∧
    (slot3 up 1).slot 3 = [op3 1] := by decide +kernel

theorem witness_SyncRequesters_rest :
    (let s := puts up [(FAB_STATUS.IDLE, 0)]
     s.live ∧ s.on FAB_STATUS.IDLE = false ∧ 15 < 16 ∧ 16 ≤ 16) ∧
    (let s := slot3 { puts (cel (bar 65535 2 3)) [(FAB_STATUS.IDLE, 1)] with waits := [{ w9 true with slot := 3 }] } 1
     s.on FAB_STATUS.IDLE = true ∧ SMap.wf (fun _ => {}) s.cells = true ∧ SMap.wf (fun _ => {}) s.benches = true ∧ (s.cell 4095).ctx = 2 ∧
       3 ∈ s.slotsOn (s.inCtx [2]) ∧ s.findCell 2 0x21 = some 4095) ∧
    up.findCell 15 65535 = none := by decide +kernel

/-- The ARRIVEs of the manual's example of three Benches (Table 12.5's text): tags and requesters; GEN, COUNT, NEXT and how
many are accepted after each, with the reason of the rejected one. -/
theorem test_barrier :
    [(0, 10), (0, 11), (1, 11), (0, 40), (2, 11), (3, 11), (1, 10), (1, 40)].foldl
      (fun (a : Cell × List (Nat × Nat × Nat × Nat)) x =>
        let r := a.1.arrive x.1 1 x.2
        (r.cell, a.2 ++ [(r.cell.gen, r.cell.count, r.cell.next, if r.taken = 0 then r.why else 0)])) (bar 0 0 0, []) =
    ({ bar 2 1 0 with last := 40 },
     [(0, 1, 0, 0), (0, 2, 0, 0), (0, 2, 1, 0), (1, 1, 0, 0), (1, 1, 1, 0), (1, 1, 1, 3), (1, 2, 1, 0), (2, 1, 0, 0)]) := by decide +kernel

/-- The DETAIL of step 8 of that example (Table 12.7). -/
theorem test_syncDetail :
    syncDetail { bar 1 1 1 with last := 11 } true 3 11 =
      0x21 + 0x82 * 2 ^ 16 + 3 * 2 ^ 24 + 11 * 2 ^ 32 + 2 ^ 48 + 2 ^ 64 + 11 * 2 ^ 80 + 2 ^ 96 + 3 * 2 ^ 112 := by decide +kernel

/-- ARRIVEs of two Benches that one message brings to a FLAG that is clear: COUNT 1, GEN 1 and one SET lost (R343, R354). -/
theorem test_arriveMerged :
    (let c := (after (.arrive 4095 0 2 10) (sAt (cel (flag 0)) 0 0 [(11, 9), (10, 9)])).cell 4095
     (c.count, c.gen, c.setLost, c.last)) = (1, 1, 1, 10) := by decide +kernel

/-- A WAIT whose object the cell no longer holds is a translation miss, not an operation on the new object (R345, R350). -/
theorem test_waitMiss :
    (let t := after (.wait 4095 0 10) { sAt (cel { flag 1 with vid := 0x22 }) 1 0 [(10, 9)] with waits := [w9 false] }
     (t.waits.map (·.on), t.get SYN_EVENT.UNKNOWN)) = ([.nothing], 1) := by decide +kernel

/-- A RELEASE passes the waiter of its stop (R355, R358). -/
theorem test_release :
    (after (.syncRelease 10 4095) { got (cel (bar 2 0 0)) 10 (.release 4095 2) with waits := [w9 true] }).waits = [] := by decide +kernel

/-! ## Host channels -/

/-- A UDP datagram of 14 bytes from 10.0.0.1, port 0x2000, to port 7 in a frame of 60 bytes. -/
def udpFrame : List Byte :=
  let ip : List Byte := [0x45, 0, 0, 42, 0, 0, 0, 0, 64, 17, 0, 0, 10, 0, 0, 1, 10, 0, 0, 7]
  let ip1 := ip.take 10 ++ beBytes 2 (0xFFFF - onesSum ip) ++ ip.drop 12
  let udp : List Byte := [0x20, 0, 0x12, 0x34, 0, 22, 0, 0] ++ List.replicate 14 1
  let c := 0xFFFF - onesSum ([10, 0, 0, 1, 10, 0, 0, 7, 0, 17, 0, 22] ++ udp)
  [5, 0, 0, 0, 0, 0, 9, 0, 0, 0, 0, 0, 8, 0] ++ ip1 ++ udp.take 6 ++ beBytes 2 c ++ udp.drop 8 ++ List.replicate 4 0

/-- An ARP request of 10.0.0.1 for 10.0.0.7. -/
def arpFrame : List Byte :=
  List.replicate 6 0xFF ++ [9, 0, 0, 0, 0, 0, 8, 6, 0, 1, 8, 0, 6, 4, 0, 1, 9, 0, 0, 0, 0, 0, 10, 0, 0, 1, 0, 0, 0, 0, 0, 0, 10, 0, 0, 7] ++
    List.replicate 18 0

theorem witness_CommandCopies_frames :
    (up.live ∧ up.ethUp 7 = false ∧ 7 < 8) ∧
    (let s := eth [] {}
     s.live ∧ s.ethUp 7 = true ∧ ([] : List Byte).length < 60 ∧ udpFrame.length = 60 ∧ udpFrame.length + 4 ≤ s.maxFrame ∧
       s.untag 7 udpFrame = some (14, 0x800) ∧ isDesk 0x800 (udpFrame.drop 14) = false ∧ udpFrame.take 6 = s.portMac 7 ∧
       s.datagram 7 0x800 (udpFrame.drop 14) = some (false, [10, 0, 0, 1], 0x2000, List.replicate 14 1) ∧
       s.filterOk (netOf 7) false [10, 0, 0, 1] = true ∧ s.untag 7 arpFrame = some (14, 0x806) ∧ isDesk 0x806 (arpFrame.drop 14) = true ∧
       s.maxFrame < (List.replicate 9216 (0 : Byte)).length + 4) ∧
    ((eth [(HST_FILTER_CTL.EN 15, 1)] {}).filterOk (netOf 7) false [10, 0, 0, 1] = false) := by decide +kernel

/-- A neighbour solicitation (135) or advertisement (136) of fe80::1 for the unset address, with a link-layer option. -/
def icmp6 (type opt flags : Byte) : List Byte :=
  let tail : List Byte := flags :: 0 :: 0 :: 0 :: List.replicate 16 0 ++ [opt, 1, 9, 0, 0, 0, 0, 0]
  let ips : List Byte := [0xFE, 0x80] ++ List.replicate 13 0 ++ [1] ++ List.replicate 16 0
  [type, 0] ++ beBytes 2 (0xFFFF - onesSum (ips ++ [0, 0, 0, 32, 0, 0, 0, 58, type, 0, 0, 0] ++ tail)) ++ tail
def v6Frame (type opt flags : Byte) : List Byte :=
  List.replicate 6 0x33 ++ [9, 0, 0, 0, 0, 0, 0x86, 0xDD, 0x60, 0, 0, 0, 0, 32, 58, 255, 0xFE, 0x80] ++ List.replicate 13 0 ++ [1] ++
    List.replicate 16 0 ++ icmp6 type opt flags

theorem witness_CommandCopies_neighbours :
    (let s := eth [] {}
     let q := arpFrame.drop 14
     s.ethUp 7 = true ∧ s.sec.warming = false ∧ s.untag 7 arpFrame = some (14, 0x806) ∧ beAt q 0 2 = 1 ∧ beAt q 2 2 = 0x800 ∧
       beAt q 4 2 = 0x604 ∧ beAt q 6 2 = 1 ∧ 28 ≤ q.length ∧ s.get (HST_PORT_IPV4.V4_EN 7) = 1 ∧ (q.drop 24).take 4 = s.portIp4 7 ∧
       (eth [(HST_PORT_IPV4.V4_EN 7, 0)] { neigh := [(1, [10, 0, 0, 1], 9)] }).neighbourMac 1 ((q.drop 14).take 4) = some 9 ∧
       (eth [(HST_PORT_CFG.VLAN_EN 7, 1)] {}).untag 7 arpFrame = none) ∧
    ([(135, 1, 0), (136, 2, 0x60)].all fun x : Byte × Byte × Byte =>
      let s := eth [(HST_PORT_IPV4.V6_EN 7, 1)] {}
      let f := v6Frame x.1 x.2.1 x.2.2
      let q := f.drop 14
      let icmp := (q.drop 40).take (beAt q 4 2)
      decide (s.untag 7 f = some (14, 0x86DD) ∧ isDesk 0x86DD q = true ∧ beAt q 7 1 = 255 ∧ 24 ≤ icmp.length ∧ icmp.length = beAt q 4 2 ∧
        onesSum ((q.drop 8).take 16 ++ (q.drop 24).take 16 ++ beBytes 4 icmp.length ++ beBytes 4 58 ++ icmp) = 65535 ∧
        beAt icmp 0 1 = x.1.toNat ∧ s.get (HST_PORT_IPV4.V6_EN 7) = 1 ∧ (icmp.drop 8).take 16 = s.portIp6 7 ∧
        (q.drop 8).take 16 ≠ List.replicate 16 0 ∧ beAt icmp 24 1 = x.2.1.toNat)) = true := by decide +kernel

theorem witness_CommandCopies_ports :
    (let s := eth [] {}
     s.ethUp 7 = true ∧ ∀ k < 8, k ≠ 7 → k / 4 = 7 / 4 → s.ethUp k = false) ∧
    (let s := puts up [(PWR_FN_CTRL.STATUS 151, 2), (HST_PORT_IPV4.V4_EN 7, 1), (HST_PORT_IPV4.V6_EN 7, 1)]
     s.live ∧ s.ethUp 7 = false ∧ s.get (PWR_FN_CTRL.STATUS (144 + 7)) = 2 ∧ s.get (HST_PORT_IPV4.V4_EN 7) = 1 ∧
       s.get (HST_PORT_IPV4.V6_EN 7) = 1) := by decide +kernel

/-- A command of channel 3, session 9, at port 7. -/
def copy (op seq : Nat) (args body : List Byte) : Copy := ⟨7, bctPacket 0 3 op 0 9 0 seq 0 0 0 args body, ⟨[10, 0, 0, 1], 0x2000⟩⟩

/-- A die with channel 3 open from a sequence number. -/
def chan3 (next : Nat) (window : List Nat) (regs : List (Fld × Nat)) : State :=
  eth regs { chans := [(3, { isOpen := true, session := 9, nextSeq := next, nextStart := 100, nextDone := 100, retire := 100,
                             window := window, hostUdp := 0x2000, addrB := [10, 0, 0, 1] })] }

theorem witness_CommandCopies_judged :
    ([copy 0 100 [] []].all fun cp => decide (cp.port < 8 ∧ bctOk cp.payload = true ∧ leAt cp.payload 4 2 = 3 ∧
      leAt cp.payload 16 8 = 100 ∧ leAt cp.payload 8 4 = 9)) = true ∧ bctOk [] = false ∧
    (let s := chan3 101 [103] []
     s.live ∧ s.sec.warming = false ∧ s.ethUp 7 = true ∧ s.bctOn = true ∧ (s.chan 3).isOpen = true ∧ (s.chan 3).session = 9 ∧
       (s.chan 4).isOpen = false ∧ 0 ≤ (s.chan 3).retire ∧ 0 ≤ (s.chan 3).evAck ∧ 99 < (s.chan 3).retire ∧ s.hst.heldAcks = [] ∧
       s.rec? 3 100 = none ∧ 103 ∈ (s.chan 3).window ∧ (s.chan 3).nextSeq + 256 ≤ 357 ∧ 357 ∉ (s.chan 3).window ∧
       s.get HST_STATUS.MIRROR = 1) ∧
    (let s := chan3 100 [] []
     (s.chan 3).window = [] ∧ (s.chan 3).nextSeq ≤ 100 ∧ 100 < (s.chan 3).nextSeq + 256 ∧
       placeRec s.hst.recs.isEmpty (s.get HST_JOURNAL.HEAD) (s.get HST_JOURNAL.TAIL) (recLen (copy 0 100 [] []).payload) = some 0x21000) ∧
    (up.get WRD_STATUS.IN_SERVICE = 0) := by decide +kernel

/-- A journal with one record that leaves 128 bytes free. -/
def full : State :=
  { chan3 101 [] [(HST_JOURNAL.HEAD, 0x21000), (HST_JOURNAL.TAIL, 0xFFFFF80)] with
    hst := { (chan3 101 [] []).hst with recs := [{ off := 0x21000, len := 0xFFDEF80, st := 1, net := 1, port := 7, ch := 3, seq := 100,
                                                   hdr := [], body := [], stampA := 0, peer := ⟨[], 0⟩ }] } }

theorem witness_CommandCopies_full :
    full.live ∧ full.bctOn = true ∧ (full.chan 3).nextSeq ≤ 101 ∧ 101 ∉ (full.chan 3).window ∧
    placeRec full.hst.recs.isEmpty (full.get HST_JOURNAL.HEAD) (full.get HST_JOURNAL.TAIL) (recLen (copy 0 101 [] []).payload) = none := by
  decide +kernel

theorem witness_CommandCopies_rest :
    ((eth [(HST_TAKEOVER.STATE, 1)] {}).bctOn = false ∧ (eth [(HST_TAKEOVER.STATE, 1)] {}).get WRD_STATUS.IN_SERVICE = 1) ∧
    (let s := chan3 100 [] ((HST_STATUS.MIRROR, 0) :: near)
     s.live ∧ s.get HST_BUDDY.VALID = 1 ∧ s.reaches (s.get HST_BUDDY.COORD) = true ∧ (s.chan 3).window = [] ∧ s.hst.recs = []) ∧
    (let s : State := { chan3 101 [] [] with
       hst := { (chan3 101 [] []).hst with
         recs := [{ off := 0x21000, len := 256, st := 3, net := 1, port := 7, ch := 3, seq := 100, hdr := [], body := [], stampA := 0,
                    sent := true, peer := ⟨[], 0⟩ }] } }
     (s.rec? 3 100).map (fun x => (x.st, x.sent)) = some (3, true) ∧ (s.chan 3).retire ≤ 100 ∧ 100 < (s.chan 3).nextSeq ∧ s.hst.heldAcks = []) ∧
    (∃ x ∈ ({ heldAcks := [(3, 100, copy 0 100 [] [])] } : Hst).heldAcks, x.1 = 3 ∧ x.2.1 = 100) := by decide +kernel

theorem witness_CommandCopies_once :
    (match exec (.commandCopy (copy 0 100 [] [])) (chan3 100 [] []) with
     | .next t => decide ((chan3 100 [] []).hst.recs.length < t.hst.recs.length)
     | _ => false) = true := by decide +kernel

/-- Step 5 of the manual's example of channel 3 (R376): 101 arrives while 102 waits. -/
theorem test_window :
    (let t := after (.commandCopy (copy 0x19 101 [] [])) (chan3 101 [102] [])
     ((t.chan 3).nextSeq, (t.chan 3).window, t.hst.sent.map (fun o => (o.port, leAt o.payload 3 1, leAt o.payload 14 1)))) =
      (103, [], [(7, 1, 1)]) := by decide +kernel

/-- A die whose mirror holds a record back. -/
def mirroring (m : Nat) (now : Nat) (held : Bool) : State :=
  eth [(HST_STATUS.MIRROR, m), (PWR_RT_COUNT.COUNT, now), (HST_MIRROR_CTRL.TIMEOUT, 100)]
    { recs := [{ jrec 3 0 1 [] [] with mirrored := false }], mirrorAt := [(3, 100, 7)],
      heldAcks := if held then [(3, 100, copy 0 100 [] [])] else [] }

theorem witness_MirrorAndTakeover_mirror :
    ((mirroring 0 0 true).live ∧ (mirroring 0 0 true).hst.mirrorAt = [(3, 100, 7)] ∧
      (mirroring 0 0 true).hst.recs = [{ jrec 3 0 1 [] [] with mirrored := false }] ∧
      (mirroring 0 0 true).hst.heldAcks = [(3, 100, copy 0 100 [] [])] ∧ (mirroring 0 0 true).ethUp (copy 0 100 [] []).port = true) ∧
    (∀ x ∈ up.hst.mirrorAt, x.1 ≠ 3 ∨ x.2.1 ≠ 100) ∧
    ([106, 107].all fun now =>
      let s := mirroring 0 now false
      decide (s.live ∧ s.remote = [] ∧ s.get HST_STATUS.MIRROR ≠ 1 ∧ (s.now < 7 + s.get HST_MIRROR_CTRL.TIMEOUT ↔ now = 106))) = true ∧
    fget (BitVec.ofNat 64 (2 ^ 63 + 5)) 63 63 = 1 ∧ fget 5 63 63 = 0 ∧ (mirroring 2 0 false).get HST_STATUS.MIRROR = 2 := by decide +kernel

/-- A transfer of this device to or from its buddy that is in flight. -/
def toBuddy (write : Bool) (m : Nat) (chan : Option (Nat × Nat)) : RemoteOp :=
  { tag := 0, issuer := 0x43FE, write := write, die := 16, addr := 0x21000, bytes := 256, stamp := m, chan := chan }

theorem witness_MirrorAndTakeover_flight :
    ((mirroring 0 0 true).hst.mirrorAt.find? (fun x => x.1 == 3 && x.2.1 == 100) = some (3, 100, 7) ∧
      (∀ x ∈ (mirroring 0 0 true).hst.mirrorAt.erase (3, 100, 7), x.1 = 3 → x.2.1 ≠ 100) ∧
      (∃ x ∈ [(3, 100, 7), (3, 100, 8)].erase ((3 : Nat), (100 : Nat), (7 : Nat)), x.1 = 3 ∧ x.2.1 = 100)) ∧
    (∃ o ∈ ({ up with remote := [toBuddy true 7 (some (3, 100))] } : State).remote, o.issuer = 0x43FE ∧ o.chan = some (3, 100) ∧ o.stamp = 7) ∧
    (let s := mirroring 0 107 true
     ∃ x ∈ s.hst.mirrorAt, x.2.2 + s.get HST_MIRROR_CTRL.TIMEOUT ≤ s.now) ∧
    (let s : State := { mirroring 2 107 true with remote := [toBuddy true 7 none] }
     s.live ∧ s.get HST_STATUS.MIRROR = 2 ∧ (∃ o ∈ s.remote, o.issuer = 0x43FE ∧ o.write = true ∧ o.stamp + s.get HST_MIRROR_CTRL.TIMEOUT ≤ s.now)) ∧
    (let s := eth near { recs := [{ jrec 3 0 3 [] [] with mirrored := false }], mirrorAt := [(3, 100, 7)],
                         chans := [(3, { isOpen := true, nextDone := 101 })] }
     s.hst.recs.map (fun r => (r.ch, r.seq, r.st)) = [(3, 100, 3)] ∧ 100 < (s.chan 3).nextDone ∧ s.bctOn = true ∧ s.reaches 0 = true ∧
       s.reaches 1 = false ∧ s.get HST_STATUS.MIRROR = 1) ∧
    (∃ o ∈ ({ up with remote := [toBuddy false 7 none] } : State).remote, o.issuer = 0x43FE ∧ o.write = false) ∧
    (let s := eth ((HST_TAKEOVER.STATE, 1) :: near) {}
     s.get HST_TAKEOVER.STATE = 1 ∧ s.get HST_BUDDY.VALID = 1 ∧ s.reaches (s.get HST_BUDDY.COORD) = true ∧ s.remote = []) := by
  decide +kernel

theorem witness_MirrorAndTakeover_rest :
    ([99, 100].all fun now =>
      let s := eth [(PWR_RT_COUNT.COUNT, now), (HST_EVENT_CTRL.RESEND, 100)]
        { chans := [(3, { isOpen := true, evs := [⟨0, 1, [], [], 0⟩] })] }
      decide (s.live ∧ (s.chan 3).isOpen = true ∧ s.bctOn = true ∧ s.lowUp 1 = some 7 ∧
        ∀ e ∈ (s.chan 3).evs, (e.sent + s.get HST_EVENT_CTRL.RESEND ≤ s.now ↔ now = 100))) = true ∧
    (let s := eth [] {}
     s.get WRD_STATUS.IN_SERVICE = 1 ∧ (s.chan 0).isOpen = false ∧ s.bctOn = true) ∧
    (up.get WRD_STATUS.IN_SERVICE = 0 ∧ up.bctOn = false ∧ up.get HST_TAKEOVER.STATE ≠ 1) ∧
    ([1, 2].all fun x =>
      let s := eth [(HST_TAKEOVER.STATE, x)] {}
      decide (s.live ∧ s.get HST_TAKEOVER.STATE = x ∧ s.ckp.restore = none)) = true := by decide +kernel

theorem witness_ChannelCommands_ready :
    ∀ r ∈ [jrec 3 0 1 [] [], jrec 0 1 1 [] [], jrec 3 0x10 1 [] [], jrec 3 0x28 1 [] [], jrec 3 0xFF 1 [] []], Ready (ready r []) r.ch r := by
  unfold Ready; decide +kernel

/-- Arguments of CH_OPEN of channel 1,023 and of CH_CLOSE. -/
def openArgs : List Byte := [0xFF, 3, 3, 0, 0, 0x20, 0, 0, 9]

theorem witness_ChannelCommands_starts :
    (let r := jrec 3 0x11 1 [] []
     let s := ready r ((HST_STATUS.MIRROR, 0) :: near)
     s.headRec 3 = some r ∧ r.op = 0x11 ∧ s.mayStart 3 r = true ∧ (∀ x ∈ s.hst.recs, x.ch = 3 → x.st = 2 → x.begun = true) ∧
       s.get HST_STATUS.MIRROR = 0 ∧ s.get HST_BUDDY.VALID = 1 ∧ s.reaches (s.get HST_BUDDY.COORD) = true ∧ 0 < r.len) ∧
    (let r := jrec 3 0 2 [] []
     (ready r []).hst.recs = [r] ∧ r.ch = 3 ∧ r.st = 2 ∧ r.begun = false ∧ r.mirrored = true ∧ (ready r []).bctOn = true) ∧
    ((∀ x ∈ up.hst.recs, x.ch = 3 → x.st = 2 → x.begun = true) ∧ up.headRec 3 = none) := by decide +kernel

theorem witness_ChannelCommands_simple :
    ((ready (jrec 3 0 1 [] []) []).live ∧ (jrec 3 0 1 [] []).op = 0 ∧ (jrec 3 0 1 [] []).zeros [(0, 48)] = true ∧
      (jrec 3 0 1 (List.replicate 40 0 ++ [1]) []).arg 40 8 ≠ 0 ∧ (jrec 3 0xFF 1 [] []).op ∉ bctOps) ∧
    (let r := jrec 0 1 1 openArgs (List.replicate 32 0)
     r.op = 1 ∧ r.zeros [(3, 1), (6, 2), (12, 4), (0x18, 24)] = true ∧ r.arg 2 1 < 4 ∧ 0 < r.arg 0 2 ∧ r.arg 0 2 < 1024 ∧ r.body.length = 32 ∧
       ((ready r []).chan (r.arg 0 2)).isOpen = false) ∧
    (let r := jrec 0 2 1 [3] []
     let s : State := { ready r [] with hst := { (ready r []).hst with chans := (ready r []).hst.chans ++ [(3, { isOpen := true })] } }
     r.op = 2 ∧ r.zeros [(2, 46)] = true ∧ 0 < r.arg 0 2 ∧ r.arg 0 2 < 1024 ∧ r.body = [] ∧ (s.chan (r.arg 0 2)).isOpen = true) ∧
    (let r := jrec 3 0x11 1 [] []
     r.op = 0x11 ∧ r.zeros [(0, 48)] = true ∧ (ready r []).fab.aborting = false ∧ (ready r []).idle = true) ∧
    (let r := jrec 3 0x12 1 [0, 0, 1, 0, 0, 0, 0, 0, 1] []
     r.op = 0x12 ∧ r.zeros [(9, 39)] = true ∧ r.arg 8 1 < 2 ∧ r.body = []) := by decide +kernel

/-- A RUN of a drawer at a die with a resident image whose planes name no tile. -/
def runCmd (drawer : Nat) : State :=
  { ready (jrec 3 0x10 1 [BitVec.ofNat 8 drawer, 1, 0, 0, 5] []) [(FAB_DRAWER.VALID drawer, 1)] with
    resident := some { addr := 0, id := 1, length := 0, man := {} } }

theorem runCmd_members : ∀ d < 2, (runCmd d).members d = [] := by decide +kernel

theorem runCmd_check (d : Nat) (hd : d < 2) (r : Run) (h : r = (runCmd d).runOf (jrec 3 0x10 1 [BitVec.ofNat 8 d, 1, 0, 0, 5] [])) :
    (runCmd d).runCheck r = none := by
  have h1 : r.drawer = d ∧ r.kvMask = 0 ∧ r.tokens = 0 ∧ r.kind ≠ 3 := by subst h; revert d; decide +kernel
  have h2 : (runCmd d).owner d = some { addr := 0, id := 1, length := 0, man := {} } := by clear h h1; revert d; decide +kernel
  unfold State.runCheck
  rw [h1.1, h2]
  simp only [runCmd_members d hd, List.any_nil, h1.2.1, h1.2.2.1]
  simp [h1.2.2.2]

theorem witness_ChannelCommands_run :
    ([0, 1].all fun d =>
      let s := runCmd d
      let r := jrec 3 0x10 1 [BitVec.ofNat 8 d, 1, 0, 0, 5] []
      decide (s.live ∧ r.op = 0x10 ∧ r.zeros [(3, 1), (0x18, 24)] = true ∧ r.arg 0 1 = d ∧ r.arg 1 1 < 4 ∧ r.arg 0x14 4 % 64 = 0 ∧ r.body = [] ∧
        s.runWaits d = false ∧ s.runTurn 3 = true ∧ s.fab.phase = .idle ∧ s.shPending = false ∧ s.mapPending = false ∧ s.ckp.want = none ∧ s.active = 0 ∧
        s.fab.micros = [] ∧ s.replay = false ∧ s.fab.clears = [] ∧ s.fab.reenc = [])) = true ∧
    (ready (jrec 3 0x10 1 [] []) []).runCheck ((ready (jrec 3 0x10 1 [] []) []).runOf (jrec 3 0x10 1 [] [])) = some 0x20 ∧
    (runCmd 1).runCheck ((runCmd 1).runOf (jrec 3 0x10 1 [BitVec.ofNat 8 1, 1, 0, 0, 5] [])) = none :=
  ⟨by decide +kernel, by decide +kernel, runCmd_check 1 (by decide) _ rfl⟩

theorem witness_ChannelCommands_memory :
    (let r := jrec 3 0x18 1 [0, 0x10, 0, 0, 0, 0, 0, 0, 0, 0x20] []
     let s := ready r [(FAB_WRD_LIMIT.LIMIT, 0x3000)]
     s.live ∧ r.op = 0x18 ∧ r.zeros [(10, 38)] = true ∧ r.arg 0 8 < 2 ^ 52 ∧ 1 ≤ r.arg 8 2 ∧ r.arg 8 2 ≤ s.bodyMax ∧ r.prog = 0 ∧
       r.data = [] ∧ s.get WRD_BOARD.DIE = 0 ∧ r.arg 0 8 + r.arg 8 2 ≤ s.get FAB_WRD_LIMIT.LIMIT ∧ r.arg 0 8 + r.arg 8 2 ≤ shelfBase ∧
       s.bad = [] ∧ s.ckp.snap = none ∧ r.body = []) ∧
    (let r := jrec 3 0x19 1 [0, 0x10, 0, 0, 0, 0, 0, 0, 1] [7]
     r.op = 0x19 ∧ r.zeros [(10, 38)] = true ∧ r.body.length = r.arg 8 2) ∧
    ((jrec 3 0x18 1 [] []).arg 8 2 = 0 ∧ (ready (jrec 3 0x18 1 [] []) []).bodyMax < (jrec 3 0x18 1 (List.replicate 10 0xFF) []).arg 8 2) := by
  decide +kernel

theorem witness_ChannelCommands_push :
    (let r := jrec 3 0x20 1 [63, 1] (List.replicate 64 7)
     let s := ready r []
     s.live ∧ r.op = 0x20 ∧ r.arg 0 1 = 63 ∧ r.zeros [(2, 2), (16, 32)] = true ∧ r.arg 1 1 < 2 ∧ r.body.length % 64 = 0 ∧
       r.body.length ≤ s.bodyMax ∧ s.hst.pushes = [] ∧ s.openAllowed 63 (.bct 3) = false) ∧
    (let s := { ready (jrec 3 0x20 1 [63, 1] (List.replicate 64 7)) [(QUE_Q_CFG.EN 63, 1), (QUE_Q_CFG.UNITS 63, 2), (QUE_Q_CFG.SOURCE 63, 2)] with
       resident := some queImg }
     s.openAllowed 63 (.bct 3) = true ∧ s.openPk 63 = none ∧ bit (s.get QUE_FLUSH.REQ) 63 = false ∧ (s.queue 63).wait = [] ∧
       s.ringPks 63 = [] ∧ s.get (QUE_Q_CFG.UNITS 63) ≤ 128 ∧ s.qFits 63 (64 / 64) = true) ∧
    (let r := jrec 3 0x28 1 [2, 3, 2, 0, 0x21] []
     let s := ready r []
     r.op = 0x28 ∧ r.arg 0 1 < 4 ∧ r.arg 1 1 < 4 ∧ r.arg 2 1 < 16 ∧ r.arg 3 1 = 0 ∧ r.zeros [(6, 42)] = true ∧ r.body = [] ∧
       s.slot (chanSlot 3) = [] ∧ s.findCell (r.arg 2 1) (r.arg 4 2) = none ∧
       (s.setCell 4095 (flag 0)).findCell (r.arg 2 1) (r.arg 4 2) = some 4095) := by decide +kernel

theorem witness_ChannelCommands_waits :
    (let s := { runCmd 1 with load := some { staged := false, addr := 0 } }
     s.runWaits 1 = true) ∧
    (let s := { runCmd 1 with fab := { phase := .applying } }
     s.runWaits 1 = false ∧ s.runTurn 3 = true ∧ s.fab.phase ≠ .idle ∧ s.fab.phase ≠ .running) ∧
    (let s := { runCmd 0 with fab := { phase := .running, micros := [{ run := { kind := 1 } }] } }
     s.runWaits 0 = false ∧ s.fab.phase = .running ∧ s.fab.aborting = false ∧ s.active = 0 ∧ s.fab.micros ≠ []) ∧
    (let r := jrec 3 0x11 1 [] []
     let q := { jrec 4 0x10 2 [] [] with begun := true }
     let s : State := { ready r [] with
       hst := { (ready r []).hst with recs := [r, q] }
       fab := { next := some { chan := 4, seq := 100 } } }
     s.fab.micros = [] ∧ s.fab.next = some { chan := 4, seq := 100 } ∧ (s.rec? 4 100).map (·.st) = some 2 ∧ s.headRec 3 = some r) ∧
    (let s := ready (jrec 3 0x12 1 [1] []) [(FAB_WRD_LIMIT.LIMIT, 0x100000)]
     s.load = none ∧ s.check23 { staged := false, addr := (jrec 3 0x12 1 [1] []).arg 0 8, chan := some (3, 100) } = some (0x15, 0, 0, 0)) := by
  decide +kernel

theorem witness_ChannelCommands_places :
    (let r := jrec 3 0x18 1 [0, 0x10, 0, 0, 0, 0, 0, 0, 0, 1] []
     let s := ready r [(FAB_WRD_LIMIT.LIMIT, 0x3000)]
     s.boardPlace (r.arg 0 8) = some 16 ∧ r.arg 0 8 % 512 + r.arg 8 2 ≤ 512 ∧ r.arg 8 2 ≤ 256 ∧ r.arg 0 8 % 2 ^ 48 < regBase ∧
       ((s.begin r).fetch false none (r.arg 0 8 % 2 ^ 48) (r.arg 8 2)).isSome ∧
       ((s.begin r).store false (r.arg 0 8 % 2 ^ 48) (List.replicate 256 7)).isSome ∧ s.mustWait false (r.arg 0 8) (r.arg 8 2) = false ∧
       regMisfit (r.arg 0 8) (r.arg 8 2) = false) ∧
    ((up.fetch false none 0x3FFF_FFFF_FFF8 8).isNone ∧ (up.store false 0x3FFF_FFFF_FFF8 [0]).isNone ∧ 0x3FFF_FFFF_FFF8 < spBase) ∧
    (regMisfit regBase 4 = true ∧ regMisfit regBase 8 = false ∧ ((ready (jrec 3 0x18 1 [] []) []).regRead (.bct 3 100) 0).1 = accOk ∧
      (up.regRead (.bct 3 100) 1).1 ≠ accOk ∧ (up.regWrite (.bct 3 100) 1 0).1 ≠ accOk ∧ up.boardPlace regBase = some 16) ∧
    (let s := eth ((WRD_DIE_COORD.VALID 5, 1) :: (WRD_BOARD.DIE, 1) :: (WRD_BOARD.VALID, 1) :: near) {}
     s.boardPlace (5 * 2 ^ 48) = some 5 ∧ (s.dieCoord 5).map s.reaches = some true ∧ s.boardPlace (4 * 2 ^ 48) = none) ∧
    (let s := puts up [(WRD_DIE_COORD.VALID 5, 1), (WRD_DIE_COORD.X 5, 9)]
     (s.dieCoord 5).map s.reaches = some false) := by decide +kernel

/-- A channel that closes, with one command of it. -/
def closing (st : Nat) : State :=
  eth [] { recs := [{ jrec 0 2 2 [3] [] with begun := true }, jrec 3 0 st [] []],
           chans := [(0, { isOpen := true, nextSeq := 101, nextStart := 101, nextDone := 100 }), (3, { isOpen := true, closing := some (0, 100) })] }

theorem witness_ChannelCommands_close :
    (up.chan 3).closing = none ∧
    ([2, 3].all fun st =>
      let s := closing st
      decide (s.live ∧ 0 < 3 ∧ (s.chan 3).closing = some (0, 100) ∧ s.hst.recs.map (fun r => (r.ch, r.seq, r.st, r.sent, r.mirrored)) =
          [(0, 100, 2, false, true), (3, 100, st, false, true)] ∧ s.bctOn = true ∧ s.get HST_STATUS.MIRROR = 1 ∧
        (s.chan 0).nextDone = 100)) = true := by decide +kernel

/-! ## Faults and checkpoints -/

/-- An event of link 47. -/
def event47 (cls : Nat) : ErrEvent := { unit := 0x302F, cls := cls, reason := 0x0A00, detail := 0, ctx := 0 }

/-- A record held for link 47. -/
def rec47 (count : Nat) : Rec := { unit := 0x302F, cls := 1, reason := 0x0A01, count := count }

/-- A die with that record in its latch, and so many records in its queue. -/
def latched (count n : Nat) (regs : List (Fld × Nat)) (storm : Option Rec) : State :=
  { puts up regs with ras := { latches := [(0x302F, rec47 count)], queue := List.replicate n (rec47 1), storm := storm, stormCls := 2 } }

theorem witness_ErrorRecords_event :
    ([1, 3, 6].all fun c => decide (up.live ∧ (event47 c).unit < 0xC000 ∧ 1 ≤ (event47 c).cls ∧ (event47 c).cls ≤ 6 ∧ up.replay = false ∧
      SMap.find? up.ras.latches (event47 c).unit = none ∧ up.get RAS_STATUS.SUSPECT_COUNT < 64)) = true ∧
    ([0xFFFE, 0xFFFF].all fun n =>
      decide (SMap.find? (latched n 255 [] none).ras.latches (event47 1).unit = some (rec47 n) ∧
        255 ≤ (latched n 255 [] none).ras.queue.length ∧ (latched n 255 [] none).get RAS_STATUS.STORM = 0)) = true ∧
    64 ≤ (puts up [(RAS_STATUS.SUSPECT_COUNT, 64)]).get RAS_STATUS.SUSPECT_COUNT := by decide +kernel

theorem witness_ErrorRecords_queue :
    (let s := latched 1 254 [] none
     s.live ∧ s.ras.latches = (0x302F, rec47 1) :: [] ∧ s.ras.queue.length < 255 ∧ s.get RAS_STATUS.STORM = 0 ∧
       s.get MGT_ALERT_EN.MIN_CLASS ≤ 7) ∧
    (255 ≤ (latched 1 255 [] none).ras.queue.length ∧ up.ras.latches = []) ∧
    ([(0, none), (1, none), (1, some (rec47 1))].all fun x =>
      let s := latched 1 255 [(RAS_STATUS.STORM, x.1), (RAS_LOG_PTR.NEXT, 6291456)] x.2
      decide (s.live ∧ s.ras.queue = rec47 1 :: List.replicate 254 (rec47 1) ∧ s.get RAS_LOG_PTR.NEXT + 1 < 2 ^ 64 ∧
        s.get RAS_STATUS.STORM = x.1 ∧ (List.replicate 254 (rec47 1)).length < 255 ∧ s.ras.storm = x.2 ∧ s.ras.stormCls < 2 ^ 16)) = true ∧
    (let s := latched 1 0 [] (some (rec47 1))
     s.ras.queue = [] ∧ s.ras.storm = some (rec47 1) ∧ s.get RAS_STATUS.STORM = 0) ∧
    (up.ras.queue = [] ∧ up.ras.storm = none) ∧
    (let s : State := { up with ras := { log := [(5, rec47 1)] } }
     5 < 2 ^ 48 ∧ SMap.find? s.ras.log 5 = some (rec47 1) ∧ SMap.find? s.ras.log 6 = none) := by decide +kernel

/-- A device that waits for a verdict, with one suspect unit of RUN 3. -/
def judging (unit : Nat) : State :=
  puts (voting { waitRevote := true, flags := 31 } []) [(RAS_STATUS.SUSPECT_COUNT, 1), (RAS_SUSPECT.UNIT 0, unit), (RAS_SUSPECT.RUN 0, 3)]

theorem witness_VerdictsAndSelftests :
    (up.red.waitRevote = false ∧ up.live) ∧
    (let s := judging 0x41F
     s.live ∧ s.red.waitRevote = true ∧ s.ras.judged = false ∧ s.parent.isSome = true ∧ s.children = [] ∧ s.red.sentUp = false ∧
       s.red.flags < 32 ∧ (∀ k < s.get RAS_STATUS.SUSPECT_COUNT, s.get (RAS_SUSPECT.UNIT k) < 0x2000) ∧
       s.get (RAS_SUSPECT.RUN 0) ≤ 3 ∧ s.get (RAS_SUSPECT.UNIT 0) % 4096 < 1056) ∧
    (let s := judging 0x2000
     ∀ k < s.get RAS_STATUS.SUSPECT_COUNT, s.get (RAS_SUSPECT.RUN k) ≤ 3 → fenceable (s.get (RAS_SUSPECT.UNIT k)) = false) ∧
    (0 < up.get RAS_CTRL.SELFTEST_PERIOD ∧ (puts up [(RAS_CTRL.SELFTEST_PERIOD, 0)]).get RAS_CTRL.SELFTEST_PERIOD = 0) ∧
    (let s : State := { up with ras := { testWanted := true } }
     s.ras.testWanted = true ∧ s.on FAB_STATUS.IDLE = true ∧ s.ras.testRunning = false ∧ up.ras.testWanted = false) ∧
    (let s : State := { up with ras := { testRunning := true } }
     s.live ∧ s.ras.testRunning = true ∧ s.inServ 1055 = true ∧ s.inServ 1056 = false ∧ s.tileAt 1055 = none ∧ up.inServ 5 = true ∧ (up.tileAt 5).isSome ∧ s.red.runNext = 0 ∧ s.replay = false) ∧
    (let s : State := { up with ras := { testRunning := true }, red := { runNext := 1 } }
     s.red.runNext ≠ 0 ∧ s.red.voted = false ∧ s.get RAS_STATUS.SUSPECT_COUNT < 64) := by decide +kernel

/-- An image with its Chest at 0x100000 of the Wardrobe. -/
def chestImg (bytes : Nat) : Image := { addr := 0, id := 7, length := 0, man := { chestBase := 0x100000, chestBytes := bytes } }

/-- A die with one command of channel 3 ready and that image. -/
def chest (bytes : Nat) (op : Nat) (args body : List Byte) (regs : List (Fld × Nat)) : State :=
  { ready (jrec 3 op 1 args body) regs with resident := some (chestImg bytes) }

theorem witness_Snapshots_request :
    (let r := jrec 3 0x30 1 [2] []
     let s := chest 0x40000000 0x30 [2] [] []
     s.live ∧ r.op = 0x30 ∧ r.arg 0 1 ≤ 2 ∧ r.zeros [(1, 47)] = true ∧ r.body = [] ∧ s.man.chestBytes ≠ 0 ∧ s.ckp.snap = none ∧ s.ckp.want = none) ∧
    (let s : State := { chest 0x40000000 0x30 [2] [] [] with ckp := { want := some none } }
     s.man.chestBytes ≠ 0 ∧ s.ckp.want.isSome = true) ∧
    ((chest 0 0x30 [2] [] []).man.chestBytes = 0 ∧ 2 < (jrec 3 0x30 1 [3] []).arg 0 1) := by decide +kernel

/-- A cut is wanted. -/
def cutting (bytes : Nat) (regs : List (Fld × Nat)) : State :=
  { eth regs {} with resident := some (chestImg bytes), ckp := { want := some none } }

theorem witness_Snapshots_cut :
    (let s := cutting 0x40000000 []
     s.live ∧ s.fab.phase = .idle ∧ s.fab.micros = [] ∧ s.fab.next = none ∧ s.shPending = false ∧ s.mapPending = false ∧
       s.ckp.want = some none ∧ s.man.chestBytes ≠ 0 ∧ s.ckp.snap = none ∧ s.regionsOk = true ∧
       s.directory.foldl (fun a e => a + e.bytes) 0 + 0x11000 ≤ chestSlot s.man ∧ s.directory.length ≤ 2040 ∧ s.newest [0, 1] = none) ∧
    (chestSlot (cutting 0x10000 []).man < 0x11000 ∧ (cutting 0x40000000 [(CKP_REGIONS.ENTRIES, 65)]).regionsOk = false ∧
      (cutting 0 []).man.chestBytes = 0) ∧
    ((cutting 0x40000000 [(CKP_GEN.SEALED 1, 1), (CKP_GEN.SNAP_ID 1, 5)]).newest [0, 1] = some 1) := by decide +kernel

/-- A snapshot in slot 0 with two granules of 4,096 bytes, PENDING or COPIED. -/
def snapping (sn : Snap) (regs : List (Fld × Nat)) : State :=
  { eth regs {} with resident := some (chestImg 0x40000000), ckp := { snap := some sn } }

def two (a b : Nat) : Snap := { slot := 0, id := 5, granules := [(5, 0x1000, 4096, 0x10000, a), (5, 0x2000, 4096, 0x20000, b)] }

/-- Its first granule. -/
def first : Nat × Nat × Nat × Nat × Nat := (5, 0x1000, 4096, 0x10000, 0)

theorem witness_Snapshots_granules :
    (let s := snapping (two 0 0) []
     s.live ∧ s.ckp.snap = some (two 0 0) ∧ (two 0 0).granules[0]? = some first ∧ s.get WRD_STATUS.IN_SERVICE = 1 ∧ s.bad = [] ∧
       Mem.wf s.wrd = true ∧ 0x1000 ≤ 0x1FFF ∧ 0x1FFF + [(7 : Byte)].length ≤ 0x1000 + 4096 ∧ 0x1000 + 4096 ≤ s.wrdEnd ∧
       s.wrdEnd ≤ shelfBase ∧ s.slotAt 0 + 0x10000 + 4096 ≤ s.wrdEnd ∧ 0x1000 + 4096 ≤ s.slotAt 0 + 0x10000) ∧
    (∀ x ∈ (two 0 0).granules, x ≠ first → 0x1FFF + 1 ≤ x.2.1 ∨ x.2.1 + x.2.2.1 ≤ 0x1FFF) ∧
    (∃ x ∈ (two 0 0).granules, x ≠ first ∧ x.2.2.2.2 = 0) ∧ (two 0 0).granules.find? (fun x => x.2.2.2.2 == 0) = some first ∧
    (two 1 0).granules[0]? = some (5, 0x1000, 4096, 0x10000, 1) ∧ up.ckp.snap = none :=
  ⟨by decide +kernel, by decide +kernel, by decide +kernel, by decide +kernel, by decide +kernel⟩

theorem witness_Snapshots_seal :
    ([0, 1].all fun b =>
      let s := snapping (two 1 1) [(HST_BUDDY.VALID, b)]
      decide (s.live ∧ s.ckp.snap = some (two 1 1) ∧ (two 1 1).sealedOwn = false ∧ (∀ x ∈ (two 1 1).granules, x.2.2.2.2 ≠ 0) ∧
        s.get WRD_STATUS.IN_SERVICE = 1 ∧ s.bad = [] ∧ s.wrdEnd ≤ shelfBase ∧ s.sealAt 0 + 4096 ≤ s.wrdEnd ∧ (two 1 1).id < 2 ^ 64 ∧
        (two 1 1).cmd = none ∧ s.get HST_BUDDY.VALID = b ∧ (two 1 1).drain = true ∧ s.ckp.again = false)) = true ∧
    (let sn : Snap := { two 2 2 with headSent := true, granules := [(5, 0x10000, 65536, 0x10000, 1)] }
     (two 1 1).headSent = false ∧ sn.headSent = true ∧
       sn.granules.find? (fun x => x.2.2.2.2 == 1) = some (5, 0x10000, 65536, 0x10000, 1)) ∧
    (let sn : Snap := { two 2 2 with headSent := true, sealedOwn := true }
     sn.granules.find? (fun x => x.2.2.2.2 == 1) = none ∧ (snapping sn []).remote = [] ∧ sn.sealedOwn = true) := by decide +kernel

/-- The numbers of a device-state part whose image has its Chest at 0x100000, and those of its directory's header. -/
def partNums (bytes : Nat) : List Nat := [0, 7, 0] ++ ({ chestBase := 0x100000, chestBytes := bytes } : Manifest).nums
def headNums : List Nat :=
  [5, 7, 3, 0, 0, (up.word LNK_TORUS.reg).toNat, (up.word RED_GROUP.reg).toNat, (up.word RED_JOB.reg).toNat, up.get GLB_ID.PART,
   up.get FAB_WRD_LIMIT.LIMIT, 0, 0]

/-- A RESTORE with a mode, a slot, STEP 3, and T 9. -/
def restoreArgs (mode slot : Nat) : List Byte := [BitVec.ofNat 8 mode, BitVec.ofNat 8 slot, 0, 0, 3, 0, 0, 0, 1, 0, 0, 0, 9]

/-- A die with a sealed generation in slot 1. -/
def generation (slot : Nat) : State :=
  { chest 0x80000 0x31 (restoreArgs 0 slot) [] [(FAB_STATUS.IDLE, 1), (CKP_GEN.SEALED 1, 1), (CKP_GEN.SNAP_ID 1, 5)] with
    wrd := Mem.wrN (Mem.wrN [] 0x120000 (numBytes headNums)) 0x130000 (numBytes ((partNums 0x80000).length :: partNums 0x80000)) }

theorem witness_Restores_codes :
    (let r := jrec 3 0x31 1 (restoreArgs 0 0) []
     (ready r []).live ∧ r.op = 0x31 ∧ r.restoreBad = none ∧ r.arg 0 1 = 0 ∧ r.arg 1 1 < 2) ∧
    Ready (ready (jrec 3 0x31 1 (restoreArgs 0 0) []) []) 3 (jrec 3 0x31 1 (restoreArgs 0 0) []) ∧
    (jrec 3 0x31 1 (restoreArgs 2 0) []).restoreBad = none ∧
    (jrec 3 0x31 1 (restoreArgs 3 0) []).restoreBad = some 0x36 ∧ (jrec 3 0x31 1 (restoreArgs 1 0) [0]).restoreBad = some 0x37 ∧
    ((puts up [(FAB_STATUS.IDLE, 0)]).get FAB_STATUS.IDLE = 0 ∧ up.get FAB_STATUS.IDLE = 1 ∧ up.get SBD_STATUS.STATE ≠ 5) ∧
    (let s := chest 0x80000 0x31 (restoreArgs 0 0) [] []
     s.man.chestBytes ≠ 0 ∧ s.get (CKP_GEN.SEALED 0) = 0 ∧ s.newest [0, 1] = none ∧ s.ckp.snap = none ∧ s.ckp.want = none ∧ s.ckp.restore = none ∧
       (chest 0 0x31 [] [] []).man.chestBytes = 0 ∧ (chest 0x80000 0x31 [] [] [(HST_BUDDY.VALID, 1)]).get HST_BUDDY.VALID = 1 ∧
       s.get HST_BUDDY.VALID = 0) :=
  ⟨by decide +kernel, by unfold Ready; decide +kernel, by decide +kernel, by decide +kernel, by decide +kernel,
    by decide +kernel, by decide +kernel⟩

theorem witness_Restores_full :
    (let s := generation 1
     s.live ∧ s.get FAB_STATUS.IDLE = 1 ∧ s.get SBD_STATUS.STATE ≠ 5 ∧ s.man.chestBytes ≠ 0 ∧ (jrec 3 0x31 1 (restoreArgs 0 1) []).arg 1 1 = 1 ∧
       s.get (CKP_GEN.SEALED 1) = 1 ∧ s.shapeOk (s.header (s.slotAt 1)) (manifestOf ((s.slotNums (s.slotAt 1)).drop 3)).1 = true) ∧
    (let s := generation 0xFF
     (jrec 3 0x31 1 (restoreArgs 0 0xFF) []).arg 1 1 = 0xFF ∧ s.newest [0, 1] = some 1) ∧
    (let s := puts (generation 1) [(LNK_COORD.X, 1)]
     s.get (CKP_GEN.SEALED 1) = 1 ∧ s.shapeOk (s.header (s.slotAt 1)) (manifestOf ((s.slotNums (s.slotAt 1)).drop 3)).1 = false) := by decide +kernel

/-- A slot of 0x20000 bytes as fetched from a buddy, in three pieces. -/
def slotA : List Byte := numBytes headNums ++ List.replicate 65440 0
def slotB : List Byte := numBytes ((partNums 0x80000).length :: partNums 0x80000) ++ List.replicate 61232 0
def slotC : List Byte := leBytes 8 5 ++ List.replicate 4088 0

theorem slot_lengths : slotA.length = 65536 ∧ slotB.length = 61440 ∧ slotC.length = 4096 := by
  have h : (numBytes headNums).length = 96 ∧ (numBytes ((partNums 0x80000).length :: partNums 0x80000)).length = 208 := by decide +kernel
  refine ⟨?_, ?_, ?_⟩
  · unfold slotA; rw [List.length_append, List.length_replicate, h.1]
  · unfold slotB; rw [List.length_append, List.length_replicate, h.2]
  · decide +kernel

/-- A fetch for a command of channel 3 is under way. -/
def fetching : State := { eth [] {} with resident := some (chestImg 0x80000), ckp := { restore := some (some (3, 100, 3, 1)) } }

/-- Writing a list in two parts. -/
theorem wrN_append (l k : List Byte) : ∀ (m : Mem) (a : Nat), Mem.wrN m a (l ++ k) = Mem.wrN (Mem.wrN m a l) (a + l.length) k := by
  induction l with
  | nil => intro m a; rfl
  | cons b t ih => intro m a; simp only [List.cons_append, Mem.wrN, ih, List.length_cons]; congr 1; omega

/-- Zeros past the last listed byte change nothing. -/
theorem wrN_zeros (n : Nat) : ∀ (m : Mem) (a : Nat), (∀ e ∈ m, e.1 < a) → Mem.wrN m a (List.replicate n 0) = m := by
  induction n with
  | zero => intro m a _; rfl
  | succ n ih =>
    intro m a h
    have e : Mem.wr m a 0 = m := by
      simp only [Mem.wr, SMap.set, ↓reduceIte]
      clear ih
      induction m with
      | nil => rfl
      | cons x t ih =>
        have := h x (by simp)
        simp only [SMap.erase]
        rw [if_neg (by omega), ih (fun y hy => h y (by simp [hy]))]
    simp only [List.replicate_succ, Mem.wrN, e]
    exact ih m (a + 1) (fun x hx => Nat.lt_succ_of_lt (h x hx))

/-- The memory that holds the slot at its place. -/
def slotMem : Mem :=
  Mem.wrN (Mem.wrN (Mem.wrN [] 0x100000 (numBytes headNums)) 0x110000 (numBytes ((partNums 0x80000).length :: partNums 0x80000))) 0x11F000
    (leBytes 8 5)

theorem slot_written : Mem.wrN [] 0x100000 (slotA ++ slotB ++ slotC) = slotMem := by
  obtain ⟨ha, hb, _⟩ := slot_lengths
  rw [wrN_append, wrN_append, List.length_append, ha, hb]
  have h1 : Mem.wrN [] 0x100000 slotA = Mem.wrN [] 0x100000 (numBytes headNums) := by
    unfold slotA; rw [wrN_append, wrN_zeros]; decide +kernel
  rw [h1]
  have h2 : Mem.wrN (Mem.wrN [] 0x100000 (numBytes headNums)) (0x100000 + 65536) slotB =
      Mem.wrN (Mem.wrN [] 0x100000 (numBytes headNums)) 0x110000 (numBytes ((partNums 0x80000).length :: partNums 0x80000)) := by
    unfold slotB; rw [wrN_append, wrN_zeros]; decide +kernel
  rw [h2]
  unfold slotC slotMem
  rw [wrN_append, wrN_zeros]
  decide +kernel

/-- A write to the Wardrobe that meets no bad word and no snapshot. -/
theorem wrPhys_plain (s : State) (a b n : Nat) (l : List Byte) (h : s.bad = []) (hc : s.ckp.snap = none) :
    (s.cow b n).wrPhys .wrd a l = { s with wrd := Mem.wrN s.wrd a l } := by
  simp [State.cow, hc, State.wrPhys, State.badWords, h, State.mem, State.setMem]

/-- The die once the slot stands in its Wardrobe. -/
def fetched : State := { fetching.fetchOver with wrd := slotMem }

theorem witness_Restores_spare :
    up.ckp.restore = none ∧ ([] : List Byte).length < slotData + 4096 ∧
    (let slot := slotA ++ slotB ++ slotC
     fetching.live ∧ fetching.ckp.restore = some (some (3, 100, 3, 1)) ∧ fetching.resident = some (chestImg 0x80000) ∧
       slotData + 4096 ≤ slot.length ∧ chestSlot (chestImg 0x80000).man = slot.length ∧
       leAt slot (slot.length - 4096) 8 = (bytesNum 12 slot).getD 0 0 ∧ leAt slot (slot.length - 4096) 8 ≠ 0 ∧
       fetching.shapeOk (bytesNum 12 slot) (manifestOf ((bytesNum (leAt slot slotData 8) (slot.drop (slotData + 8))).drop 3)).1 = true ∧
       fetching.fetchOver.wrA true (fetching.slotAt 0) slot = some fetched ∧
       (let u := fetched.genSync 0
        u.get (CKP_GEN.SEALED 0) = 1 ∧ u.shapeOk (u.header (u.slotAt 0)) (manifestOf ((u.slotNums (u.slotAt 0)).drop 3)).1 = true)) := by
  obtain ⟨ha, hb, hc⟩ := slot_lengths
  have hl : (slotA ++ slotB ++ slotC).length = 131072 := by simp [ha, hb, hc]
  have h1 : leAt (slotA ++ slotB ++ slotC) 126976 8 = 5 := by
    unfold leAt
    rw [List.drop_append_of_le_length (by simp [ha, hb]), List.drop_of_length_le (by simp [ha, hb])]
    decide +kernel
  have h2 : (slotA ++ slotB ++ slotC).drop slotData = slotB ++ slotC := by
    rw [List.append_assoc, List.drop_append_of_le_length (by simp [ha, slotData]), List.drop_of_length_le (by simp [ha, slotData])]
    rfl
  have h3 : leAt (slotA ++ slotB ++ slotC) slotData 8 = 25 := by
    unfold leAt
    rw [h2]
    decide +kernel
  have h4 : (slotA ++ slotB ++ slotC).drop (slotData + 8) = (slotB ++ slotC).drop 8 := by rw [← h2, List.drop_drop]
  have h5 : fetching.fetchOver.wrA true (fetching.slotAt 0) (slotA ++ slotB ++ slotC) = some fetched := by
    have hs : fetching.fetchOver.segs true (fetching.slotAt 0) 131072 = some [⟨.wrd, 0x100000, 131072⟩] := by decide +kernel
    unfold State.wrA
    rw [hl, hs]
    simp only [Option.map_some, State.wrSegs]
    rw [List.take_of_length_le (Nat.le_of_eq hl)]
    have hw : fetching.fetchOver.bad = [] ∧ fetching.fetchOver.ckp.snap = none ∧ fetching.fetchOver.wrd = [] := by decide +kernel
    rw [wrPhys_plain _ _ _ _ _ hw.1 hw.2.1, hw.2.2, slot_written]
    rfl
  refine ⟨rfl, by decide, ?_⟩
  simp only [hl, h3, h4, Nat.reduceSub, h1]
  exact ⟨by decide +kernel, rfl, rfl, by decide, by decide +kernel, by decide +kernel, by decide, by decide +kernel, h5, by decide +kernel,
    by decide +kernel⟩

theorem witness_Restores_rejoin :
    ([(9, 0, 0), (0, 9, 0), (0, 9, 1), (0, 0, 0)].all fun x =>
      let r := jrec 3 0x31 1 (restoreArgs 2 0) []
      let s := ready r [(SBD_BANK_T.T 0, x.1), (SBD_BANK_T.T 1, x.2.1), (SBD_BANK.ROLLED, x.2.2)]
      decide (s.live ∧ r.restoreBad = none ∧ r.arg 0 1 = 2 ∧ s.get FAB_STATUS.IDLE = 1 ∧ s.get SBD_STATUS.STATE ≠ 5 ∧ s.hst.pushes = [] ∧
        s.slots = [] ∧ s.get (SBD_BANK_T.T (s.get SBD_BANK.ACTIVE)) = x.1 ∧ r.arg 12 4 = 9 ∧
        s.get (SBD_BANK_T.T (1 - s.get SBD_BANK.ACTIVE)) = x.2.1 ∧ s.get SBD_BANK.ROLLED = x.2.2)) = true := by decide +kernel

theorem witness_Errors_rest :
    (let s : State := { latched 1 254 [] none with ras := { (latched 1 254 [] none).ras with latches := [(0x302E, rec47 1), (0x302F, rec47 1)] } }
     s.live ∧ s.ras.queue.length = 254 ∧ (∃ x ∈ [((0x302F : Nat), rec47 1)], x.1 ≠ 0x302E) ∧ s.get RAS_STATUS.STORM = 0) ∧
    (let s := latched 1 0 [(RAS_STATUS.STORM, 1)] (some (rec47 1))
     s.ras.queue = [] ∧ s.ras.storm = some (rec47 1) ∧ s.get RAS_STATUS.STORM = 1) ∧
    ({ up with ras := { judged := true } } : State).ras.judged = true ∧
    ((puts up [(FAB_STATUS.IDLE, 0)]).on FAB_STATUS.IDLE = false) := by decide +kernel

/-- An operation of a drain or a fetch that is in flight; `last` marks the seal. -/
def chestOp (write : Bool) (last : Nat) : RemoteOp :=
  { tag := 7, issuer := 0x43FD, write := write, die := 16, addr := 0, bytes := 4096, stamp := 0, tile := last }

theorem witness_Snapshots_drain :
    (let s : State := { eth near {} with resident := some (chestImg 0x40000000), ckp := { again := true } }
     s.live ∧ s.ckp.again = true ∧ s.get HST_BUDDY.VALID = 1 ∧ s.ckp.snap = none ∧ s.newest [0, 1] = none ∧
       s.reaches (s.get HST_BUDDY.COORD) = true ∧ (puts s [(CKP_GEN.SEALED 1, 1)]).newest [0, 1] = some 1) ∧
    (let s : State := { snapping (two 1 1) near with ckp := { snap := some (two 1 1), again := true } }
     s.live ∧ s.ckp.again = true ∧ s.ckp.snap = some (two 1 1) ∧ s.reaches (s.get HST_BUDDY.COORD) = true) ∧
    (let s := snapping (two 1 1) ((HST_BUDDY.COORD, 1) :: near)
     s.live ∧ s.ckp.again = false ∧ (two 1 1).drain = true ∧ s.get HST_BUDDY.VALID = 1 ∧ s.reaches (s.get HST_BUDDY.COORD) = false) ∧
    ([(true, 0), (true, 1)].all fun x =>
      let s : State := { snapping { two 2 2 with sealedOwn := true } ((WRD_REMOTE_TIMEOUT.TICKS, 0) :: near) with remote := [chestOp x.1 x.2] }
      decide (s.live ∧ s.remote.find? (fun o => o.tag == 7 % 65536) = some (chestOp x.1 x.2) ∧ (chestOp x.1 x.2).issuer = 0x43FD ∧
        s.ckp.snap = some { two 2 2 with sealedOwn := true } ∧ (chestOp x.1 x.2).stamp + s.get WRD_REMOTE_TIMEOUT.TICKS ≤ s.now)) = true ∧
    (∃ o ∈ [chestOp true 1], o.issuer = 0x43FD ∧ o.tile = 1) := by decide +kernel

theorem witness_Restores_rest :
    (∀ row ∈ [Instr.restoreFull 3, .restoreSpare 3, .restoreRejoin 3], (jrec 3 0 1 [] []).op ≠ 0x31 ∧
      row ∈ [Instr.restoreFull 3, .restoreSpare 3, .restoreRejoin 3]) ∧
    (let s := chest 0x80000 0x31 (restoreArgs 1 0) [] near
     s.live ∧ (jrec 3 0x31 1 (restoreArgs 1 0) []).arg 0 1 = 1 ∧ (jrec 3 0x31 1 (restoreArgs 1 0) []).restoreBad = none ∧
       s.get HST_BUDDY.VALID = 1 ∧ s.reaches (s.get HST_BUDDY.COORD) = true ∧
       (puts s [(HST_BUDDY.COORD, 1)]).reaches ((puts s [(HST_BUDDY.COORD, 1)]).get HST_BUDDY.COORD) = false) ∧
    (let s := { ready (jrec 3 0x31 1 (restoreArgs 0 0) []) [] with ckp := { want := some none } }
     s.ckp.want.isSome = true) ∧
    (let s : State := { puts fetching [(WRD_REMOTE_TIMEOUT.TICKS, 0)] with remote := [chestOp false 0] }
     s.live ∧ s.remote.find? (fun o => o.tag == 7 % 65536) = some (chestOp false 0) ∧ (chestOp false 0).write = false ∧
       (∀ o ∈ s.remote.erase (chestOp false 0), o.issuer ≠ 0x43FD ∨ o.write = true) ∧ s.ckp.restore = some (some (3, 100, 3, 1)) ∧
       (chestOp false 0).stamp + s.get WRD_REMOTE_TIMEOUT.TICKS ≤ s.now) ∧
    (∃ o ∈ [chestOp false 0, chestOp false 1].erase (chestOp false 0), o.issuer = 0x43FD ∧ o.write = false) := by decide +kernel

/-- Two events of one latch: the record counts both and takes the higher class (R403, R404). -/
theorem test_latchJoins :
    (SMap.find? (after (.errorEvent (event47 6)) (latched 1 0 [] none)).ras.latches 0x302F).map (fun r => (r.cls, r.count, r.mixed)) =
      some (6, 2, true) := by decide +kernel

/-! ## Boot, security and management -/

theorem witness_RegisterWrites_refused :
    (up.live ∧ 4 % 8 ≠ 0 ∧ ({ up with sec := { warming := true } } : State).quiescing = true ∧ up.get GLB_BOOT.STAGE < 2 ∧
      earlyBlock 0x30000 = false ∧ GLB_RESET.reg % 8 = 0 ∧ Issuer.desk 0 ≠ .i3c ∧ 0x110000 ≤ 0xFFFFF8 ∧
      up.phys 1023 = some 1054 ∧ 0x1000000 ≤ 0x1000000 + 0x3FF000 ∧ 0x1000000 + 0x3FF000 < 0x1400000) ∧
    (puts up [(TMAP_ROW_STATE.WIDTH 0, 0)]).live := by decide +kernel

/-- A write of SBD_CTRL by a Desk core meets every condition of a plain register write. -/
theorem witness_RegisterWrites_fields :
    (up.live ∧ SBD_CTRL.reg % 8 = 0 ∧ SBD_CTRL.reg < 0x110000 ∧ up.regWhole (.desk 0) SBD_CTRL.reg 1 = none ∧
      SBD_CTRL.reg ∉ [GLB_RESET.reg, PWR_RT_CTRL.reg, WRD_CTRL.reg, PWR_BUDGET.reg] ∧
      regIdx (LNK_BUNDLE_CFG.reg 0) 8 6 SBD_CTRL.reg = none) ∧
    ((regSpec SBD_CTRL.reg).any fun r =>
      decide (r.fields.Pairwise (fun f g => f.hi < g.lo ∨ g.hi < f.lo) ∧ (∀ f ∈ r.fields, f.lo ≤ f.hi ∧ f.hi < 64) ∧
        ∀ f ∈ r.fields, f.acc = .da → regBlock SBD_CTRL.reg ≠ 13)) = true ∧
    ∀ u : State, u.regActs (.desk 0) SBD_CTRL.reg 1 = u := ⟨by decide +kernel, by decide +kernel, fun _ => rfl⟩

theorem witness_RegisterWrites_rows :
    ((puts up [(PWR_RT_STATUS.VALID, 1)]).get PWR_RT_STATUS.VALID = 1 ∧ fget 0x10000 31 16 ≠ up.get PWR_RT_CTRL.DOMAIN ∧
      up.get PWR_RT_STATUS.VALID = 0 ∧ fget (BitVec.ofNat 64 (up.get PWR_RT_CTRL.DOMAIN * 2 ^ 16)) 31 16 = up.get PWR_RT_CTRL.DOMAIN) ∧
    ((puts up [(WRD_STATUS.IN_SERVICE, 1)]).get WRD_STATUS.IN_SERVICE = 1 ∧ fget 3 2 0 < 5 ∧ fget 3 2 0 ≠ up.get WRD_CTRL.RATE ∧ 5 ≤ fget 7 2 0 ∧
      up.get WRD_STATUS.IN_SERVICE = 0) ∧
    ((puts up [(LNK_PKG.QUAD, 1), (LNK_PKG.PX, 1)]).get LNK_PKG.QUAD = 1 ∧ (puts up [(LNK_PKG.QUAD, 1), (LNK_PKG.PX, 1)]).get LNK_PKG.PX = 1) ∧
    ((regSpec PWR_RT_CTRL.reg).isSome ∧ GLB_RESET.reg % 8 = 0 ∧ PWR_BUDGET.reg % 8 = 0 ∧ PWR_LEND_CTRL.reg % 8 = 0 ∧ NUM_STATUS_GEN.reg % 8 = 0) := by decide +kernel

/-- A die whose Desk SRAM is pushed at a stage. -/
def boot (stage : Nat) (sec : Sec) : State := { puts up [(GLB_BOOT.STAGE, stage)] with sec := sec }

theorem witness_StartUp :
    (State.reset.coldLow = true ∧ up.live) ∧
    ((boot 0 { warming := true }).quiescing = true ∧ (boot 0 {}).quiescing = false ∧ (boot 0 {}).sec.op = none ∧
      (boot 0 { op := some (false, 0, 1, 0, []) }).sec.op.isSome = true ∧ 0x1FFFFF + [(7 : Byte)].length ≤ 0x200000 ∧
      (boot 0 {}).get GLB_BOOT.STAGE = 0 ∧ (boot 1 {}).get GLB_BOOT.STAGE = 1 ∧ 1 ≤ [(7 : Byte)].length ∧
      4096 < (List.replicate 4097 (0 : Byte)).length) ∧
    ((boot 1 {}).fw 0 4 ≠ 0x49574644 ∧ (boot 1 {}).sec.pushed = [] ∧ (boot 1 {}).fwCheck ≠ 0) := by decide +kernel

/-- Firmware of 256 bytes in Desk SRAM, pushed whole. -/
def firmware : State :=
  { boot 1 { pushed := [(0, 256)] } with
    sram := fill [] 0 [(0, 4, 0x49574644), (4, 2, 1), (6, 2, 64), (8, 4, 256), (0x1C, 4, 64), (192, 1, 0xFF)] }

/-- Firmware starts once its signature verifies by the root key: both are open in the model. -/
theorem witness_StartUp_verified
    (hv : Config.sm2Verify (Mem.rdN firmware.sram 64 64) (sm3 (Mem.rdN firmware.sram 0 64)) (Mem.rdN firmware.sram 128 64) = true)
    (hr : sm3 (Mem.rdN firmware.sram 64 64) = Config.rootHash.toList) :
    firmware.live ∧ firmware.get GLB_BOOT.STAGE = 1 ∧ firmware.sec.warming = false ∧ firmware.fwCheck = 0 := by
  have h1 : firmware.fw 8 4 = 256 ∧ firmware.fw 192 1 = 0xFF ∧ firmware.keyEntry 0 = 0xFF ∧ ¬ firmware.fw 0xC 4 < firmware.get SEC_STATE.MIN_VERSION := by
    decide +kernel
  have h2 : (firmware.fw 0 4 == 0x49574644 && firmware.fw 4 2 == 1 && firmware.fw 6 2 == 64 && decide (256 ≤ 256) && decide (256 ≤ 1572864) &&
    decide (firmware.fw 0xC 4 ≤ 64) && firmware.fw 0x1C 4 == 256 - 192 && (Mem.rdN firmware.sram 0x20 32).all (fun b => b == 0) &&
    covers firmware.sec.pushed 256 (firmware.sec.pushed.length + 1) 0) = true := by decide +kernel
  refine ⟨by decide +kernel, by decide +kernel, rfl, ?_⟩
  unfold State.fwCheck
  simp only [h1.1, h2, Nat.reduceSub, h1.2.1, h1.2.2.1, hv, hr, if_neg h1.2.2.2, Bool.not_true, Bool.false_eq_true, if_false, if_true,
    ne_eq, not_true_eq_false, or_self]

/-- A warm reset in progress. -/
def warm (stage : Nat) (quiesced : Bool) : State :=
  { boot stage { warming := true, quiesced := quiesced } with
    hst := { recs := [{ jrec 3 0x10 2 [] [] with begun := true }], chans := [(3, { isOpen := true, nextSeq := 101, nextStart := 101, nextDone := 100 })] } }

theorem witness_WarmResets :
    (up.live ∧ 999 < 1000 ∧ Issuer.desk 0 ≠ .i3c ∧ up.quiescing = false ∧ up.sec.warming = false) ∧
    ((warm 3 false).live ∧ (warm 3 false).sec.warming = true ∧ (warm 3 false).quiescing = true) ∧
    ((warm 2 true).sec.warming = true ∧ (warm 2 true).sec.quiesced = true ∧ (warm 2 true).get GLB_BOOT.STAGE = 2 ∧
      (warm 2 true).sec.updLost = 0 ∧ (warm 2 true).hst.recs.map (fun r => (r.st, r.ch, r.seq)) = [(2, 3, 100)] ∧
      ((warm 2 true).chan 3).retire ≤ 100) := by decide +kernel

theorem witness_WarmResets_ports :
    (let s := puts (warm 2 true) [(WRD_PORT_STATUS.STATE 15, 6), (LNK_PORT_STATUS.STATE 47, 3), (PWR_FN_CTRL.STATUS 143, 2), (WRD_STATUS.IN_SERVICE, 1)]
     s.live ∧ 15 ∈ s.wrdPorts ∧ s.get (WRD_PORT_STATUS.STATE 15) = 6 ∧ (s.wport 15).fails < 2 ∧ s.sec.updLost ≠ 1 ∧
       (∀ p ∈ s.wrdPorts, s.get (WRD_PORT_STATUS.STATE p) ≠ 2) ∧ s.get (LNK_PORT_STATUS.STATE 47) = 3 ∧
       s.get (PWR_FN_CTRL.STATUS (96 + 47)) = 2 ∧ (s.link 47).out = false ∧
       ∀ x ∈ s.hst.recs, ∀ y ∈ s.hst.recs, x.ch = y.ch → x.seq = y.seq → x = y) ∧
    (let s := puts up [(WRD_PORT_STATUS.STATE 15, 4), (LNK_PORT_STATUS.STATE 47, 2)]
     s.sec.warming = false ∧ 15 ∈ s.wrdPorts ∧ s.get (WRD_PORT_STATUS.STATE 15) = 4 ∧ s.get (LNK_PORT_STATUS.STATE 47) = 2) ∧
    ((warm 0 true).get GLB_BOOT.STAGE ≠ 2 ∧ ({ (warm 2 true) with sec := { warming := true, quiesced := true, updLost := 2 } } : State).sec.updLost = 2) := by
  decide +kernel

/-- The firmware in Desk SRAM is that of the last start: its digest is held. -/
theorem witness_WarmResets_digest (s : State) (_hq : s.quiescing = true) (t : State)
    (ht : t = { s with sec := { s.sec with fwDigest := s.fwDigest } }) : t.sec.fwDigest ≠ [] ∧ t.fwDigest = t.sec.fwDigest := by
  have h : s.fwDigest.length = 32 := Vector.length_toList
  subst ht
  exact ⟨fun e => by simp [show s.fwDigest = [] from e] at h, rfl⟩

theorem witness_AuthorizationAndQuotes_message :
    (up.live ∧ leAt (up.window SEC_AUTH_MSG.reg 32) 0 4 ≠ 0x54554153 ∧ up.authCheck (up.window SEC_AUTH_MSG.reg 32) false ≠ 0) ∧
    ([99, 100].all fun now =>
      let m : List Byte := List.replicate 32 0 ++ leBytes 8 99 ++ List.replicate 216 0
      let s : State := { puts up [(PWR_RT_COUNT.COUNT, now)] with sec := { pendMsg := some m } }
      decide (s.live ∧ s.sec.pendMsg = some m ∧ (s.now ≤ leAt m 0x20 8 ↔ now = 99) ∧ s.pendNow.isSome = (now == 99))) = true ∧
    (let r := jrec 3 0x39 1 [] (List.replicate 256 0)
     (ready r []).live ∧ r.op = 0x39 ∧ r.zeros [(8, 40)] = true ∧ r.body.length = 256 ∧ (ready r []).authCheck r.body false ≠ 0 ∧
       (jrec 3 0x39 1 (List.replicate 8 0 ++ [1]) []).zeros [(8, 40)] = false) := by decide +kernel

/-- RAISE_VERSION to `v` for role `f`, with SEQ 1 and NOT_AFTER 100. -/
def raise (f v : Nat) : List Byte :=
  leBytes 4 0x54554153 ++ leBytes 2 1 ++ leBytes 1 f ++ leBytes 9 0 ++ leBytes 8 1 ++ leBytes 8 0 ++ leBytes 8 100 ++ leBytes 40 0 ++
    leBytes 16 4 ++ leBytes 32 v ++ leBytes 128 0

/-- A die with both keys in force and firmware of version 1, at tick 100, with a message pending. -/
def signed (p : Option (List Byte)) : State :=
  { puts up [(PWR_RT_STATUS.VALID, 1), (PWR_RT_CTRL.DOMAIN, 0), (PWR_RT_COUNT.COUNT, 100), (SEC_KEY_STATE.PROGRAMMED, 0x11), (GLB_BOOT.FW_VERSION, 1)] with
    sec := { pendMsg := p } }

/-- The second half of a pair passes every check once its key has the hash in force and its signature verifies: both are
open in the model. -/
theorem witness_AuthorizationAndQuotes_pair (p : Option (List Byte)) (f v : Nat) (hf : f = 1 ∨ f = 2) (hv : v < 3)
    (hk : sm3 (mBytes (raise f v) 0x80 64) = List.replicate 32 0)
    (hs : Config.sm2Verify (mBytes (raise f v) 0x80 64) (sm3 (mBytes (raise f v) 0 0x80)) (mBytes (raise f v) 0xC0 64) = true) :
    (signed p).authCheck (raise f v) false = 0 := by
  have h : ∀ f v, f = 1 ∨ f = 2 → v < 3 → authForm (raise f v) = true ∧ mAt (raise f v) 8 8 = (signed none).get GLB_SERIAL.SERIAL ∧
      mBytes (raise f v) 0x30 32 = (signed none).window SEC_BOOT_NONCE.reg 4 ∧ mAt (raise f v) 0x50 1 ≠ 5 ∧
      (signed none).keyEntry (mAt (raise f v) 6 1 - 1) = 0 ∧ mAt (raise f v) 7 1 = 0 ∧
      (signed none).keyHash (mAt (raise f v) 6 1 - 1) 0 = List.replicate 32 0 ∧ (signed none).authWindow (raise f v) = true ∧
      ¬ mAt (raise f v) 0x10 8 ≤ (signed none).get SEC_AUTH_SEQ.SEQ := by
    intro f v hf hv
    have hv : v = 0 ∨ v = 1 ∨ v = 2 := by omega
    rcases hf with rfl | rfl <;> rcases hv with rfl | rfl | rfl <;> decide +kernel
  obtain ⟨h1, h2, h3, h4, h5, h6, h7, h8, h9⟩ := h f v hf hv
  have e : (signed p).authCheck (raise f v) false = (signed none).authCheck (raise f v) false := rfl
  rw [e]
  have hkey : (signed none).authKey (raise f v) false = true := by
    unfold State.authKey
    simp only [if_neg h4, h5, h6, h7, hk]
    decide
  unfold State.authCheck
  simp only [h1, h2, ← h3, hkey, hs, h8, if_neg h9, Bool.not_true, Bool.false_eq_true, if_false, ne_eq, not_true_eq_false]

/-- The clauses about pairs: no half pending, the same role again, another value, and the two halves of one action. -/
theorem witness_AuthorizationAndQuotes_halves :
    (signed none).live ∧ (signed none).pendNow = none ∧ leAt (raise 1 1) 0x50 1 ≠ 5 ∧ leAt (raise 1 1) 0x50 1 = 4 ∧
    (signed (some (raise 1 1))).pendNow = some (raise 1 1) ∧ leAt (raise 1 1) 6 1 = leAt (raise 1 0) 6 1 ∧
    leAt (raise 1 1) 6 1 ≠ leAt (raise 2 1) 6 1 ∧ mBytes (raise 1 1) 0x28 0x58 ≠ mBytes (raise 2 0) 0x28 0x58 ∧
    mBytes (raise 1 1) 8 16 = mBytes (raise 2 1) 8 16 ∧ mBytes (raise 1 1) 0x28 0x58 = mBytes (raise 2 1) 0x28 0x58 ∧
    (signed none).get SEC_STATE.MIN_VERSION < leAt (raise 2 1) 0x60 1 ∧ leAt (raise 2 1) 0x60 1 ≤ (signed none).get GLB_BOOT.FW_VERSION ∧
    leAt (raise 2 0) 0x60 1 ≤ (signed none).get SEC_STATE.MIN_VERSION ∧ (signed none).get GLB_BOOT.FW_VERSION < leAt (raise 2 2) 0x60 1 := by
  decide +kernel

theorem witness_AuthorizationAndQuotes_quote :
    (up.sec.quote = none ∧ ({ up with sec := { quote := some ([], none) } } : State).sec.quote.isSome = true) ∧
    (let r := jrec 3 0x38 1 [] []
     r.op = 0x38 ∧ r.zeros [(32, 16)] = true ∧ r.body = [] ∧ (ready r []).sec.quote = none ∧
       (jrec 3 0x38 1 (List.replicate 32 0 ++ [1]) []).zeros [(32, 16)] = false) ∧
    (let l : List Byte := List.replicate 0x140 0
     let s : State := { up with sec := { quote := some (l, none) } }
     s.sec.quote = some (l, none) ∧ s.sec.goWait = false ∧ l.length = 0x140) ∧
    (let l : List Byte := List.replicate 0x140 0
     let x := { jrec 3 0x38 2 [] [] with begun := true }
     let s : State := { eth [] { recs := [x], chans := [(3, { isOpen := true, nextStart := 101, nextDone := 100 })] } with
                        sec := { quote := some (l, some (3, 100)) } }
     s.live ∧ s.sec.quote = some (l, some (x.ch, x.seq)) ∧ s.hst.recs = [x] ∧ x.st = 2 ∧ (s.chan x.ch).retire ≤ x.seq ∧
       s.get (PWR_FN_CTRL.CLAIMED 144) = 0) := by decide +kernel

/-- A die that serves I3C, on die 0 of its board with the Wardrobe in service. -/
def i3c (regs : List (Fld × Nat)) : State :=
  puts up ([(GLB_BOOT.STAGE, 3), (WRD_STATUS.IN_SERVICE, 1), (FAB_WRD_LIMIT.LIMIT, 0x3000)] ++ regs)

theorem witness_ManagementFrames :
    (let s := i3c []
     s.live ∧ s.sec.op = none ∧ s.quiescing = false ∧ 0x2000 + 4096 ≤ shelfBase ∧ 2 ≤ s.get GLB_BOOT.STAGE ∧ s.get WRD_BOARD.DIE = 0 ∧
       s.get WRD_STATUS.IN_SERVICE = 1 ∧ 0x2000 + 4096 ≤ s.get FAB_WRD_LIMIT.LIMIT ∧ s.bad = [] ∧ s.ckp.snap = none) ∧
    (up.get GLB_BOOT.STAGE < 2 ∧ 0x10FFF8 < 0x110000 ∧ 0x10FFF8 % 8 = 0 ∧ 0x10FFFC % 8 ≠ 0 ∧ earlyBlock 0 = true) ∧
    (bit 1 0 = true ∧ bit 2 0 = false ∧ up.get MGT_I3C.ASSIGNED = 0 ∧ (i3c [(MGT_I3C.ASSIGNED, 1)]).get MGT_I3C.ASSIGNED = 1 ∧
      ({ up with sec := { op := some (false, 0, 1, 0, []) } } : State).sec.op.isSome = true) := by decide +kernel

theorem witness_ManagementFrames_rest :
    (let s := puts (i3c []) [(MGT_I3C.ASSIGNED, 0)]
     s.phys 5 = some 5 ∧ spAddr 5 0xBFFF8 + 8 ≤ qstBase ∧ 0xBFFF8 + 8 ≤ 0xC0000 ∧ s.mustWait false (spAddr 5 0xBFFF8) 8 = false) ∧
    (let s : State := { i3c [] with fab := { reenc := [(false, (5 * 0xC0000 + 0xBFFF8) / 4096)] } }
     spAddr 5 0xBFFF8 < regBase ∧ s.mustWait false (spAddr 5 0xBFFF8) 8 = true) ∧
    (let s := puts up [(PWR_FN_CTRL.EN 151, 1), (PWR_FN_CTRL.CLAIMED 151, 1)]
     s.live ∧ s.get (PWR_FN_CTRL.CLAIMED (144 + 7)) = 1 ∧ s.get (PWR_FN_CTRL.EN (144 + 7)) = 1) := by decide +kernel

/-- R455's provisioned ID of a lone part S in slot 5: the manufacturer ID stands in its top 15 bits. -/
theorem test_provId : up.provId 5 / 2 ^ 33 = 0x2E35 ∧ up.provId 5 / 2 ^ 8 % 256 = 5 := by decide +kernel

end Sys2Proof.Tests
end

section
/-! SUPPORT. What the operations of chapter 02 and of the link and port units that a power state moves may write: no
memory among it (R60). -/

namespace Sys2Proof.Machine

/-! ## Frames of shared shapes -/

/-- One more update, whose parts are among those named. -/
theorem Same.andThen {l m : List Part} {s t u : State} (h : Same l s t) (k : Same m t u) (hm : ∀ x ∈ m, x ∈ l := by decide) :
    Same l s u := h.trans (k.mono hm)

/-- A fold keeps the parts that each of its steps keeps. -/
theorem Same.foldl {α : Type} {l : List Part} {f : State → α → State} (h : ∀ s a, Same l s (f s a)) (xs : List α) (s : State) :
    Same l s (xs.foldl f s) := by
  induction xs generalizing s with
  | nil => exact Same.refl l s
  | cons x xs ih => exact (h s x).trans (ih (f s x))

/-- The memories of the die, with the record of their uncorrectable words. -/
def memoryParts : List Part := [.wrd, .shelf, .sp, .qst, .drw, .sram, .bad]

/-- A frame that names no memory keeps the contents of all. -/
theorem Same.keeps_memories {l : List Part} {s t : State} (h : Same l s t) (hl : ∀ x ∈ memoryParts, x ∉ l) :
    t.wrd = s.wrd ∧ t.shelf = s.shelf ∧ t.sp = s.sp ∧ t.qst = s.qst ∧ t.drw = s.drw ∧ t.sram = s.sram ∧ t.bad = s.bad := by
  simp only [memoryParts, List.forall_mem_cons, List.not_mem_nil, false_implies, implies_true, and_true] at hl
  obtain ⟨h1, h2, h3, h4, h5, h6, h7⟩ := hl
  simp only [Same, State.without, State.mk.injEq, List.contains_iff_mem, h1, h2, h3, h4, h5, h6, h7, if_false] at h
  simp only [h, and_self]

/-- A row of a running die whose effect writes neither the queue nor a pin answers with a state of the effect's frame. -/
theorem live_act_same {s : State} {f : State → State} {l : List Part} (h : s.live) (hs : Same l s (f s))
    (hl : ∀ x ∈ [Part.pending, .coldLow, .railsOk], x ∉ l) : ∃ t, act s f = .next t ∧ Same l s t :=
  ⟨f s, live_act s f h l hs (hl _ (by decide)) (hl _ (by decide)) (hl _ (by decide)), hs⟩

theorem State.setLink_same (s : State) (i : Nat) (x : Link) : Same [.links] s (s.setLink i x) := (rfl)
theorem State.modLink_same (s : State) (i : Nat) (f : Link → Link) : Same [.links] s (s.modLink i f) := s.setLink_same i _
theorem State.setBundle_same (s : State) (d : Nat) (x : Bundle) : Same [.bundles] s (s.setBundle d x) := (rfl)
theorem State.modBundle_same (s : State) (d : Nat) (f : Bundle → Bundle) : Same [.bundles] s (s.modBundle d f) := s.setBundle_same d _
theorem State.setWport_same (s : State) (p : Nat) (x : WPort) : Same [.wports] s (s.setWport p x) := (rfl)
theorem State.modWport_same (s : State) (p : Nat) (f : WPort → WPort) : Same [.wports] s (s.modWport p f) := s.setWport_same p _
theorem State.setBench_same (s : State) (p : Nat) (b : Bench) : Same [.benches] s (s.setBench p b) := (rfl)
theorem State.modBench_same (s : State) (p : Nat) (f : Bench → Bench) : Same [.benches] s (s.modBench p f) := s.setBench_same p _

/-! ## Bundles, tunnels and links -/

theorem State.enqueue_same (s : State) (d input ch : Nat) (pkt : List Byte) : Same [.bundles] s (s.enqueue d input ch pkt) :=
  s.modBundle_same d _

theorem State.pump_same (s : State) (d e : Nat) : Same [.bundles] s (s.pump d e) :=
  (s.setBundle_same d _).trans (Same.foldl (fun s p => s.enqueue_same e 6 8 p) _ _)

theorem State.output_same (s : State) (d input ch : Nat) (pkt : List Byte) : Same [.bundles] s (s.output d input ch pkt) := by
  unfold State.output State.pumpOn
  split
  · exact (s.enqueue_same d input ch pkt).trans (State.pump_same _ _ _)
  · exact s.enqueue_same d input ch pkt

theorem State.sendLinkStatus_same (s : State) : Same [.bundles] s s.sendLinkStatus := by
  refine Same.foldl (fun s d => ?_) _ s
  split
  · exact s.output_same _ _ _ _
  · exact Same.refl _ s

/-- A direction that is tunnelled, or has no path, leaves a record where that is new (R336, R337). -/
theorem State.retunnel_same (s : State) (d : Nat) : Same [.regs, .bundles, .ras] s (s.retunnel d) := by
  have h := Same.refl [.regs, .bundles, .ras] s
  unfold State.retunnel
  split
  · exact h.andThen (State.put_same _ _ 0)
  · split
    · refine Same.andThen ?_ (State.pump_same _ _ _)
      split
      · exact h.andThen (State.put_same _ _ _)
      · exact h.andThen (State.put_same _ _ _) |>.andThen (State.put_same _ _ _) |>.andThen (State.put_same _ _ 1)
          |>.andThen (State.raise_same _ _ _)
    · split
      · exact h
      · exact h.andThen (State.put_same _ _ _) |>.andThen (State.put_same _ _ 1) |>.andThen (State.raise_same _ _ _)

theorem State.retunnelAll_same (s : State) : Same [.regs, .bundles, .ras] s s.retunnelAll := by
  refine Same.foldl (fun s d => ?_) _ s
  split
  · exact Same.refl _ s
  · exact s.retunnel_same d

theorem State.setUp_same (s : State) (l : Nat) (up : Bool) : Same [.regs] s (s.setUp l up) :=
  (s.put_same _ _).trans (State.put_same _ _ _)

/-- A link that stops gives its flits back to its bundle and may change tunnels (R334, R336). -/
theorem State.linkStop_same (s : State) (l st : Nat) : Same [.regs, .links, .bundles, .ras] s (s.linkStop l st) := by
  have h := (Same.refl [.regs, .links, .bundles, .ras] s).andThen (s.put_same (LNK_PORT_STATUS.STATE l) st)
    |>.andThen (State.setUp_same _ l false)
  have hstop := fun f g => h.andThen (State.modBundle_same _ (l / 8) f) |>.andThen (State.modLink_same _ l g)
  unfold State.linkStop
  dsimp only
  split
  · split
    · exact hstop _ _
    · exact (hstop _ _).andThen (State.retunnel_same _ _)
  · exact (hstop _ _).andThen (State.retunnelAll_same _) |>.andThen (State.sendLinkStatus_same _)

theorem State.trainStart_same (s : State) (l : Nat) : Same [.regs, .links] s (s.trainStart l) := by
  have h := Same.refl [.regs, .links] s
  unfold State.trainStart
  split
  · exact h.andThen (State.put_same _ _ _) |>.andThen (State.modLink_same _ _ _)
  · exact h

/-! ## Ethernet and Wardrobe ports -/

theorem State.netBits_same (s : State) : Same [.regs] s s.netBits :=
  (s.put_same _ _).trans (State.put_same _ _ _)

theorem State.ethLeave_same (s : State) (e st : Nat) : Same [.regs, .ras, .sec] s (s.ethLeave e st) := by
  have h := (Same.refl [.regs, .ras, .sec] s).andThen (s.put_same (HST_PORT_STATUS.STATE e) st)
  unfold State.ethLeave
  split
  · have hdown := fun v tag r => h.andThen (State.put_same _ (HST_PORT_STATUS.DOWNS e) v)
      |>.andThen (State.raise_same _ tag r) |>.andThen (State.netBits_same _)
    dsimp only
    split
    · exact (hdown _ _ _).andThen (State.put_same _ _ 1) |>.andThen (State.alert_same _ _)
    · exact hdown _ _ _
  · exact h

theorem State.claims_same (s : State) : Same [.regs] s s.claims := by
  refine Same.foldl (fun s n => ?_) _ s
  split
  · exact s.put_same _ _
  · exact Same.refl _ s

theorem State.portUp_same (s : State) (p : Nat) : Same [.regs, .wports] s (s.portUp p) := by
  have h := fun r f => (Same.refl [.regs, .wports] s).andThen (s.put_same (WRD_PORT_STATUS.STATE p) 4)
    |>.andThen (State.put_same _ WRD_STATUS.READY r) |>.andThen (State.modWport_same _ p f)
  unfold State.portUp
  dsimp only
  split_ifs
  · exact h _ _
  · exact (h _ _).andThen (State.put_same _ _ 1) |>.andThen (State.put_same _ _ _) |>.andThen (State.put_same _ _ 3)
      |>.andThen (State.claims_same _)
  · exact h _ _

theorem State.unready_same (s : State) (p : Nat) : Same [.regs] s (s.unready p) := s.put_same _ _

theorem State.portSleep_same (s : State) (p : Nat) : Same [.regs, .wports] s (s.portSleep p) :=
  (Same.refl _ s).andThen (s.put_same _ _) |>.andThen (State.unready_same _ p) |>.andThen (State.modWport_same _ p _)

/-! ## Power states -/

/-- A write of EN = 1 writes registers alone (Table 02.4). -/
theorem State.fnEnable_same (s : State) (n : Nat) : Same [.regs] s (s.fnEnable n) := by
  have h := s.put_same (PWR_FN_CTRL.EN n) 1
  unfold State.fnEnable
  dsimp only
  split_ifs
  · exact h.trans (State.put_same _ _ 1)
  · exact h.trans (State.put_same _ _ 0)
  · exact h.trans (State.put_same _ _ 1)
  · exact h
  · exact Same.refl _ s

/-- A write of EN = 0 writes registers, or is refused with a record (R59). -/
theorem State.fnDisable_same (s : State) (iss : Issuer) (n : Nat) : Same [.regs, .ras] s (s.fnDisable iss n) := by
  have h := (Same.refl [.regs, .ras] s).andThen (s.put_same (PWR_FN_CTRL.EN n) 0)
  unfold State.fnDisable
  dsimp only
  split
  · split
    · split
      · exact s.raise_same _ _
      · exact Same.refl _ s
    · split_ifs
      · exact h.andThen (State.put_same _ _ 1)
      · exact h.andThen (State.put_same _ _ 3)
      · exact h.andThen (State.put_same _ _ 0)
      · exact h
  · exact Same.refl _ s

/-- The parts that the unit of a function may write when the function reaches ON or OFF. -/
def unitParts : List Part := [.regs, .wports, .links, .bundles, .ras, .sec]

theorem State.fnOn_same (s : State) (n : Nat) : Same unitParts s (s.fnOn n) := by
  have h := Same.refl unitParts s
  unfold State.fnOn
  split_ifs
  · exact h.andThen (s.trainStart_same _)
  · exact h.andThen (s.put_same _ 1)
  · exact h.andThen (s.portUp_same _)
  · exact h
  · exact h

theorem State.fnOff_same (s : State) (n : Nat) : Same unitParts s (s.fnOff n) := by
  have h := Same.refl unitParts s
  unfold State.fnOff
  split_ifs
  · exact h
  · exact h.andThen (s.linkStop_same _ 0)
  · exact h.andThen (s.ethLeave_same _ 0)
  · exact h.andThen (s.portSleep_same _)
  · exact h
  · exact h

/-- A transition that completes writes the function's unit, or the list of groups that wait for a wake slot (R55, R58). -/
theorem State.fnDone_same (s : State) (n : Nat) : Same (.pwr :: unitParts) s (s.fnDone n) := by
  have h := Same.refl (.pwr :: unitParts) s
  have hoff := h.andThen (s.fnOff_same n)
  unfold State.fnDone
  dsimp only
  split_ifs
  · exact h.andThen (s.modPwr_same _)
  · exact h.andThen (s.put_same _ 3) |>.andThen (State.put_same _ _ 0) |>.andThen (State.fnOn_same _ n)
  · exact h.andThen (s.put_same _ 2) |>.andThen (State.fnOn_same _ n)
  · exact h
  · exact hoff.andThen (State.put_same _ _ 1) |>.andThen (State.put_same _ _ 0)
  · exact hoff.andThen (State.put_same _ _ 0)
  · exact h
  · exact h

theorem State.setCeils_same (s : State) (gs : List Nat) : Same [.regs, .pwr] s (s.setCeils gs) :=
  (Same.foldl (fun s g => (Same.refl _ s).andThen (s.put_same (PWR_GROUP_PACE.PACE_CEIL g) _)) gs s).andThen
    (State.modPwr_same _ _)

/-! ## The rows -/

theorem exec_pwrFnEnable (iss : Issuer) (n : Nat) (s : State) : exec (.pwrFnEnable iss n) s = act s fun s => s.fnEnable n := (rfl)
theorem exec_pwrFnDisable (iss : Issuer) (n : Nat) (s : State) : exec (.pwrFnDisable iss n) s = act s fun s => s.fnDisable iss n := (rfl)
theorem exec_powerTransitionDone (n : Nat) (s : State) : exec (.powerTransitionDone n) s = act s fun s => s.fnDone n := (rfl)
theorem exec_wakeSlot (s : State) : exec .wakeSlot s = execWakeSlot s := (rfl)

/-- What a wake slot of group `g` does to the group's Bench `c`: one that asks starts at the first step of its ramp (R56). -/
def State.wakeBench (g : Nat) (s : State) (c : Nat) : State :=
  if (s.bench (g * 33 + c)).asking then
    s.modBench (g * 33 + c) (fun b => { b with asking := false, lending := false, ramp := 1, rampAt := s.now })
  else s

theorem State.wakeBench_same (g : Nat) (s : State) (c : Nat) : Same [.benches] s (s.wakeBench g c) := by
  unfold State.wakeBench
  split
  · exact State.modBench_same _ _ _
  · exact Same.refl _ s

/-- A wake slot writes PWR registers, the Benches that it wakes and the lending state (R55, R56). -/
theorem exec_wakeSlot_same {s : State} (h : s.live) :
    ∃ t, exec .wakeSlot s = .next t ∧ Same [.regs, .benches, .pwr] s t := by
  rw [exec_wakeSlot]
  refine live_act_same (l := [.regs, .benches, .pwr]) h ?_ (by decide)
  split
  · exact Same.refl _ s
  · split
    · exact Same.refl _ s
    · refine Same.andThen (Same.andThen ?_ (State.modPwr_same _ _)) (State.setCeils_same _ _)
      have hbench := fun g => (Same.refl [.regs, .benches, .pwr] s).andThen (Same.foldl (State.wakeBench_same g) (List.range 33) s)
      split_ifs
      · exact (hbench _).andThen (State.put_same _ _ 3) |>.andThen (State.put_same _ _ 0)
      · exact (hbench _).andThen (State.put_same _ _ 2)
      · exact hbench _

/-- The parts that the rows which move a power state may write; no memory is among them (R60). -/
def powerParts : List Part := .pwr :: .benches :: unitParts

/-- Each row that moves a power state answers a next state and writes only those parts. -/
theorem exec_power_row_same {s : State} (h : s.live) (iss : Issuer) (n : Nat) :
    ∀ c ∈ [Instr.pwrFnEnable iss n, Instr.pwrFnDisable iss n, Instr.powerTransitionDone n, Instr.wakeSlot],
      ∃ t, exec c s = .next t ∧ Same powerParts s t := by
  simp only [List.forall_mem_cons, List.not_mem_nil, false_implies, implies_true, and_true]
  rw [exec_pwrFnEnable, exec_pwrFnDisable, exec_powerTransitionDone]
  refine ⟨?_, ?_, ?_, ?_⟩
  · exact live_act_same h ((s.fnEnable_same n).mono (by decide)) (by decide)
  · exact live_act_same h ((s.fnDisable_same iss n).mono (by decide)) (by decide)
  · exact live_act_same h ((s.fnDone_same n).mono (by decide)) (by decide)
  · obtain ⟨t, ht, hs⟩ := exec_wakeSlot_same h
    exact ⟨t, ht, hs.mono (by decide)⟩

/-! ## Self-refresh -/

theorem State.modWport_wport (s : State) (p : Nat) (f : WPort → WPort) : (s.modWport p f).wport p = f (s.wport p) :=
  SMap.get_set_same s.wports {} p _

theorem State.modWport_get (s : State) (p : Nat) (f : WPort → WPort) (g : Fld) : (s.modWport p f).get g = s.get g := (rfl)
theorem State.put_wport (s : State) (f : Fld) (v p : Nat) : (s.put f v).wport p = s.wport p := (rfl)

/-- A port that sleeps has its devices in self-refresh (R191). -/
theorem State.portSleep_selfRef (s : State) (p : Nat) : ((s.portSleep p).wport p).selfRef = true := by
  unfold State.portSleep; rw [State.modWport_wport]

/-- A port that sleeps writes WRD_PORT_STATUS and WRD_STATUS alone. -/
theorem State.portSleep_get (s : State) (p : Nat) (g : Fld) (h1 : g.off ≠ WRD_PORT_STATUS.reg p) (h2 : g.off ≠ WRD_STATUS.reg) :
    (s.portSleep p).get g = s.get g := by
  have hstate : (s.put (WRD_PORT_STATUS.STATE p) 6).get g = s.get g := State.get_put_other _ _ _ _ h1
  have hready : ∀ (t : State) v, (t.put WRD_STATUS.READY v).get g = t.get g := fun t v => State.get_put_other t _ _ v h2
  unfold State.portSleep State.unready
  rw [State.modWport_get, hready, hstate]

/-- A READY Wardrobe port that drains with no pending enable sleeps, and its function is OFF (Table 02.4, Table 02.5). -/
theorem State.fnDone_drained_port {s : State} {p : Nat} (hhere : s.fnHere (64 + p) = true) (hp : p < 32)
    (hready : s.get (WRD_PORT_STATUS.STATE p) = 4) (hdrain : s.get (PWR_FN_CTRL.STATUS (64 + p)) = 3)
    (hpend : s.get (PWR_FN_CTRL.PENDING (64 + p)) = 0) :
    s.fnDone (64 + p) = (s.portSleep p).put (PWR_FN_CTRL.STATUS (64 + p)) 0 := by
  have hoff : s.fnOff (64 + p) = s.portSleep p := by
    unfold State.fnOff
    rw [if_neg (by omega), if_neg (by omega), if_pos (by omega), Nat.add_sub_cancel_left, if_pos hready]
  have hnone : (s.portSleep p).on (PWR_FN_CTRL.PENDING (64 + p)) = false := by
    refine State.off_of ((State.portSleep_get s p _ ?_ ?_).trans hpend)
    · show 0x10800 + (64 + p) * 8 ≠ 0x60200 + p * 8
      omega
    · show 0x10800 + (64 + p) * 8 ≠ WRD_STATUS.reg
      unfold WRD_STATUS.reg
      omega
  unfold State.fnDone
  simp only [hhere, hdrain, hoff, hnone, if_true, if_false, Bool.false_eq_true]
  rw [if_neg (by omega), if_neg (by omega)]

/-- Settles O11: no row's frame (`powerParts`) names a memory, and a drained port is left by `State.portSleep`, in self-refresh. -/
theorem powerKeepsMemory : Obligations.PowerKeepsMemory := by
  unfold Obligations.PowerKeepsMemory
  intro s iss n hlive
  refine ⟨fun c hc => ?_, ?_⟩
  · obtain ⟨t, ht, hs⟩ := exec_power_row_same hlive iss n c hc
    exact ⟨t, ht, hs.keeps_memories (by decide)⟩
  · rintro p t rfl hhere hp hready hdrain hpend hexec
    have hnext : exec (.powerTransitionDone (64 + p)) s = .next (s.fnDone (64 + p)) :=
      (exec_powerTransitionDone _ s).trans <| live_act s _ hlive _ (s.fnDone_same (64 + p)) (by decide) (by decide) (by decide)
    rw [hnext, State.fnDone_drained_port hhere hp hready hdrain hpend] at hexec
    cases hexec
    refine ⟨State.get_put_same _ (PWR_FN_CTRL.STATUS (64 + p)) 0 (by show 8 ≤ 9; omega) (by show 9 < 64; omega), ?_⟩
    rw [State.put_wport, State.portSleep_selfRef]

end Sys2Proof.Machine
end

section
/-! SUPPORT. What BOUNDARY_TIMEOUT does in a late boundary: the record of the lowest tile that has not reported (R82). -/

namespace Sys2Proof.Machine

/-! ## Where a member of a drawer stands -/

theorem State.get_lt (s : State) (f : Fld) : s.get f < 2 ^ (f.hi + 1 - f.lo) := Nat.mod_lt _ (Nat.two_pow_pos _)

/-- A column of the tile map is a field of 6 bits. -/
theorem TMAP_ROW_COL.COL_width (ty k b : Nat) : (TMAP_ROW_COL.COL ty k b).hi + 1 - (TMAP_ROW_COL.COL ty k b).lo = 6 := by
  show 8 * b + 5 + 1 - (8 * b + 0) = 6
  omega

/-- A tile stands in one of the 32 rows, at a column of 6 bits (TMAP_ROW_COL). -/
theorem State.phys_lt {s : State} {n p : Nat} (h : s.phys n = some p) : p < 32 * 33 + 2 ^ 6 := by
  unfold State.phys at h
  dsimp only at h
  split at h
  · next hn =>
    split at h
    · have hcol := s.get_lt (TMAP_ROW_COL.COL (n / 32) (n % 32 / 8) (n % 8))
      rw [TMAP_ROW_COL.COL_width] at hcol
      cases h
      omega
    · cases h
  · cases h

/-- A tile whose record stands in a drawer stands at a Bench. -/
theorem State.phys_of_planeAt {s : State} {d tile : Nat} {v : View} (h : s.planeAt d tile = some v) : ∃ p, s.phys tile = some p := by
  unfold State.planeAt at h
  split at h
  · obtain ⟨p, hp, -⟩ := Option.map_eq_some_iff.mp h
    exact ⟨p, hp⟩
  · cases h

theorem State.planeAt_of_mem_members {s : State} {d tile : Nat} {v : View} (h : (tile, v) ∈ s.members d) :
    s.planeAt d tile = some v := by
  obtain ⟨t, -, ht⟩ := List.mem_filterMap.mp h
  obtain ⟨u, hu, hmode⟩ := Option.bind_eq_some_iff.mp ht
  split at hmode
  · cases hmode
  · cases hmode
    exact hu

/-! ## The late boundary -/

/-- The event of a late boundary: unit class 0, at the Bench of the tile that has not reported (R82). -/
def lateEvent (p tile : Nat) : ErrEvent :=
  { unit := unitId 0 p, cls := 1, reason := 0x02FF, ctx := 0, detail := tile + 6 * 2 ^ 16 }

/-- The state after the record of a late boundary of micro-batch `m`, which the fabric keeps. -/
def State.recordLate (s : State) (m : Micro) (rest : List Micro) (p tile : Nat) : State :=
  (s.modFab (fun f => { f with micros := { m with timedOut := true } :: rest })).raise m.run.tag (lateEvent p tile)

/-- A tile's Bench has a unit ID of 16 bits (R400). -/
theorem State.unitId_phys_lt {s : State} {tile p : Nat} (h : s.phys tile = some p) : unitId 0 p < 65536 := by
  have hp := State.phys_lt h
  unfold unitId
  omega

section
variable (s : State) (m : Micro) (rest : List Micro) (p tile : Nat)

theorem State.recordLate_same : Same [.regs, .ras, .fab] s (s.recordLate m rest p tile) :=
  ((s.modFab_same _).mono (by decide)).andThen (State.raise_same _ _ _)

/-- A record is not the fabric's: it changes nothing of where the fabric stands. -/
theorem State.recordLate_fab :
    (s.recordLate m rest p tile).fab = { s.fab with micros := { m with timedOut := true } :: rest } :=
  (congrArg State.fab (State.raise_same _ m.run.tag (lateEvent p tile))).symm

theorem State.recordLate_regs (h : unitId 0 p < 65536) : RegsBut (regsOf 13) s (s.recordLate m rest p tile) :=
  State.raise_regs _ m.run.tag (lateEvent p tile) h

theorem State.recordLate_raised (h : unitId 0 p < 65536) : Raised (unitId 0 p) s (s.recordLate m rest p tile) :=
  State.raise_raised _ m.run.tag (lateEvent p tile) h

end

/-- Effects that agree on a state answer alike there. -/
theorem act_congr {s : State} {f g : State → State} (h : f s = g s) : act s f = act s g := by
  unfold act
  rw [h]

/-- BOUNDARY_TIMEOUT in a boundary that is late, and whose record has not been raised (R82). -/
theorem exec_boundaryTimeout_late {s : State} {m : Micro} {rest : List Micro} {a tile p : Nat} {v : View} (hlive : s.live)
    (hmicros : s.fab.micros = m :: rest) (hfirst : m.firstDone = some a) (hout : m.timedOut = false)
    (hlate : a + s.get FAB_BOUNDARY_TIMEOUT.TICKS ≤ s.now)
    (htile : (s.members m.run.drawer).find? (fun x => !(m.done.contains x.1)) = some (tile, v)) (hp : s.phys tile = some p) :
    exec .boundaryTimeout s = .next (s.recordLate m rest p tile) := by
  calc exec .boundaryTimeout s = execBoundaryTimeout s := rfl
    _ = act s (fun s => s.recordLate m rest p tile) :=
      act_congr (by
        simp only [hmicros, hfirst, htile, hout, hlate, hp, and_self, if_true, Option.getD_some, State.recordLate, lateEvent])
    _ = .next (s.recordLate m rest p tile) :=
      live_act s _ hlive _ (s.recordLate_same m rest p tile) (by decide) (by decide) (by decide)

/-- Settles O18: the tile found is a member of the drawer, so it stands at a Bench, whose record is the effect's only change
besides the mark that it has been raised. -/
theorem boundaryLate : Obligations.BoundaryLate := by
  unfold Obligations.BoundaryLate
  intro s m rest a tile v hlive hmicros hfirst hout hlate htile
  obtain ⟨p, hp⟩ := State.phys_of_planeAt (State.planeAt_of_mem_members (List.mem_of_find?_eq_some htile))
  have hunit := State.unitId_phys_lt hp
  exact ⟨s.recordLate m rest p tile, p, hp, exec_boundaryTimeout_late hlive hmicros hfirst hout hlate htile hp,
    s.recordLate_same m rest p tile, s.recordLate_regs m rest p tile hunit, s.recordLate_fab m rest p tile,
    s.recordLate_raised m rest p tile hunit⟩

end Sys2Proof.Machine
end
